-- ==== Sys2Proof/Word.lean ====
section
/-! DEFINITION.
The word types and the small index types of the Z8 module model, and the plain operand types that
the commands of `Syntax.lean` carry.  Bit vectors stand where the manual numbers bits; indices that
the manual counts (cores, links, queues) are `Fin`. -/

namespace Sys2Proof

/-- A register of the register space, a scalar register, a canopy time (00 R29, 02 R46). -/
abbrev W64 := BitVec 64
/-- A 32-bit word: an accumulator, a loop counter, a bundle address. -/
abbrev W32 := BitVec 32
/-- A 17-bit module number (15 R438). -/
abbrev W17 := BitVec 17
abbrev W16 := BitVec 16
abbrev W10 := BitVec 10
abbrev B8 := BitVec 8
abbrev B5 := BitVec 5
abbrev B4 := BitVec 4
abbrev B2 := BitVec 2
abbrev Byte := BitVec 8
/-- One 512-byte Comb, Cellar or host row, byte 0 in bits [7:0]. -/
abbrev Row := BitVec 4096
/-- One 64-byte line of the host port or of the service bus. -/
abbrev Line := BitVec 512
/-- One 280-byte Canopy slot image (15 R432). -/
abbrev Image := BitVec 2240
/-- A slot image as it was framed: over one lane or over two (15 R455). -/
abbrev Framed := Bool × Image
/-- A 256-bit key. -/
abbrev Key := BitVec 256

/-- Physical core index 80·d + c of core d.c (01, identifiers). -/
abbrev CoreIx := Fin 320
/-- Context of a core. -/
abbrev CtxIx := Fin 4
/-- Hive die. -/
abbrev DieIx := Fin 4
/-- Matrix array of a core. -/
abbrev ArrIx := Fin 8
/-- Cellar read queue of a core. -/
abbrev RqIx := Fin 4
/-- Cellar write queue of a core. -/
abbrev WqIx := Fin 2
/-- Stream slot of a core. -/
abbrev StrIx := Fin 16
/-- Speculation tag 1–7; 0 never names one. -/
abbrev TagIx := Fin 8
/-- Waggle binding of a context. -/
abbrev BindIx := Fin 16
/-- Logical core number. -/
abbrev LCoreIx := Fin 288
/-- Glade number (14 R400). -/
abbrev GladeIx := Fin 662
/-- Droop level; 0 stands for the alarm withdrawn. -/
abbrev LevelIx := Fin 5
/-- Canopy link. -/
abbrev LinkIx := Fin 24
/-- W (0) or E (1): an Edge die, its CRU, its Keeper member. -/
abbrev EdgeIx := Fin 2
/-- A DMA channel of an Edge die. -/
abbrev ChIx := Fin 16
/-- A reduction job or stage number. -/
abbrev JobIx := Fin 4096
/-- Cellar channel. -/
abbrev CellChIx := Fin 96
/-- Cellar device. -/
abbrev DevIx := Fin 12
/-- Host stream channel. -/
abbrev HchIx := Fin 8
/-- An Adsiem-S processor: cp0–cp15, then Keeper W (16) and Keeper E (17). -/
abbrev ProcIx := Fin 18
/-- A control processor. -/
abbrev CpIx := Fin 16
/-- A Keeper comparator. -/
abbrev CmpIx := Fin 8
/-- An MSI-X vector. -/
abbrev VecIx := Fin 64
/-- A service bus input (19 R541). -/
abbrev Inp := Fin 19

/-- A message body. -/
abbrev Bytes := List Byte
/-- A sensor sample set: sensor index, value, valid (20 R554). -/
abbrev Samples := List (Nat × W16 × Bool)
/-- A list of physical positions. -/
abbrev Positions := List CoreIx
/-- Rows of slices that fail a self-test: physical position and program-visible row. -/
abbrev BadRows := List (CoreIx × Nat)
/-- What the self-tests of a bring-up stage found: the positions that failed, and the rows of slices to be repaired. -/
abbrev SelfTests := Positions × BadRows

/-- The six slots of a bundle (03 R70). -/
inductive Slot where
  | s0 | s1 | m | v | f | x
  deriving DecidableEq, Repr

/-- The number by which CORE.CTXn.FAULTAT names a slot (12 R370): S0 1 … X 6. -/
def Slot.number : Slot → Nat
  | .s0 => 1 | .s1 => 2 | .m => 3 | .v => 4 | .f => 5 | .x => 6

/-- Where a slot instruction is issued.  In a bundle of a context: the core, the context, the slot it
stands in, the bundle's 16-bit header, and whether more slots of the same bundle follow in the queue.
The slot that carries `more = false` completes the bundle, and the bundle issues.
On an Adsiem-S processor: the processor (03 R101). -/
inductive Iss where
  | slot (core : CoreIx) (ctx : CtxIx) (slot : Slot) (hdr : W16) (more : Bool)
  | proc (p : ProcIx)
  deriving DecidableEq, Repr

/-- An instruction of the test port (24 R631). -/
inductive TestIns where
  | idcode | bypass | boundary
  deriving DecidableEq, Repr

end Sys2Proof
end

