-- ==== Sys2Proof/Syntax.lean ====
section
/-! DEFINITION.
The commands of the Z8 module: one constructor per row of the table of operations and events, slot
instructions first.  A slot instruction carries where it is issued and its 32 operand bits [31:0] (03 R74);
every other command carries the operands its rules name. -/

namespace Sys2Proof

inductive Instr where
  | nop (w : Iss) (op : W32)
  | sAdd (w : Iss) (op : W32)
  | sSub (w : Iss) (op : W32)
  | sAnd (w : Iss) (op : W32)
  | sOr (w : Iss) (op : W32)
  | sXor (w : Iss) (op : W32)
  | sShl (w : Iss) (op : W32)
  | sShr (w : Iss) (op : W32)
  | sSra (w : Iss) (op : W32)
  | sMul (w : Iss) (op : W32)
  | sMulh (w : Iss) (op : W32)
  | sMin (w : Iss) (op : W32)
  | sMax (w : Iss) (op : W32)
  | sMinu (w : Iss) (op : W32)
  | sMaxu (w : Iss) (op : W32)
  | sAddi (w : Iss) (op : W32)
  | sAndi (w : Iss) (op : W32)
  | sOri (w : Iss) (op : W32)
  | sXori (w : Iss) (op : W32)
  | sShli (w : Iss) (op : W32)
  | sShri (w : Iss) (op : W32)
  | sSrai (w : Iss) (op : W32)
  | sMuli (w : Iss) (op : W32)
  | sLi (w : Iss) (op : W32)
  | sLix (w : Iss) (op : W32)
  | sRdct (w : Iss) (op : W32)
  | sRdjt (w : Iss) (op : W32)
  | sRdcyc (w : Iss) (op : W32)
  | sRdrep (w : Iss) (op : W32)
  | sRdns (w : Iss) (op : W32)
  | sClrns (w : Iss) (op : W32)
  | sRdctx (w : Iss) (op : W32)
  | cSet (w : Iss) (op : W32)
  | cSeti (w : Iss) (op : W32)
  | cStep (w : Iss) (op : W32)
  | cRd (w : Iss) (op : W32)
  | br (w : Iss) (op : W32)
  | brC (w : Iss) (op : W32)
  | brNc (w : Iss) (op : W32)
  | brR (w : Iss) (op : W32)
  | call (w : Iss) (op : W32)
  | loop (w : Iss) (op : W32)
  | waitAt (w : Iss) (op : W32)
  | waitQ (w : Iss) (op : W32)
  | waitF (w : Iss) (op : W32)
  | waitSb (w : Iss) (op : W32)
  | taskStart (w : Iss) (op : W32)
  | taskEnd (w : Iss) (op : W32)
  | replayWait (w : Iss) (op : W32)
  | icachePreload (w : Iss) (op : W32)
  | icacheLock (w : Iss) (op : W32)
  | icacheUnlock (w : Iss) (op : W32)
  | mGang (w : Iss) (op : W32)
  | mMask (w : Iss) (op : W32)
  | mPass (w : Iss) (op : W32)
  | mPassr (w : Iss) (op : W32)
  | mFree (w : Iss) (op : W32)
  | tmLd (w : Iss) (op : W32)
  | tmSt (w : Iss) (op : W32)
  | mvCfg (w : Iss) (op : W32)
  | mvLdv (w : Iss) (op : W32)
  | mvPass (w : Iss) (op : W32)
  | mvFree (w : Iss) (op : W32)
  | vOp (w : Iss) (op : W32)
  | vBld (w : Iss) (op : W32)
  | vExt (w : Iss) (op : W32)
  | vSeed (w : Iss) (op : W32)
  | epRun (w : Iss) (op : W32)
  | wOpen (w : Iss) (op : W32)
  | wClose (w : Iss) (op : W32)
  | fStart (w : Iss) (op : W32)
  | fStop (w : Iss) (op : W32)
  | fTake (w : Iss) (op : W32)
  | spOpen (w : Iss) (op : W32)
  | confirm (w : Iss) (op : W32)
  | squash (w : Iss) (op : W32)
  | spTrain (w : Iss) (op : W32)
  | put (w : Iss) (op : W32)
  | putAdd (w : Iss) (op : W32)
  | get (w : Iss) (op : W32)
  | xSig (w : Iss) (op : W32)
  | xSigr (w : Iss) (op : W32)
  | qSend (w : Iss) (op : W32)
  | qPop (w : Iss) (op : W32)
  | qSkip (w : Iss) (op : W32)
  | qStat (w : Iss) (op : W32)
  | qSstat (w : Iss) (op : W32)
  | cmtArrive (w : Iss) (op : W32)
  | sLd8 (w : Iss) (op : W32)
  | sLd16 (w : Iss) (op : W32)
  | sLd32 (w : Iss) (op : W32)
  | sLd64 (w : Iss) (op : W32)
  | sSt8 (w : Iss) (op : W32)
  | sSt16 (w : Iss) (op : W32)
  | sSt32 (w : Iss) (op : W32)
  | sSt64 (w : Iss) (op : W32)
  | sWfe (w : Iss) (op : W32)
  | sRdcsr (w : Iss) (op : W32)
  | sWrcsr (w : Iss) (op : W32)
  | sEret (w : Iss) (op : W32)
  | waitAtTargetReached (core : CoreIx) (ctx : CtxIx)
  | waitConditionMet (core : CoreIx) (ctx : CtxIx)
  | contextSwitch (core : CoreIx)
  | gatedWake (core : CoreIx)
  | icacheMiss (core : CoreIx) (ctx : CtxIx)
  | icacheFillComplete (core : CoreIx) (line : Nat)
  | start (inp : Inp) (core : CoreIx) (ctx : CtxIx) (entry : W32)
  | endCmd (inp : Inp) (core : CoreIx) (ctx : CtxIx)
  | go (inp : Inp) (core : CoreIx) (ctx : CtxIx)
  | paramWrite (inp : Inp) (core : CoreIx) (ctx : CtxIx) (j : B8) (value : W64)
  | contextClearBegin (core : CoreIx) (ctx : CtxIx)
  | contextClearEnd (core : CoreIx) (ctx : CtxIx)
  | backgroundTileClear (core : CoreIx)
  | tileRushComplete (core : CoreIx)
  | passAccumulateStart (core : CoreIx) (base : ArrIx)
  | blockAccumulate (core : CoreIx) (base : ArrIx)
  | passResume (core : CoreIx) (base : ArrIx)
  | passSwap (core : CoreIx) (base : ArrIx)
  | passDrainComplete (core : CoreIx) (base : ArrIx)
  | tilesWrite (inp : Inp) (core : CoreIx) (ctx : CtxIx) (value : W64)
  | tileMoveComplete (core : CoreIx)
  | mvLdvComplete (core : CoreIx)
  | mvBlockWrite (core : CoreIx)
  | mvPassComplete (core : CoreIx)
  | mvpClearComplete (core : CoreIx)
  | vAdd (core : CoreIx)
  | vSub (core : CoreIx)
  | vMul (core : CoreIx)
  | vFmas (core : CoreIx)
  | vMax (core : CoreIx)
  | vMin (core : CoreIx)
  | vAbs (core : CoreIx)
  | vNeg (core : CoreIx)
  | vScl (core : CoreIx)
  | vAdds (core : CoreIx)
  | vCmp (core : CoreIx)
  | vSel (core : CoreIx)
  | vCvt (core : CoreIx)
  | vRsum (core : CoreIx)
  | vRmax (core : CoreIx)
  | vRmin (core : CoreIx)
  | vGath (core : CoreIx)
  | vTrn (core : CoreIx)
  | vOpComplete (core : CoreIx)
  | epRunComplete (core : CoreIx)
  | remoteAccessArrival (core : CoreIx) (id : Nat)
  | remoteBufferApply (core : CoreIx)
  | sequencerApply (core : CoreIx)
  | combApertureAccess (inp : Inp)
  | rowRewrite (core : CoreIx)
  | scrubStep (core : CoreIx)
  | repair (inp : Inp) (core : CoreIx) (value : W64)
  | spareRowRepairDone (core : CoreIx)
  | shadowWrite (inp : Inp) (core : CoreIx) (value : W64)
  | copyGo (inp : Inp) (core : CoreIx) (value : W64)
  | copyRow (core : CoreIx)
  | copyDone (core : CoreIx)
  | streamProgramRead (core : CoreIx) (slot : StrIx)
  | rowOperationGrant (core : CoreIx) (slot : StrIx)
  | fwaitGrant (core : CoreIx) (slot : StrIx)
  | signalGrant (core : CoreIx) (slot : StrIx)
  | foragerWrite (core : CoreIx)
  | cellarRowLand (core : CoreIx) (queue : RqIx) (entry : Nat)
  | readQueueDelivery (core : CoreIx) (queue : RqIx)
  | writeQueueCommit (core : CoreIx) (queue : WqIx) (entry : Nat)
  | streamEnd (core : CoreIx) (slot : StrIx)
  | streamHalt (core : CoreIx) (slot : StrIx) (reason : B8)
  | resume (inp : Inp) (core : CoreIx) (slot : StrIx)
  | abort (inp : Inp) (core : CoreIx) (slot : StrIx)
  | confirmResume (core : CoreIx) (ctx : CtxIx)
  | confirmComplete (core : CoreIx) (ctx : CtxIx)
  | squashComplete (core : CoreIx) (ctx : CtxIx) (tag : TagIx)
  | ehtClear (inp : Inp) (core : CoreIx)
  | getRowReturn (core : CoreIx) (id : Nat)
  | xferStatusArrival (core : CoreIx) (id : Nat)
  | xferLost (core : CoreIx) (ctx : CtxIx) (id : Nat)
  | operationRecordDiscard (core : CoreIx) (id : Nat)
  | signalArrival (core : CoreIx) (id : Nat)
  | flagownWrite (inp : Inp) (core : CoreIx) (ctx : CtxIx) (value : W64)
  | wqownWrite (inp : Inp) (core : CoreIx) (value : W64)
  | bindWrite (inp : Inp) (core : CoreIx) (ctx : CtxIx) (b : BindIx) (value : W64)
  | waggleMessageJudge (core : CoreIx) (id : Nat)
  | sendStatus (core : CoreIx) (id : Nat)
  | commitArrival
  | budgetWindow (die : DieIx)
  | imageWrite (inp : Inp) (core : CoreIx) (value : W64)
  | orderedWrite (inp : Inp) (value : W64)
  | mapWrite (inp : Inp) (n : LCoreIx) (value : W64)
  | remap (n : LCoreIx)
  | droopAlarm (glade : GladeIx) (level : LevelIx)
  | lag (glade : GladeIx)
  | opreqWrite (inp : Inp) (value : W64)
  | operatingPointChange
  | jobepochWrite (inp : Inp) (value : W64)
  | tctlWrite (inp : Inp) (value : W64)
  | hallPpsEdge
  | ppsLost
  | hallRefLoss
  | hallRefGood
  | linkEstimate
  | timeStep
  | acquireComplete
  | holdoverExpiry
  | slot (link : LinkIx)
  | slotReceive (link : LinkIx) (n : Nat) (image : Framed) (fec : B4) (rx : Int)
  | retryRequestTimeout (link : LinkIx)
  | sideResend (link : LinkIx)
  | dmaGo (inp : Inp) (edge : EdgeIx) (ch : ChIx) (value : W64)
  | dmaRowRead (edge : EdgeIx) (ch : ChIx)
  | bankSwap (inp : Inp)
  | slotTableSwap
  | laneFailure (link : LinkIx) (lane : Bool)
  | laneDegrade (link : LinkIx)
  | schedEntry (link : LinkIx)
  | recal (inp : Inp) (link : LinkIx)
  | fullRecalibration (link : LinkIx) (txoff : W16) (alpha : W16) (delay : W16) (delayr : W16)
  | bucketWrite (inp : Inp) (j : JobIx) (word : B2) (value : W64)
  | bucketPartFull (j : JobIx) (core : CoreIx)
  | bucketDeadline (j : JobIx)
  | stageWrite (inp : Inp) (cru : EdgeIx) (k : JobIx) (word : Bool) (value : W64)
  | redFlitAccept (link : LinkIx)
  | stageFlitForm (cru : EdgeIx) (k : JobIx)
  | arrive (inp : Inp)
  | runtimeFail (inp : Inp)
  | cmtConfigWrite (inp : Inp) (off : Nat) (value : W64)
  | arrived (link : LinkIx) (relno : W32) (time : W64)
  | release (relno : W32) (time : W64)
  | stepRelease
  | ready (link : LinkIx) (relno : W32)
  | allready (relno : W32)
  | failToken (relno : W32) (cause : B8)
  | stepDeadline
  | commitPoint
  | cellarApertureAccess (inp : Inp)
  | linkEccReread (ch : CellChIx) (burst : Nat) (clean : Bool)
  | checkBufferFlush (ch : CellChIx)
  | perBankRefresh (ch : CellChIx) (rank : Bool)
  | mr4Poll (ch : CellChIx) (rank : Bool) (field : B8) (linkce : W32)
  | refreshPatternChange (dev : DevIx)
  | wck2dqTracking (ch : CellChIx) (rank : Bool) (count : W16)
  | shareWrite (inp : Inp) (value : W64)
  | shareChange
  | retrain (inp : Inp) (value : W64)
  | fullRetraining (dev : DevIx)
  | ppr (inp : Inp) (value : W64)
  | postPackageRepair
  | hostMemoryRequest (wr : Bool) (bar : B2) (off : Nat) (data : Bytes) (len : Nat)
  | configurationRequest (wr : Bool) (off : W16) (data : W32)
  | linkTraining (agreed : Bool) (width : B5) (rate : B2) (lopt : Bool)
  | portReset (kind : B2)
  | hchBindWrite (inp : Inp) (ch : HchIx) (value : W64)
  | hostLineResponse (ch : HchIx) (id : Nat) (status : B2) (data : Line)
  | hostLineTimeout (ch : HchIx) (id : Nat)
  | httsync (inp : Inp)
  | httsyncDone
  | dbell (inp : Inp) (value : W64)
  | ideCheckFailed (io : Bool)
  | mailboxMctpCommand (msg : Bytes)
  | getVersion (msg : Bytes)
  | getCapabilities (msg : Bytes)
  | negotiateAlgorithms (msg : Bytes)
  | getDigests (msg : Bytes)
  | getCertificate (slot : B4) (off : W16) (len : W16)
  | challenge (slot : B4) (msg : Bytes)
  | getMeasurements (index : B8) (sig : Bool) (msg : Bytes)
  | keyExchange (msg : Bytes)
  | finish (msg : Bytes)
  | keyUpdate (op : B8)
  | heartbeat
  | endSession
  | ideKm (io : Bool) (op : B2) (keyset : Bool) (key : Key)
  | requestUpdate (comps : B4)
  | requestFirmwareData (comp : B2) (off : Nat) (data : Bytes)
  | verifyComplete (comp : B2)
  | activateFirmware
  | cpImageActivation
  | storeError (p : ProcIx)
  | interruptEntry (p : ProcIx)
  | wfeWake (p : ProcIx)
  | claim (p : CpIx)
  | complete (p : CpIx) (value : W64)
  | eventRaise (die : DieIx) (source : W10)
  | swraise (inp : Inp) (die : DieIx) (value : W64)
  | pendingClear (inp : Inp) (die : DieIx) (source : W10)
  | cpRun (inp : Inp) (p : CpIx) (entry : W32)
  | cpHalt (inp : Inp) (p : CpIx)
  | cpReset (inp : Inp) (p : CpIx)
  | serviceBusGrant
  | registerWrite (inp : Inp) (off : Nat) (size : Nat) (value : W64)
  | beat (inp : Inp)
  | takeover
  | standbyLost
  | roleSwap (inp : Inp)
  | restart (inp : Inp)
  | notice (inp : Inp) (target : B5)
  | sensorSampleSet (samples : Samples)
  | comparatorTrip (k : CmpIx) (code : W10)
  | logAppend (severity : B4) (source : W16) (code : W16) (data : Bytes)
  | sectorErase
  | lifeCycleTransition (target : B4) (sig : Bytes)
  | transitionNonce
  | unlock (sig : Bytes)
  | fenceRequest (core : CoreIx)
  | keeperStreamPiece (member : EdgeIx) (m : EdgeIx) (out : Bool) (flash : Bool) (sram : W32) (addr : W64) (len : W17)
  | kstrResume (inp : Inp) (m : EdgeIx)
  | kstrAbort (inp : Inp) (m : EdgeIx)
  | acquire (inp : Inp) (value : W64)
  | leaseRelease (inp : Inp) (value : W64)
  | adopt (inp : Inp) (value : W64)
  | nap (inp : Inp) (core : CoreIx) (value : W64)
  | deep (inp : Inp) (core : CoreIx) (value : W64)
  | wake (inp : Inp) (core : CoreIx) (value : W64)
  | entryComplete (core : CoreIx)
  | coreWake (core : CoreIx) (source : B4)
  | timerWake (core : CoreIx)
  | wakeStepReady (core : CoreIx)
  | wakefail (core : CoreIx)
  | arrayReady (core : CoreIx)
  | capWrite (inp : Inp) (value : W64)
  | budgetWrite (inp : Inp) (die : DieIx) (value : W64)
  | budgetTakesEffect (die : DieIx)
  | powerAverage (watts : W16)
  | throttleTrip
  | throttleStart
  | throttleEnd
  | gladeResume
  | thermalTrip (core : CoreIx)
  | gate (inp : Inp) (core : CoreIx)
  | fenceDeepEntry (core : CoreIx)
  | probe (inp : Inp) (core : CoreIx)
  | fenceReturn (inp : Inp) (core : CoreIx)
  | returnComplete (core : CoreIx)
  | rollback (origin : W17) (step : W64)
  | v48Good
  | inputLost
  | stageComplete (found : SelfTests)
  | stageTimeout (cause : B8)
  | moduleReset (inp : Inp)
  | coreReset (inp : Inp) (core : CoreIx)
  | canopyTrain (link : LinkIx) (lanes : B4)
  | repay (glade : GladeIx)
  | comparatorClear (k : CmpIx) (code : W10)
  | retrainingEnd (dev : DevIx)
  | hpprComplete
  | snoop (addr : W64)
  | serviceCompletion (inp : Inp)
  | msiXUnmask (vector : VecIx)
  | doeDiscovery (box : Bool) (index : B8)
  | tableAccess (handle : W16)
  | getEventRecords (opcode : W16)
  | setEndpointId (eid : B8)
  | pldmDiscovery (cmd : B8)
  | laneCodeBankSwitch (link : LinkIx)
  | testPortInstruction (ins : TestIns)
  deriving DecidableEq, Repr

end Sys2Proof
end

