-- ==== Sys2Proof/Decode.lean ====
section
/-! DEFINITION.
The slot words of a bundle and the instruction words of Adsiem-S, each an instruction of the table (spec 03 R74–R103, 04 R141, 05 R168,
07 R229, 08 R256, 09, 10, 11, 12).  The table of operations and events itself gives no row any bits: commands reach the module from outside
and are not decoded from words. -/

namespace Sys2Proof

/-- The scalar and comparator instructions of S0 and S1 (R79, R82). -/
def opcodeS (w : Iss) (op : BitVec 32) (opcode : Nat) : Option Instr :=
  match opcode with
  | 0x01 => some (.sAdd w op)
  | 0x02 => some (.sSub w op)
  | 0x03 => some (.sAnd w op)
  | 0x04 => some (.sOr w op)
  | 0x05 => some (.sXor w op)
  | 0x06 => some (.sShl w op)
  | 0x07 => some (.sShr w op)
  | 0x08 => some (.sSra w op)
  | 0x09 => some (.sMul w op)
  | 0x0A => some (.sMulh w op)
  | 0x0B => some (.sMin w op)
  | 0x0C => some (.sMax w op)
  | 0x0D => some (.sMinu w op)
  | 0x0E => some (.sMaxu w op)
  | 0x10 => some (.sAddi w op)
  | 0x11 => some (.sAndi w op)
  | 0x12 => some (.sOri w op)
  | 0x13 => some (.sXori w op)
  | 0x14 => some (.sShli w op)
  | 0x15 => some (.sShri w op)
  | 0x16 => some (.sSrai w op)
  | 0x17 => some (.sMuli w op)
  | 0x18 => some (.sLi w op)
  | 0x19 => some (.sLix w op)
  | 0x20 => some (.sRdct w op)
  | 0x21 => some (.sRdjt w op)
  | 0x22 => some (.sRdcyc w op)
  | 0x23 => some (.sRdrep w op)
  | 0x24 => some (.sRdns w op)
  | 0x25 => some (.sClrns w op)
  | 0x26 => some (.sRdctx w op)
  | 0x30 => some (.cSet w op)
  | 0x31 => some (.cSeti w op)
  | 0x32 => some (.cStep w op)
  | 0x33 => some (.cRd w op)
  | _ => none

/-- The control instructions of S0 (R83). -/
def opcodeC (w : Iss) (op : BitVec 32) (opcode : Nat) : Option Instr :=
  match opcode with
  | 0x40 => some (.br w op)
  | 0x41 => some (.brC w op)
  | 0x42 => some (.brNc w op)
  | 0x43 => some (.brR w op)
  | 0x44 => some (.call w op)
  | 0x48 => some (.loop w op)
  | _ => none

/-- The task, replay, cache and speculation instructions of S0 (R98, R328). -/
def opcodeT (w : Iss) (op : BitVec 32) (opcode : Nat) : Option Instr :=
  match opcode with
  | 0x70 => some (.taskStart w op)
  | 0x71 => some (.taskEnd w op)
  | 0x72 => some (.replayWait w op)
  | 0x74 => some (.icachePreload w op)
  | 0x75 => some (.icacheLock w op)
  | 0x76 => some (.icacheUnlock w op)
  | 0x78 => some (.spOpen w op)
  | 0x79 => some (.confirm w op)
  | 0x7A => some (.squash w op)
  | 0x7B => some (.spTrain w op)
  | _ => none

/-- The M slot (R141, R168). -/
def opcodeM (w : Iss) (op : BitVec 32) (opcode : Nat) : Option Instr :=
  match opcode with
  | 0x01 => some (.mGang w op)
  | 0x02 => some (.mMask w op)
  | 0x03 => some (.mPass w op)
  | 0x04 => some (.mPassr w op)
  | 0x05 => some (.mFree w op)
  | 0x08 => some (.tmLd w op)
  | 0x09 => some (.tmSt w op)
  | 0x10 => some (.mvCfg w op)
  | 0x11 => some (.mvLdv w op)
  | 0x12 => some (.mvPass w op)
  | 0x13 => some (.mvFree w op)
  | _ => none

/-- The V slot (R229). -/
def opcodeV (w : Iss) (op : BitVec 32) (opcode : Nat) : Option Instr :=
  match opcode with
  | 0x01 => some (.vOp w op)
  | 0x02 => some (.vBld w op)
  | 0x03 => some (.vExt w op)
  | 0x04 => some (.vSeed w op)
  | 0x08 => some (.epRun w op)
  | _ => none

/-- The F slot (R306). -/
def opcodeF (w : Iss) (op : BitVec 32) (opcode : Nat) : Option Instr :=
  match opcode with
  | 0x01 => some (.fStart w op)
  | 0x02 => some (.fStop w op)
  | 0x03 => some (.fTake w op)
  | _ => none

/-- The X slot: windows, communication, waits and CMT.ARRIVE (R88, R250, R361, R376).  OP 3 of U.XFER is illegal. -/
def opcodeX (w : Iss) (op : BitVec 32) (opcode : Nat) : Option Instr :=
  match opcode with
  | 0x60 => some (.waitAt w op)
  | 0x61 => some (.waitQ w op)
  | 0x62 => some (.waitF w op)
  | 0x63 => some (.waitSb w op)
  | 0x64 => some (.cmtArrive w op)
  | 0x50 => some (.wOpen w op)
  | 0x51 => some (.wClose w op)
  | 0x52 => match op.extractLsb' 30 2 with
    | 0 => some (.put w op)
    | 1 => some (.putAdd w op)
    | 2 => some (.get w op)
    | _ => none
  | 0x53 => some (.xSig w op)
  | 0x54 => some (.xSigr w op)
  | 0x55 => some (.qSend w op)
  | 0x56 => some (.qPop w op)
  | 0x57 => some (.qSkip w op)
  | 0x58 => some (.qStat w op)
  | 0x59 => some (.qSstat w op)
  | _ => none

/-- The instructions that Adsiem-S adds (R103). -/
def opcodeP (w : Iss) (op : BitVec 32) (opcode : Nat) : Option Instr :=
  match opcode with
  | 0x80 => some (.sLd8 w op)
  | 0x81 => some (.sLd16 w op)
  | 0x82 => some (.sLd32 w op)
  | 0x83 => some (.sLd64 w op)
  | 0x84 => some (.sSt8 w op)
  | 0x85 => some (.sSt16 w op)
  | 0x86 => some (.sSt32 w op)
  | 0x87 => some (.sSt64 w op)
  | 0x88 => some (.sWfe w op)
  | 0x89 => some (.sRdcsr w op)
  | 0x8A => some (.sWrcsr w op)
  | 0x8B => some (.sEret w op)
  | _ => none

/-- The first table that has the opcode. -/
def firstOf (a b : Option Instr) : Option Instr := match a with | some i => some i | none => b

/-- The instruction of a 40-bit word: its opcode in bits [39:32] as the slot defines it, its operands in bits [31:0] (R74).  None where
the slot, or the profile, does not define the opcode (R76, R102). -/
def decodeSlot (w : Iss) (word : BitVec 40) : Option Instr :=
  let op := word.extractLsb' 0 32
  let opcode := (word.extractLsb' 32 8).toNat
  match w with
  | .slot _ _ p _ _ =>
    if opcode = 0 then some (.nop w op)
    else match p with
      | .s0 => firstOf (opcodeS w op opcode) (firstOf (opcodeC w op opcode) (opcodeT w op opcode))
      | .s1 => opcodeS w op opcode
      | .m => opcodeM w op opcode
      | .v => opcodeV w op opcode
      | .f => opcodeF w op opcode
      | .x => opcodeX w op opcode
  | .proc _ =>
    if opcode = 0 then some (.nop w op)
    else if opcode ∈ [0x23, 0x24, 0x25, 0x26] then none
    else firstOf (opcodeS w op opcode) (firstOf (opcodeC w op opcode) (opcodeP w op opcode))

/-- The command that a word spells by the table's bits: none, for the table gives no row bits. -/
def decodeTableWord (_nbits _w : Nat) : Option Instr := none

end Sys2Proof
end

