-- ==== Sys2Proof/Config.lean ====
section
/-! DEFINITION.
What the spec leaves open: free values, as constants without a body.  No proof can see what they are, so a
statement about one holds whatever it is.  The functions of a number are applied to `State.free`, which the
step advances, where a fresh value is meant. -/

namespace Sys2Proof.Config

/-- The activation functions between their stated special results: code and FP32 input to FP32 output (R221). DESIGN CHOICE,
log entry 13. -/
opaque act : Nat → W32 → W32
/-- What TRN leaves in a buffer of its pair, which it "overwrites" (R209): from its words, the elements it read and the buffer, so
that it is the same in every run (R382, R395).  DESIGN CHOICE, log entry 14. -/
opaque trnBuffer : W64 → W64 → Nat → List Nat → Nat → BitVec 32768
/-- The element that GATH chooses past the end of its stream: result ordinal and index (R208).  DESIGN CHOICE, log entry 15. -/
opaque gathPast : Nat → Nat → W32
/-- The refresh pattern (0 1x, 1 2x, else 4x) that a device's MR4 refresh-rate field requires, and whether the field
reports the high temperature limit exceeded: the field's coding is the device's (R502).  DESIGN CHOICE, log entry 80. -/
opaque mr4Pattern : Nat → Nat
opaque mr4Hot : Nat → Bool
/-- Where a WCK2DQ tracking moves a rank's timing: 0 stays, 1 one step on, else one step back (R505). DESIGN CHOICE, log entry
80. -/
opaque trackStep : Nat → Nat
/-- Groups of a bank that one DRAM row holds, less one: the device's geometry (R493).  DESIGN CHOICE, log entry 80. -/
opaque groupsPerRow : Nat
/-- The word of a burst that a link error is recorded against (R500).  DESIGN CHOICE, log entry 80. -/
opaque linkWord : Nat → Nat
/-- The report of a transmit offset by side traffic: its 256 bytes, in edge steps; the module number to which a link's reports
go; and the offset that a side flit reports, where it is a report. Its layout is not given (R435). DESIGN CHOICE, log entry
39. -/
opaque calBody : Int → BitVec 2048
opaque calDest : Nat → Nat
opaque calReport : BitVec 2048 → Option Int
/-- How many ct after a change of QUAL, counted by its number, the core on a position acts on the new value; the bound of
1,000 ct is imposed where it is used (R427).  DESIGN CHOICE, log entry 23. -/
opaque qualDelay : Nat → Nat → Nat
/-- Which transmit lane a link keeps when the neighbour reports LDEG: the report does not name the lane (R455). DESIGN CHOICE,
log entry 39. -/
opaque lostLane : Nat → Bool

/-- What TVAL holds after an interrupt entry, which the table of control registers does not say (R531, R534). DESIGN CHOICE,
log entry 46. -/
opaque interruptTval : Nat → W64
/-- CPID of a Keeper processor: the table gives numbers for the control processors only (R531).  DESIGN CHOICE, log entry 46. -/
opaque keeperCpid : Nat → W64

/-- Where a control processor image puts its code and its data in SRAM, and its entry, as functions of the flash slot's bytes:
"as the image declares it" (R564, R619).  DESIGN CHOICE, log entry 58. -/
opaque imageCode : List (Nat × Byte) → Nat → Option Byte
opaque imageData : List (Nat × Byte) → Nat → Option Byte
opaque imageEntry : List (Nat × Byte) → W32

/-- SHAKE256, cut to the bits asked for (FIPS 202).  DESIGN CHOICE, log entry 60. -/
opaque shake : List Byte → (bits : Nat) → Nat
/-- The event codes of the log, by the model's own numbers of the events the module logs (R557 gives no values). DESIGN
CHOICE, log entry 81. -/
opaque logCode : Nat → W16
/-- How long a core reset runs, in ct, by the number of the draw: within 10 µs (R624).  DESIGN CHOICE, log entry 123. -/
opaque resetTime : Nat → Nat

/-- The unique secret U, and the image-key and operator-key digests, in the fuses (R565, R568).  DESIGN CHOICE, log entry 60. -/
opaque secret : Key
opaque imageKey : BitVec 512
/-- Whether a signature over a message verifies: key 0 Svavon's, 1 the operator's (FIPS 205; R568, R569). DESIGN CHOICE, log
entry 60. -/
opaque verifies : Nat → List Byte → List Byte → Bool
/-- Whether the image of a flash slot has a good signature and DIGEST (R561), and the SHAKE256 digest of its body (R567).
DESIGN CHOICE, log entry 60. -/
opaque imageSigned : List (Nat × Byte) → Bool
opaque bodyDigest : List (Nat × Byte) → Nat
/-- Replies whose bytes standards outside the spec lay down: SPDM (by request, from the messages exchanged, the seeds of the
keys and the values reported), PLDM, MCTP and mailbox commands, the CDAT table (R524, R560, R566).  DESIGN CHOICE, log entry 61. -/
opaque spdmReply : Nat → List (List Byte) → List Nat → List Byte
opaque pldmReply : Nat → List Nat → List Byte
opaque mctpReply : List Byte → List Byte
opaque mailboxReply : Nat → List Nat → List Byte
opaque cdatReply : Nat → List Byte
/-- A configuration register outside the standard header, from what the host has written there (R510). DESIGN CHOICE, log
entry 61. -/
opaque cfgWord : Nat → W32 → W32
/-- The Vendor ID, fused identically into every module (R511).  DESIGN CHOICE, log entry 61. -/
opaque vendorId : W16
/-- What a register of the CXL component and device blocks reads as, by offset and the value last written (R528: CXL 3.1 lays
them out).  DESIGN CHOICE, log entry 61. -/
opaque cxlReg : Nat → W64 → W64

end Sys2Proof.Config
end

