-- ==== Sys2Proof/Machine/Tab.lean ====
section
/-! DEFINITION.
Sparse tables: the one container by which the state holds register files, memories and numbered
records.  A table lists pairs in rising key order; a key that is not listed reads as the table's
default.  `Tab.put` lists every key it writes; `Tab.store` is the canonical form of memories: a key
whose value is the default is not listed. -/

namespace Sys2Proof.Machine

/-- A sparse table, keys strictly rising. -/
abbrev Tab (α : Type) := List (Nat × α)

/-- The value at key `k`; `d` where `k` is not listed. -/
def Tab.get {α : Type} (d : α) : Tab α → Nat → α
  | [], _ => d
  | (j, v) :: r, k => if j = k then v else Tab.get d r k

/-- The value at key `k`, if listed. -/
def Tab.find {α : Type} : Tab α → Nat → Option α
  | [], _ => none
  | (j, v) :: r, k => if j = k then some v else Tab.find r k

/-- Writes `v` at key `k`. -/
def Tab.put {α : Type} : Tab α → Nat → α → Tab α
  | [], k, v => [(k, v)]
  | (j, w) :: r, k, v =>
    if j = k then (k, v) :: r
    else if k < j then (k, v) :: (j, w) :: r
    else (j, w) :: Tab.put r k v

/-- Takes key `k` out of the table. -/
def Tab.erase {α : Type} (t : Tab α) (k : Nat) : Tab α := t.filter (fun p => p.1 ≠ k)

/-- Writes `v` at key `k`, keeping the canonical form: the default is not listed. -/
def Tab.store {α : Type} [DecidableEq α] (d : α) (t : Tab α) (k : Nat) (v : α) : Tab α :=
  if v = d then t.erase k else t.put k v

/-- Takes every key of `[lo, lo + n)` out of the table. -/
def Tab.eraseRange {α : Type} (t : Tab α) (lo n : Nat) : Tab α :=
  t.filter (fun p => ¬ (lo ≤ p.1 ∧ p.1 < lo + n))

/-- Keys strictly rise from `lo` on, and no listed value is the default. -/
def Tab.wfFrom {α : Type} [DecidableEq α] (d : α) : Nat → Tab α → Bool
  | _, [] => true
  | lo, (j, v) :: r => decide (lo ≤ j) && decide (v ≠ d) && Tab.wfFrom d (j + 1) r

/-- The canonical form of a memory. -/
def Tab.wf {α : Type} [DecidableEq α] (d : α) (t : Tab α) : Bool := Tab.wfFrom d 0 t

/-- Little-endian reading of `n` bytes from address `a` (00, numbers: multi-byte values are little-endian). -/
def readLE (m : Tab Byte) (a : Nat) : Nat → Nat
  | 0 => 0
  | n + 1 => (Tab.get 0 m a).toNat + 256 * readLE m (a + 1) n

/-- Little-endian writing of the low `n` bytes of `v` from address `a`. -/
def writeLE (m : Tab Byte) (a : Nat) : Nat → Nat → Tab Byte
  | 0, _ => m
  | n + 1, v => writeLE (Tab.store 0 m a (BitVec.ofNat 8 v)) (a + 1) n (v / 256)

/-- The row of 512 bytes at byte address `a`. -/
def readRow (m : Tab Byte) (a : Nat) : Row := BitVec.ofNat 4096 (readLE m a 512)

/-- Writes a row of 512 bytes at byte address `a`. -/
def writeRow (m : Tab Byte) (a : Nat) (v : Row) : Tab Byte := writeLE m a 512 v.toNat

/-- Bits `[hi:lo]` of a word as a number. -/
def bits {w : Nat} (v : BitVec w) (hi lo : Nat) : Nat := (v.toNat >>> lo) % 2 ^ (hi + 1 - lo)

/-- One bit of a word. -/
def bit {w : Nat} (v : BitVec w) (i : Nat) : Bool := v.getLsbD i

/-- `v` with bits `[hi:lo]` set to `x`. -/
def setBits {w : Nat} (v : BitVec w) (hi lo x : Nat) : BitVec w :=
  let m : BitVec w := BitVec.ofNat w ((2 ^ (hi + 1 - lo) - 1) <<< lo)
  (v &&& ~~~m) ||| (BitVec.ofNat w (x <<< lo) &&& m)

/-- `v` with bit `i` set to `b`. -/
def setBit {w : Nat} (v : BitVec w) (i : Nat) (b : Bool) : BitVec w := setBits v i i b.toNat

/-- Two's complement reading of the low `n` bits of `v`. -/
def signed (n v : Nat) : Int :=
  let u := v % 2 ^ n
  if 2 * u < 2 ^ n then (u : Int) else (u : Int) - (2 ^ n : Nat)

/-- The low `n` bits of an integer, as a number. -/
def wrap (n : Nat) (x : Int) : Nat := (x % ((2 ^ n : Nat) : Int)).toNat

end Sys2Proof.Machine
end

