-- ==== Sys2Proof/Machine/Numbers.lean ====
section
/-! DEFINITION.
Number formats, exact arithmetic and rounding (spec 06).  A value is held exactly, as a signed fraction
of natural numbers, an infinity or NaN; every result is formed exactly and rounded once. -/

namespace Sys2Proof.Machine

/-- An exact value: `fin neg n d` is (−1)^neg · n / d, with signed zeros. -/
inductive Num where
  | nan
  | inf (neg : Bool)
  | fin (neg : Bool) (n d : Nat)
  deriving DecidableEq, Repr

/-- What special encodings a float format has (R170). -/
inductive Specials where
  | ieee | e4m3 | noSpecials
  deriving DecidableEq, Repr

/-- A floating-point element format (R170). -/
structure FloatFmt where
  eb : Nat
  mb : Nat
  bias : Nat
  sp : Specials
  deriving DecidableEq, Repr

/-- An element format: a float, or a two's complement integer of `w` bits whose unit is 2^−frac. -/
inductive Elem where
  | flt (f : FloatFmt)
  | int (w frac : Nat)
  deriving DecidableEq, Repr

/-- A format code's meaning: the element, and whether E8M0 block scales go with it (R112, R199). -/
structure Fmt where
  el : Elem
  mx : Bool
  deriving DecidableEq, Repr

def fp32 : FloatFmt := ⟨8, 23, 127, .ieee⟩
def bf16 : FloatFmt := ⟨8, 7, 127, .ieee⟩
def fp16 : FloatFmt := ⟨5, 10, 15, .ieee⟩
def e4m3 : FloatFmt := ⟨4, 3, 7, .e4m3⟩
def e5m2 : FloatFmt := ⟨5, 2, 15, .ieee⟩
def e2m3 : FloatFmt := ⟨2, 3, 1, .noSpecials⟩
def e3m2 : FloatFmt := ⟨3, 2, 3, .noSpecials⟩
def e2m1 : FloatFmt := ⟨2, 1, 1, .noSpecials⟩

/-- Format codes 0x00–0x11 (R112, R199); reserved codes have none. -/
def fmtOf : Nat → Option Fmt
  | 0x00 => some ⟨.flt e4m3, false⟩
  | 0x01 => some ⟨.flt e5m2, false⟩
  | 0x02 => some ⟨.flt e2m3, false⟩
  | 0x03 => some ⟨.flt e3m2, false⟩
  | 0x04 => some ⟨.flt e2m1, false⟩
  | 0x05 => some ⟨.int 8 0, false⟩
  | 0x06 => some ⟨.int 4 0, false⟩
  | 0x07 => some ⟨.flt bf16, false⟩
  | 0x08 => some ⟨.flt fp16, false⟩
  | 0x09 => some ⟨.flt e4m3, true⟩
  | 0x0A => some ⟨.flt e5m2, true⟩
  | 0x0B => some ⟨.flt e2m3, true⟩
  | 0x0C => some ⟨.flt e3m2, true⟩
  | 0x0D => some ⟨.flt e2m1, true⟩
  | 0x0E => some ⟨.int 8 6, true⟩
  | 0x10 => some ⟨.flt fp32, false⟩
  | 0x11 => some ⟨.int 32 0, false⟩
  | _ => none

/-- Element width in bits. -/
def Elem.width : Elem → Nat
  | .flt f => 1 + f.eb + f.mb
  | .int w _ => w

def Fmt.width (f : Fmt) : Nat := f.el.width

def Elem.isInt : Elem → Bool
  | .flt _ => false
  | .int _ _ => true

/-- The width of a format code, 0 where reserved. -/
def fmtWidth (c : Nat) : Nat := match fmtOf c with | some f => f.width | none => 0

/-- n · 2^e as a fraction. -/
def scaled (neg : Bool) (n : Nat) (e : Int) : Num :=
  match e with
  | .ofNat k => .fin neg (n * 2 ^ k) 1
  | .negSucc k => .fin neg n (2 ^ (k + 1))

/-- The value of a float element's bits (R170, R178). -/
def FloatFmt.decode (f : FloatFmt) (x : Nat) : Num :=
  let neg := x.testBit (f.eb + f.mb)
  let ex := (x >>> f.mb) % 2 ^ f.eb
  let m := x % 2 ^ f.mb
  if f.sp = .ieee ∧ ex = 2 ^ f.eb - 1 then (if m = 0 then .inf neg else .nan)
  else if f.sp = .e4m3 ∧ ex = 15 ∧ m = 7 then .nan
  else if ex = 0 then scaled neg m (1 - (f.bias : Int) - f.mb)
  else scaled neg (2 ^ f.mb + m) ((ex : Int) - f.bias - f.mb)

/-- The value of an integer as an exact number. -/
def ofInt (x : Int) (frac : Nat) : Num := .fin (decide (x < 0)) x.natAbs (2 ^ frac)

/-- The value of an element's bits, without a block scale (R170, R171, R174). -/
def Elem.decode (f : Elem) (x : Nat) : Num :=
  match f with
  | .flt g => g.decode x
  | .int w frac => ofInt (signed w x) frac

def Num.isNan : Num → Bool | .nan => true | _ => false
def Num.isInf : Num → Bool | .inf _ => true | _ => false
def Num.isZero : Num → Bool | .fin _ n _ => n == 0 | _ => false
def Num.neg? : Num → Bool | .nan => false | .inf s => s | .fin s _ _ => s

/-- Sign change. -/
def Num.negate : Num → Num
  | .nan => .nan
  | .inf s => .inf (!s)
  | .fin s n d => .fin (!s) n d

def Num.abs : Num → Num
  | .nan => .nan
  | .inf _ => .inf false
  | .fin _ n d => .fin false n d

/-- Exact sum: infinities and NaN under R179, zero signs under R183. -/
def Num.add : Num → Num → Num
  | .nan, _ => .nan
  | _, .nan => .nan
  | .inf a, .inf b => if a = b then .inf a else .nan
  | .inf a, .fin .. => .inf a
  | .fin .., .inf b => .inf b
  | .fin s n d, .fin s' n' d' =>
    let x := n * d'
    let y := n' * d
    if s = s' then .fin s (x + y) (d * d')
    else if x = y then .fin false 0 1
    else if y < x then .fin s (x - y) (d * d')
    else .fin s' (y - x) (d * d')

/-- Exact product (R177, R179). -/
def Num.mul : Num → Num → Num
  | .nan, _ => .nan
  | _, .nan => .nan
  | .inf a, .inf b => .inf (a != b)
  | .inf a, .fin b n _ => if n = 0 then .nan else .inf (a != b)
  | .fin b n _, .inf a => if n = 0 then .nan else .inf (a != b)
  | .fin s n d, .fin s' n' d' => .fin (s != s') (n * n') (d * d')

/-- Exact quotient of a value by a positive finite scale, or by a special scale (R185). -/
def Num.div : Num → Num → Num
  | .nan, _ => .nan
  | _, .nan => .nan
  | .inf _, .inf _ => .nan
  | .inf a, .fin b _ _ => .inf (a != b)
  | .fin b _ _, .inf a => .fin (a != b) 0 1
  | .fin s n d, .fin s' n' d' =>
    if n' = 0 then (if n = 0 then .nan else .inf (s != s')) else .fin (s != s') (n * d') (d * n')

/-- The ordering key of a finite or infinite value: less, equal or greater; NaN has none. -/
def Num.cmp : Num → Num → Option Ordering
  | .nan, _ => none
  | _, .nan => none
  | .inf a, .inf b => some (if a = b then .eq else if a then .lt else .gt)
  | .inf a, .fin .. => some (if a then .lt else .gt)
  | .fin .., .inf b => some (if b then .gt else .lt)
  | .fin s n d, .fin s' n' d' =>
    let x : Int := (if s then -1 else 1) * (n * d' : Nat)
    let y : Int := (if s' then -1 else 1) * (n' * d : Nat)
    some (if x < y then .lt else if x = y then .eq else .gt)

/-- a < b as MAX and MIN order them: −0 below +0 (R206). -/
def Num.below (a b : Num) : Bool :=
  match a.cmp b with
  | some .lt => true
  | some .eq => a.isZero && b.isZero && a.neg? && !b.neg?
  | _ => false

/-- MAX and MIN of two values; NaN if either is NaN (R206). -/
def Num.max (a b : Num) : Num := if a.isNan || b.isNan then .nan else if a.below b then b else a
def Num.min (a b : Num) : Num := if a.isNan || b.isNan then .nan else if b.below a then b else a

/-- Rounding modes of the numeric control field (R186): RND 2 and 3 differ only in the seed. -/
inductive Rnd where
  | nearest | toZero | stochastic
  deriving DecidableEq, Repr

/-- A numeric control: saturate on overflow, and the mode. -/
structure NC where
  ovf : Bool
  rnd : Rnd
  deriving DecidableEq, Repr

/-- Round to nearest, ties to even, overflow to infinity: the control of R220. -/
def NC.rne : NC := ⟨false, .nearest⟩

/-- The NC field's reading (R186). -/
def NC.ofField (x : Nat) : NC :=
  ⟨x.testBit 2, match x % 4 with | 0 => .nearest | 1 => .toZero | _ => .stochastic⟩

/-- The 24-bit random value of element `i` under seed `k` (R189). -/
def srRandom (k : W64) (i : Nat) : Nat :=
  let z0 : W64 := k + (BitVec.ofNat 64 i + 1) * 0x9E3779B97F4A7C15
  let z1 : W64 := (z0 ^^^ (z0 >>> 30)) * 0xBF58476D1CE4E5B9
  let z2 : W64 := (z1 ^^^ (z1 >>> 27)) * 0x94D049BB133111EB
  let z3 : W64 := z2 ^^^ (z2 >>> 31)
  (z3 >>> 40).toNat

/-- ⌊log2 (n / d)⌋ for n, d > 0. -/
def floorLog2 (n d : Nat) : Int :=
  let l : Int := (Nat.log2 n : Int) - Nat.log2 d
  let ge : Bool := match l with
    | .ofNat k => decide (d * 2 ^ k ≤ n)
    | .negSucc k => decide (d ≤ n * 2 ^ (k + 1))
  if ge then l else l - 1

/-- n / d in units of 2^q: a fraction. -/
def inUnits (n d : Nat) (q : Int) : Nat × Nat :=
  match q with
  | .ofNat k => (n, d * 2 ^ k)
  | .negSucc k => (n * 2 ^ (k + 1), d)

/-- Rounds the fraction N / D to a whole number (R187, R188); `r` is the element's random value. -/
def roundNat (m : Rnd) (r N D : Nat) : Nat :=
  let lo := N / D
  let rem := N % D
  match m with
  | .nearest => if 2 * rem < D then lo else if D < 2 * rem then lo + 1 else lo + lo % 2
  | .toZero => lo
  | .stochastic => if rem = 0 then lo else if 2 ^ 24 ≤ r + 2 ^ 24 * rem / D then lo + 1 else lo

/-- The flags of the sticky numeric status word (R192). -/
abbrev Flags := BitVec 5
def flagNAN : Flags := 1
def flagINF : Flags := 2
def flagSAT : Flags := 4
def flagUFZ : Flags := 8
def flagSRU : Flags := 16

/-- The bits of the largest finite magnitude. -/
def FloatFmt.maxBits (f : FloatFmt) : Nat :=
  match f.sp with
  | .ieee => (2 ^ f.eb - 2) * 2 ^ f.mb + (2 ^ f.mb - 1)
  | .e4m3 => 0x7E
  | .noSpecials => 2 ^ (f.eb + f.mb) - 1

/-- The bits of infinity, where the format has one. -/
def FloatFmt.infBits (f : FloatFmt) : Nat := (2 ^ f.eb - 1) * 2 ^ f.mb

/-- The canonical NaN, sign 0; formats without NaN give +0 (R178, R182). -/
def FloatFmt.nanBits (f : FloatFmt) : Nat :=
  match f.sp with
  | .ieee => if f.eb = 5 ∧ f.mb = 2 then 0x7F else f.infBits + 2 ^ (f.mb - 1)
  | .e4m3 => 0x7F
  | .noSpecials => 0

def FloatFmt.signBit (f : FloatFmt) (neg : Bool) : Nat := if neg then 2 ^ (f.eb + f.mb) else 0

/-- The largest finite magnitude as a number (R170). -/
def FloatFmt.maxVal (f : FloatFmt) : Num := f.decode f.maxBits

/-- Rounds an exact value into a float format (R180–R183, R187, R188): the bits and the flags. -/
def FloatFmt.encode (f : FloatFmt) (nc : NC) (r : Nat) (x : Num) : Nat × Flags :=
  match x with
  | .nan => (f.nanBits, flagNAN)
  | .inf s =>
    if f.sp = .ieee then (f.signBit s + f.infBits, 0)
    else (f.signBit s + f.maxBits, flagSAT)
  | .fin s n d =>
    if n = 0 then (f.signBit s, 0)
    else
      let q0 := floorLog2 n d - f.mb
      let smin : Int := 1 - (f.bias : Int) - f.mb
      let q := if q0 < smin then smin else q0
      let u := inUnits n d q
      let k := roundNat nc.rnd r u.1 u.2
      if k = 0 then (f.signBit s, flagUFZ)
      else
        let carry := decide (2 ^ (f.mb + 1) ≤ k)
        let k' := if carry then k / 2 else k
        let q' := if carry then q + 1 else q
        let b : Nat :=
          if k' < 2 ^ f.mb then k'
          else ((q' + f.mb + f.bias).toNat) * 2 ^ f.mb + (k' - 2 ^ f.mb)
        if f.maxBits < b then
          if f.sp = .ieee ∧ nc.ovf = false then (f.signBit s + f.infBits, flagINF)
          else (f.signBit s + f.maxBits, flagSAT)
        else (f.signBit s + b, 0)

/-- Rounds an exact value into an integer format, clamping (R181, R182, R185). -/
def encodeInt (w frac : Nat) (nc : NC) (r : Nat) (x : Num) : Nat × Flags :=
  let hi : Int := 2 ^ (w - 1) - 1
  let lo : Int := - 2 ^ (w - 1)
  match x with
  | .nan => (0, flagNAN)
  | .inf s => (wrap w (if s then lo else hi), flagSAT)
  | .fin s n d =>
    let k := roundNat nc.rnd r (n * 2 ^ frac) d
    let v : Int := if s then - (k : Int) else k
    if hi < v then (wrap w hi, flagSAT)
    else if v < lo then (wrap w lo, flagSAT)
    else (wrap w v, if k = 0 ∧ n ≠ 0 then flagUFZ else 0)

def Elem.encode (f : Elem) (nc : NC) (r : Nat) (x : Num) : Nat × Flags :=
  match f with
  | .flt g => g.encode nc r x
  | .int w frac => encodeInt w frac nc r x

/-- The value of an E8M0 scale code (R172). -/
def e8m0 (x : Nat) : Num := if x = 255 then .nan else scaled false 1 ((x : Int) - 127)

/-- An element under its block scale (R174, R175); bare formats have no scale. -/
def Fmt.decode (f : Fmt) (scale x : Nat) : Num :=
  if f.mx then (e8m0 scale).mul (f.el.decode x) else f.el.decode x

/-- Flags an operation sets from its inputs and its result (R192): NAN for a NaN input or result, INF
for an infinite result without an infinite input; `fl` are the flags of the rounding. -/
def opFlags (ins : List Num) (exact : Num) (fl : Flags) : Flags :=
  let nan : Flags := if ins.any Num.isNan || exact.isNan then flagNAN else 0
  let inf : Flags := if exact.isInf && !(ins.any Num.isInf) then flagINF else 0
  (fl ||| nan) ||| inf

/-- The FP32 word of an exact value, round to nearest even, overflow by `sat`. -/
def toFp32 (sat : Bool) (x : Num) : W32 × Flags :=
  let p := fp32.encode ⟨sat, .nearest⟩ 0 x
  (BitVec.ofNat 32 p.1, p.2)

/-- The value of an FP32 word. -/
def ofFp32 (x : W32) : Num := fp32.decode x.toNat

/-- One FP32 addition with a single rounding (R132, R137). -/
def addFp32 (sat : Bool) (a : W32) (x : Num) : W32 × Flags :=
  let e := (ofFp32 a).add x
  let p := toFp32 sat e
  (p.1, opFlags [ofFp32 a, x] e p.2)

/-- sat32 of R135: the clamped sum and whether it clamped. -/
def sat32 (x : Int) : W32 × Flags :=
  if (2 : Int) ^ 31 - 1 < x then (0x7FFFFFFF, flagSAT)
  else if x < - (2 : Int) ^ 31 then (0x80000000, flagSAT)
  else (BitVec.ofInt 32 x, 0)

/-- Bits `[off, off + w)` of a bit string held as a number. -/
def field (x off w : Nat) : Nat := (x >>> off) % 2 ^ w

end Sys2Proof.Machine
end

