-- ==== Sys2Proof/Machine/Activation.lean ====
section
/-! DEFINITION.
The activation functions of R221: their values to far beyond FP32's precision, in units of 2^−256, and the bound that the table sets
for the result. -/

namespace Sys2Proof.Machine

namespace Act

/-- One in units of 2^−256. -/
def one : Int := 2 ^ 256
def mulF (a b : Int) : Int := a * b / one
def divF (a b : Int) : Int := a * one / b

/-- t + t·s/q(0) + t·s²/(q(0)·q(1)) + …, n terms from the k-th on. -/
def products (s : Int) (q : Nat → Nat) : Nat → Nat → Int → Int
  | 0, _, _ => 0
  | n + 1, k, t => t + products s q n (k + 1) (mulF t s / (q k : Int))

/-- Σ p·s^j / (2(k + j) + 1), n terms. -/
def odds (s : Int) : Nat → Nat → Int → Int
  | 0, _, _ => 0
  | n + 1, k, p => p / (2 * (k : Int) + 1) + odds s n (k + 1) (mulF p s)

/-- Σ t^(2k + 1) / (2k + 1): the area tangent of t, |t| ≤ 1/3. -/
def artanh (t : Int) : Int := odds (mulF t t) 90 0 t
/-- Σ (−1)^k t^(2k + 1) / (2k + 1): the arc tangent of t, |t| ≤ 1/5. -/
def arctan (t : Int) : Int := odds (-(mulF t t)) 60 0 t

def ln2 : Int := 2 * artanh (one / 3)
def pi : Int := 16 * arctan (one / 5) - 4 * arctan (one / 239)

/-- The integer square root of a number below 2^800, bit by bit. -/
def sqrtNat (n : Nat) : Nat :=
  ((List.range 400).map (399 - ·)).foldl (fun r b => if (r + 2 ^ b) ^ 2 ≤ n then r + 2 ^ b else r) 0

/-- e^x. -/
def exp (x : Int) : Int :=
  let m := x / ln2
  let v := products (x - m * ln2) (· + 1) 70 0 one
  match m with
  | .ofNat k => v * 2 ^ k
  | .negSucc k => v / 2 ^ (k + 1)

/-- ln x for x > 0. -/
def ln (x : Int) : Int :=
  let e : Int := (Nat.log2 x.toNat : Int) - 256
  let f := match e with | .ofNat k => x / 2 ^ k | .negSucc k => x * 2 ^ (k + 1)
  e * ln2 + 2 * artanh (divF (f - one) (f + one))

/-- Φ(x) for |x| ≤ 16. -/
def normal (x : Int) : Int :=
  let a : Int := x.natAbs
  let s := products (mulF a a) (fun k => 2 * k + 3) 500 0 a
  let tail := divF (mulF (exp (-(mulF a a) / 2)) s) (sqrtNat (2 * pi * one).toNat)
  if x < 0 then one / 2 - tail else one / 2 + tail

def sigm (x : Int) : Int :=
  if x < -(100 * one) then 0 else if 100 * one < x then one else divF one (one + exp (-x))

/-- tanh x for x ≥ 0. -/
def tanh (x : Int) : Int := if 64 * one < x then one else let e := exp (2 * x); divF (e - one) (e + one)

/-- The value of the function with a code; where x is so large that a term has gone below 2^−60 of the result, without that term. -/
def value (code : Nat) (x : Int) : Int :=
  match code with
  | 0 => if x < -(140 * one) then 0 else exp x
  | 1 => ln x
  | 2 => divF one x
  | 3 => sqrtNat (2 ^ 768 / x.toNat)
  | 4 => if x < 0 then -(tanh (-x)) else tanh x
  | 5 => sigm x
  | 6 => if 16 * one < x then x else if x < -(16 * one) then 0 else mulF x (normal x)
  | 7 => mulF x (sigm x)
  | _ => if 100 * one < x then x else if x < -(100 * one) then 0 else ln (one + exp x)

/-- A finite number in units of 2^−256. -/
def units (neg : Bool) (n d : Nat) : Int := let v : Int := n * 2 ^ 256 / d; if neg then -v else v

/-- The least normal FP32 number, and the first number past the greatest. -/
def normMin : Nat := 2 ^ 130
def normEnd : Nat := 2 ^ 384

/-- How far a result may lie from the value `a` (R221): one or two ulp of it, or 2^−30 where that is stated and larger. -/
def bound (code : Nat) (a : Int) : Nat :=
  let ulp := 2 ^ (Nat.log2 (Nat.max a.natAbs normMin) - 23)
  Nat.max (if code < 4 then ulp else 2 * ulp) (if code < 5 then 0 else 2 ^ 226) + ulp / 2 ^ 30

/-- Whether `y` may be the result where the value is `a`: within the bound where it is a finite number of the normal range; no such
number only where the value is none. -/
def fits (code : Nat) (a : Int) (y : Num) : Bool :=
  match y with
  | .fin neg n d =>
    let v := units neg n d
    if normMin ≤ v.natAbs then decide ((v - a).natAbs ≤ bound code a) else decide (a.natAbs < normMin + bound code a)
  | _ => decide (normEnd ≤ a.natAbs + bound code a)

end Act

/-- The result of an activation function at a finite input where the table names no special result: free within the bound of R221
(DESIGN CHOICE, log entry 13). -/
def actFree (code : Nat) (x : W32) (neg : Bool) (n d : Nat) : W32 :=
  let a := Act.value code (Act.units neg n d)
  let y := Config.act code x
  if Act.fits code a (fp32.decode y.toNat) then y
  else BitVec.ofNat 32 (fp32.encode .rne 0 (.fin (decide (a < 0)) a.natAbs (2 ^ 256))).1

end Sys2Proof.Machine
end

