-- ==== Sys2Proof/Machine/RegTable.lean ====
section
/-! DEFINITION.
The register tables of the spec: for every family of registers its offset, stride and count within its block, and the masks
of its RW and W1C bits.  A bit in neither mask is read-only, write-only or reserved: a plain write leaves it (R9, R11), and
what a write-only field does is its register's own operation.  Registers whose writes have conditions are listed
here with the bits a plain write reaches before those conditions. -/

namespace Sys2Proof.Machine

/-- One family of registers: `n` registers at `lo`, `lo + stride`, …. -/
structure RegFam where
  lo : Nat
  stride : Nat
  n : Nat
  rw : Nat
  w1c : Nat
  deriving DecidableEq, Repr

/-- Whether the family has a register at offset `off`. -/
def RegFam.has (f : RegFam) (off : Nat) : Bool :=
  decide (f.lo ≤ off) && decide (off < f.lo + f.stride * f.n) && ((off - f.lo) % f.stride == 0)

def one (lo rw w1c : Nat) : RegFam := ⟨lo, 8, 1, rw, w1c⟩
/-- A read-only or write-only register. -/
def roReg (lo : Nat) : RegFam := one lo 0 0
/-- A saturating 48-bit counter with a W1C SAT bit at [63]. -/
def count48 (lo : Nat) : RegFam := one lo (2 ^ 48 - 1) (2 ^ 63)
/-- A saturating 32-bit counter with a W1C SAT bit at [32]. -/
def count32 (lo : Nat) : RegFam := one lo (2 ^ 32 - 1) (2 ^ 32)
/-- A saturating 16-bit counter with a W1C SAT bit at [16]. -/
def count16 (lo : Nat) : RegFam := one lo (2 ^ 16 - 1) (2 ^ 16)
/-- All 64 bits. -/
def allBits : Nat := 2 ^ 64 - 1

/-- The registers of a CORE block (R68, R142, R169, R197, R230, R271, R307, R328, R360, R380, R614). -/
def coreRegs : List RegFam :=
  [roReg 0x0000, roReg 0x0008, count48 0x0010, roReg 0x0018, roReg 0x0020, one 0x0028 0 (2 ^ 16),
   ⟨0x0100, 0x20, 4, 0, 0⟩, ⟨0x0108, 0x20, 4, 0, 0xF00⟩, ⟨0x0110, 0x20, 4, 0, 0⟩, ⟨0x0118, 0x20, 4, 0x103FF01FF, 2 ^ 63⟩,
   roReg 0x0400, count48 0x0408, count48 0x0410, roReg 0x0480, count48 0x0488, ⟨0x0500, 8, 4, 0, 0⟩, roReg 0x0580,
   count48 0x0588, ⟨0x0600, 8, 4, 0, 0⟩, roReg 0x0700, roReg 0x0708, count48 0x0710, ⟨0x0800, 0x20, 16, 0, 2 ^ 11⟩,
   ⟨0x0808, 0x20, 16, 0, 0⟩, ⟨0x0810, 0x20, 16, 0, 0⟩] ++
  [roReg 0x0A00, one 0x0A08 0 (2 ^ 63), count48 0x0A10, count48 0x0A18, count48 0x0B00, count48 0x0B08, roReg 0x0B10,
   one 0x0B18 0xFFFFFFFFFFFF (2 ^ 63), count32 0x0B20, one 0x0B28 0x3FF000C (2 ^ 26), ⟨0x0B40, 8, 4, allBits, 0⟩,
   ⟨0x0B60, 8, 4, 0, 0x30000⟩, ⟨0x0C00, 8, 16, 0, 0⟩, ⟨0x0D00, 8, 4, 0, 0⟩, ⟨0x0D20, 8, 4, 0, 0⟩, count48 0x0D40,
   one 0x0D48 0x7FFFFFFF (2 ^ 63), ⟨0x1000, 8, 1024, allBits, 0⟩, ⟨0x3000, 8, 1024, 0, 0⟩,
   ⟨0x5000, 0x10, 64, 0xFFFFFFFF80001FFF, 0⟩, ⟨0x5008, 0x10, 64, 0, 0⟩] ++
  [roReg 0x8000, count16 0x8008, count16 0x8010, roReg 0x8018, roReg 0x8020, count48 0x8028, count48 0x8030, count16 0x8038,
   roReg 0x8040, one 0x8048 0x800FFFFF 0, roReg 0x8050, roReg 0x8058, one 0x8060 0 0x70000, one 0x8068 0x3FFFFFFF (2 ^ 63),
   roReg 0x8070, one 0x8078 0 0x70000, ⟨0x8100, 8, 64, 0, 0⟩]

/-- MOD (R30, R391, R627). -/
def modRegs : List RegFam :=
  [roReg 0x0, one 0x8 1 0, one 0x10 0 2, roReg 0x18, one 0x20 0 1, one 0x28 0 (2 ^ 62), roReg 0x30, ⟨0x1000, 8, 288, 0x17F, 0⟩]

/-- KEEP (R572, R614). -/
def keepRegs : List RegFam :=
  [one 0x0 0 (3 * 2 ^ 62), roReg 0x8, roReg 0x10, one 0x18 0 allBits, one 0x20 allBits 0, one 0x28 allBits 0, roReg 0x30,
   one 0x38 0 (2 ^ 63), roReg 0x40, roReg 0x48, one 0x50 0x1FF 0, one 0x58 0xFFFFFFFF00000000 0, roReg 0x60, one 0x68 0 (2 ^ 63),
   ⟨0x100, 8, 8, 0x7CFFFFF, 2 ^ 30⟩, ⟨0x200, 0x10, 2, 0, 0⟩, ⟨0x208, 0x10, 2, 0, 0⟩, ⟨0x400, 8, 64, 0, 0⟩,
   ⟨0x1000, 8, 480, 0, 0⟩, ⟨0x80000, 8, 65536, 0, 0⟩]

/-- CLK (R428). -/
def clkRegs : List RegFam :=
  [roReg 0x0, one 0x8 0 (0xFC * 2 ^ 56), one 0x10 0x1FFFFFFFF 0, one 0x18 allBits 0, roReg 0x20, one 0x28 allBits 0,
   one 0x30 3 (2 ^ 63), one 0x38 allBits 0, one 0x40 allBits 0, one 0x48 allBits 0, one 0x50 3 0, ⟨0x10000, 8, 662, 0, 2 ^ 63⟩,
   ⟨0x20000, 8, 662, 2 ^ 48 - 1, 2 ^ 63⟩]

/-- PWR (R593). -/
def pwrRegs : List RegFam :=
  [one 0x0 0x7F 0, one 0x8 0 (2 ^ 63), roReg 0x10, ⟨0x100, 0x20, 4, 0x3FFFF, 0⟩, ⟨0x108, 0x20, 4, 2 ^ 48 - 1, 2 ^ 63⟩,
   ⟨0x110, 0x20, 4, 0, 0⟩, ⟨0x118, 0x20, 4, 0, 0⟩, ⟨0x10000, 0x10, 320, 0xFF78, 0⟩, ⟨0x10008, 0x10, 320, 0, 3 * 2 ^ 62⟩,
   ⟨0x20000, 8, 320, allBits, 0⟩]

/-- EVC and CP (R545); the SRAM window of a CP block is at 0x8000. -/
def evcRegs : List RegFam := [one 0x0 1 0, roReg 0x8, ⟨0x1000, 8, 1023, 0xFF, 0x100⟩, ⟨0x4000, 8, 4, 0, 2 ^ 63⟩]
def cpRegs : List RegFam := [roReg 0x0, one 0x8 0 (2 ^ 63), one 0x10 0x1F 0, ⟨0x8000, 8, 4096, allBits, 0⟩]

/-- CELL (R508). -/
def cellRegs : List RegFam :=
  [one 0x0 0xFFF (2 ^ 63), one 0x8 0 0xF8, roReg 0x10, roReg 0x18, roReg 0x20, roReg 0x28, ⟨0x1000, 8, 12, 0, 3 * 2 ^ 62⟩,
   ⟨0x2000, 8, 384, 2 ^ 32 - 1, 2 ^ 32⟩]

/-- CANO of link `k` (R457). -/
def canoRegs (k : Nat) : List RegFam :=
  [one 0x0 1 0, roReg 0x8, roReg 0x10, ⟨0x20, 8, 7, 2 ^ 32 - 1, 2 ^ 32⟩, roReg 0x58] ++
  (if k = 0 then [one 0xF00 0x1FFFF 0, one 0xF08 0 4, one 0xF10 0xFFFF 0, roReg 0xF18] else []) ++
  (if k = 0 ∨ k = 12 then
    [⟨0x1000, 0x20, 16, 0x80000003FFFFFFFF, 0⟩, ⟨0x1008, 0x20, 16, 2 ^ 63 - 1, 0⟩, ⟨0x1010, 0x20, 16, 0x2FFFF, 0x80000⟩,
     ⟨0x1018, 0x20, 16, allBits, 0⟩] else []) ++
  [⟨0x8000, 8, 2048, allBits, 0⟩] ++ (if k < 16 then [⟨0xC000, 8, 2048, 0x3F3F3F3F3F3F3F3F, 0⟩] else [])

/-- CRU W, and CRU E whose block has only its own registers (R490). -/
def cruOwn : List RegFam := [one 0x0 0 0x10000, one 0x8 0 0xF, count32 0x10, ⟨0x10000, 8, 8192, allBits, 0⟩]
def cruRegs : List RegFam :=
  cruOwn ++
  [⟨0x100, 8, 24, 0xFFFF, 0x30000⟩, roReg 0x40000, one 0x40008 0 (7 * 2 ^ 61), roReg 0x40010, roReg 0x40018, roReg 0x40020,
   one 0x40028 0xFFFFFF03FFFF 0, one 0x40030 allBits 0, one 0x40038 allBits 0, one 0x40040 0x7FF 0, roReg 0x40048, roReg 0x40050,
   ⟨0x60000, 0x20, 4096, 0x8FC3FFFFFFFFFFFF, 0⟩, ⟨0x60008, 0x20, 4096, 0x3FFFFFFFFFFFF, 0⟩,
   ⟨0x60010, 0x20, 4096, 0x3FFFFFFFFFFFF, 0⟩, ⟨0x60018, 0x20, 4096, 0xFFFFFFFFFF, 0⟩]

/-- CXLP (R528); the MSI-X table has an address and a data and mask word for each of 64 vectors. -/
def cxlpRegs : List RegFam :=
  [roReg 0x0, roReg 0x8, roReg 0x10, one 0x18 0xFFFFFFFF 0, roReg 0x20, ⟨0x100, 0x20, 8, 0x8000000000000FFF, 0⟩,
   ⟨0x108, 0x20, 8, 0, 3 * 2 ^ 62⟩, ⟨0x110, 0x20, 8, 0, 0⟩, ⟨0x118, 0x20, 8, 2 ^ 48 - 1, 2 ^ 63⟩, ⟨0x1000, 0x10, 64, allBits - 3, 0⟩,
   ⟨0x1008, 0x10, 64, 2 ^ 33 - 1, 0⟩, roReg 0x2000, ⟨0x10000, 8, 16384, allBits, 0⟩, ⟨0x80000, 8, 65536, allBits, 0⟩]

/-- SVC (R545). -/
def svcRegs : List RegFam :=
  [roReg 0x0, ⟨0x100, 0x10, 19, 0xFFFFFFFF0000, 0⟩, ⟨0x108, 0x10, 19, 2 ^ 48 - 1, 2 ^ 63⟩]

/-- The family of a list that holds the register at `off`. -/
def famOf (l : List RegFam) (off : Nat) : Option RegFam := l.find? (fun f => f.has off)

/-- What a plain write does to a register's stored value (R9, R11): RW bits take the written value, a 1 clears a
W1C bit, every other bit keeps.  `mask` holds the bits the access reaches (R29), `kept` those that an event has set in the same
cycle, which end set (R13). -/
def RegFam.write (f : RegFam) (old v mask kept : W64) : W64 :=
  let rw : W64 := BitVec.ofNat 64 f.rw &&& mask
  let w1c : W64 := BitVec.ofNat 64 f.w1c &&& mask &&& ~~~kept
  ((old &&& ~~~rw) ||| (v &&& rw)) &&& ~~~(w1c &&& v)

end Sys2Proof.Machine
end

