-- ==== Sys2Proof/Machine/State.lean ====
section
/-! DEFINITION.
The state of the Z8 module as plain data: every register, queue, buffer, counter, mode and pin the spec
names.  Registers of the register space live in sparse tables keyed by their offset; a register that is
not listed holds its reset value (`Machine/RegTable.lean`).  Cycles and canopy times are counted in `Nat`. -/

namespace Sys2Proof.Machine

/-! ### The core: contexts and issue (spec 02, 03) -/

/-- A comparator: two operands and a condition code (R82). -/
structure Cmp where
  a : W64
  b : W64
  cc : BitVec 3
  deriving DecidableEq, Repr

/-- The body of a hardware loop (R84). -/
structure LoopRec where
  start : W32
  last : W32
  deriving DecidableEq, Repr

/-- What a descheduled context waits for (CORE.CTXn.STAT.WAIT, R68); a miss with the cycle in which it fell. -/
inductive Wait where
  | at (target : Nat)
  | queue (sel n : Nat)
  | flag (clr : Bool) (f : Nat)
  | region (tiles : Bool) (first len : Nat)
  | replay
  | miss (line since : Nat)
  | lock (lines : List Nat)
  | confirm (tag rd : Nat)
  deriving DecidableEq, Repr

/-- Where a context stands (R35–R40, R54–R57).  `ending` is step 2 of R54: the task has stopped issuing and
its clear has not begun; `abort` tells an END command or a fault from TASK.END. -/
inductive CtxMode where
  | noTask
  | opening (until_ : Nat) (endAfter : Bool)
  | closing (until_ : Nat)
  | ready (since : Nat)
  | running
  | waiting (w : Wait)
  | ending (abort : Bool)
  deriving DecidableEq, Repr

/-- One speculation tag of a context (R309): state 0 idle, 1 open, 2 confirming, 3 squashing; the extent, the
key and the prediction recorded by SP.OPEN, the rows written under it, the flags held apart (R195), CONFIRM's
result register, and the cycle at which a confirmation in its renames completes. -/
structure Tag where
  st : Nat := 0
  sb : Nat := 0
  tb : Nat := 0
  nr : Nat := 0
  key : W32 := 0
  pred : W16 := 0
  written : List Nat := []
  held : Flags := 0
  rd : Nat := 0
  done : Nat := 0
  deriving DecidableEq, Repr

/-- Per-context state (R46) and what the issue stage keeps for the context.  Parameter registers, the replay
counter and the sticky numeric status word live in the core's register table.  `late r` is the cycle from
which scalar register r may be read (R80); `after` is a second unmet wait of the bundle that descheduled the context, taken
up when the first is met; `gather` holds the slots of a bundle still being put together, `gone` those of its slots that have
issued ahead of one that waits for their unit (log entry 114). -/
structure Ctx where
  s : Tab W64 := []
  c : Tab W32 := []
  cmp : Tab Cmp := []
  loops : Tab LoopRec := []
  pc : W32 := 0
  last : W32 := 0
  timed : Bool := false
  fresh : Bool := true
  late : Tab Nat := []
  mode : CtxMode := .noTask
  faulted : Bool := false
  arrived : Bool := false
  tags : Tab Tag := []
  after : Option Wait := none
  gather : List Instr := []
  gone : List Slot := []
  deriving DecidableEq, Repr

/-- Where the issue stage stands (R35–R44): no context has run since reset; a context runs; a switch whose sample falls in
`sample`; gated; or waking from gating, sampling in `sample`. -/
inductive Phase where
  | idle
  | running (n : Nat)
  | switching (n sample : Nat)
  | gated
  | waking (sample : Nat)
  deriving DecidableEq, Repr

/-- A unit that owns a scoreboard entry (R61). -/
inductive SbUnit where
  | array (base : Nat) | tile | mvp | svu | epilogue | transfer | confirm
  deriving DecidableEq, Repr

/-- A scoreboard entry (R61). `tiles` tells accumulator tiles from home-slice rows. -/
structure SbEntry where
  id : Nat
  tiles : Bool
  first : Nat
  len : Nat
  ctx : Nat
  unit : SbUnit
  tag : Nat
  deriving DecidableEq, Repr

/-- A line held by the instruction cache (R63): its line number, lock, and last use. -/
structure CacheLine where
  line : Nat
  locked : Bool
  used : Nat
  deriving DecidableEq, Repr

/-- A line being filled: for a missing context, for a lock, or in the background. -/
structure Fill where
  line : Nat
  since : Nat
  lock : Bool
  ctx : Nat
  credit : Bool
  deriving DecidableEq, Repr

/-! ### The units of a core (spec 04, 05, 07) -/

/-- A row present in, or entering, a Forager queue at the end of cycle `at_` (R285, R287); `used` where a unit takes it in the
present cycle, at whose end it leaves the queue. -/
structure QRow where
  row : Row
  tag : Nat
  at_ : Nat
  used : Bool := false
  deriving DecidableEq, Repr

/-- A Forager queue (R287, R288). -/
structure FQueue where
  rows : List QRow := []
  resv : Nat := 0
  owner : Option Nat := none
  deriving DecidableEq, Repr

/-- A pass of a gang (R118, R120, R121): what it was issued with, its first accumulate cycle, the accumulate cycles done, the
hold cycles so far, whether it held in the cycle before, the rows of its present block and the scale rows it has read, and
how many rows of each queue it has taken. -/
structure Pass where
  tiles : List Nat
  k : Nat
  qa : Nat
  qb : Nat
  add : Bool
  rows : Nat
  cols : Nat
  tag : Nat
  issued : Nat
  bundle : W32
  entry : Nat
  first : Nat := 0
  done : Nat := 0
  holds : Nat := 0
  hold : Bool := false
  stA : List Row := []
  stB : List Row := []
  scA : Row := 0
  scB : Row := 0
  popA : Nat := 0
  popB : Nat := 0
  flags : Flags := 0
  deriving DecidableEq, Repr

/-- A drain in progress (R106, R121): its pass, the cycle σ of its swap, and the drain registers, keyed by 256·i + j. -/
structure Drain where
  pass : Pass
  swap : Nat
  cells : Tab W32
  deriving DecidableEq, Repr

/-- A gang (R107–R109, R125): `live` is the cells' live registers (R106), keyed by 256·i + j; `drn` the drains whose last
columns are not yet written, oldest first; `swap` the cycle of the last swap. -/
structure Gang where
  shape : Nat
  fmtA : Nat
  fmtB : Nat
  sat : Bool
  rows : Nat
  cols : Nat
  ctx : Nat
  acc : Option Pass := none
  pend : Option Pass := none
  drn : List Drain := []
  swap : Option Nat := none
  live : Tab W32 := []
  deriving DecidableEq, Repr

/-- A tile move in progress (R150): `got` holds the rows read and not yet written. -/
structure TileMove where
  ld : Bool
  row : Nat
  tile : Nat
  nt : Nat
  ctx : Nat
  tag : Nat
  issued : Nat
  entry : Nat
  got : List Row := []
  deriving DecidableEq, Repr

/-- The owned tiles still to be cleared (R57), lowest first, the cycle from which the clear runs, and the
rushed tiles with the cycles in which their stalls began (R58). -/
structure TileClear where
  todo : List Nat := []
  from_ : Nat := 0
  rush : List (Nat × Nat) := []
  deriving DecidableEq, Repr

/-- A vector buffer slot (R157, R158). -/
structure VSlot where
  loaded : Bool := false
  fmt : Nat := 0
  k : Nat := 0
  tag : Nat := 0
  deriving DecidableEq, Repr

/-- An MV.LDV in progress: the rows consumed, its hold cycles, whether it held in the cycle before. -/
structure VLoad where
  q : Nat
  s : Nat
  c : Nat
  ctx : Nat
  tag : Nat
  issued : Nat
  got : List Row := []
  holds : Nat := 0
  hold : Bool := false
  bundle : W32
  deriving DecidableEq, Repr

/-- An MV.PASS in progress: the next output block to be written, the flags raised so far, the weight rows read of the blocks
still to be written, and the vector buffer as it stood at issue, which no load changes while the pass reads (R159). -/
structure VPass where
  wrow : Nat
  tile : Nat
  nb : Nat
  add : Bool
  ctx : Nat
  tag : Nat
  issued : Nat
  entry : Nat
  block : Nat := 0
  flags : Flags := 0
  bundle : W32
  rows : List Row := []
  slots : Tab VSlot := []
  buf : Tab Row := []
  deriving DecidableEq, Repr

/-- The matrix-vector path (R154–R159): claim, configuration, slots, vector buffer rows (slot·33 + row, row 32
the scales), operations in progress, and the end of the clear of R155. -/
structure Mvp where
  claim : Option Nat := none
  fmtW : Nat := 0
  fmtV : Nat := 0
  k : Nat := 0
  v0 : Nat := 0
  nv : Nat := 0
  ports : Nat := 0
  sat : Bool := false
  slots : Tab VSlot := []
  buf : Tab Row := []
  load : Option VLoad := none
  passes : List VPass := []
  clearEnd : Option Nat := none
  nextPass : Nat := 0
  deriving DecidableEq, Repr

/-- A V.OP in progress (R202): all it read at issue; the rows it has taken from the queue of each source, or the element codes
it has read of a source in tiles or a buffer; its hold cycles, and whether it held in the cycle before. -/
structure SvuOp where
  func : Nat
  desc : W64
  scalar : W32
  len : W64
  seed : W64
  ctx : Nat
  tag : Nat
  issued : Nat
  entry : Option Nat
  bundle : W32
  inA : List Row := []
  inB : List Row := []
  elA : List Nat := []
  elB : List Nat := []
  holds : Nat := 0
  hold : Bool := false
  sru : Bool := false
  deriving DecidableEq, Repr

/-- A V.BLD in progress (R213): the rows consumed or read, its hold cycles, whether it held in the cycle before. -/
structure BufLoad where
  buf : Nat
  src : Nat
  tile : Nat
  ctx : Nat
  tag : Nat
  issued : Nat
  got : Nat := 0
  row : Option Row := none
  holds : Nat := 0
  hold : Bool := false
  bundle : W32
  deriving DecidableEq, Repr

/-- A tile buffer: 4 KiB, owner and tag (R213). -/
structure TBuf where
  data : BitVec 32768 := 0
  owner : Option Nat := none
  tag : Nat := 0
  deriving DecidableEq, Repr

/-- An EP.RUN in progress (R216–R226): the words it read at issue; the tile words read through port E; the bias codes of each
BIAS stage, by its place in the chain; the residual rows of each RESID stage, in order; its hold cycles, and whether the chain
held in the cycle before. -/
structure EpOp where
  chain : W64
  desc : W64
  aux : W64
  seed : W64
  ctx : Nat
  tag : Nat
  issued : Nat
  entry : Nat
  bundle : W32
  words : List W32 := []
  bias : Tab (List Nat) := []
  got : Tab (List Row) := []
  holds : Nat := 0
  hold : Bool := false
  sru : Bool := false
  deriving DecidableEq, Repr

/-! ### The Forager (spec 09) -/

/-- A stream (R273–R281). State codes as CORE.STRs.STAT.STATE. `from_` is the first cycle in which its next row operation may
be granted, `doneAt` the one from which every home-slice read granted has completed; `open_` counts operations that have not
completed at their destination, `uncommitted` Cellar and host writes not committed; `id` tells the stream from others that
have held its slot, `heldAt` is the cycle in which its operation last found no grant; action 32 means that every operation is
granted; `hrow` is the host window row of a halt. -/
structure Stream where
  st : Nat
  ctx : Nat
  tag : Nat
  prow : Nat
  half : Bool
  a0 : W64
  a1 : W64
  from_ : Nat
  words : List W64 := []
  idx : List Nat := [0, 0, 0, 0, 0]
  action : Nat := 0
  m : Nat := 0
  reason : Nat := 0
  chan : Nat := 0
  open_ : Nat := 0
  uncommitted : Nat := 0
  doneAt : Nat := 0
  hrow : Nat := 0
  id : Nat := 0
  heldAt : Nat := 0
  deriving DecidableEq, Repr

/-- Where a read-queue row goes: a Forager queue or a home-slice row. -/
inductive RqDest where
  | fq (q : Nat)
  | home (row : Nat)
  deriving DecidableEq, Repr

/-- What a read-queue entry reads: a Cellar row or a host window row of a channel. -/
inductive RqSrc where
  | cellar (row : Nat)
  | host (chan row : Nat)
  deriving DecidableEq, Repr

/-- A read-queue entry (R291, R292): the row once landed, or an error in its place. -/
structure RqEntry where
  id : Nat
  src : RqSrc
  dest : RqDest
  tok : Bool
  stream : Nat
  ctx : Nat
  tag : Nat
  since : Nat
  row : Option Row := none
  err : Bool := false
  dead : Bool := false
  deriving DecidableEq, Repr

/-- A Cellar read queue and its token counter (R291–R293); `gone` counts the entries delivered in a cycle, which free at its
end. -/
structure RQueue where
  entries : List RqEntry := []
  tokens : Nat := 0
  gone : Nat × Nat := (0, 0)
  deriving DecidableEq, Repr

/-- A write-queue entry (R294): its row stands in it from the end of cycle `at_` (R285); `stream` is the identity of its stream;
`ready` once the host has completed a host write. -/
structure WqEntry where
  id : Nat
  row : Row
  dest : RqSrc
  slot : Nat
  stream : Nat
  ctx : Nat
  ready : Bool
  at_ : Nat
  deriving DecidableEq, Repr

/-- A home-slice write that a stream or a returning GET row still has to make through the write port (R240). -/
structure FWrite where
  row : Nat
  data : Row
  tag : Nat
  ctx : Nat
  stream : Option Nat
  op : Option Nat
  deriving DecidableEq, Repr

/-- A row that a host channel has issued (R517): the core, slot and stream it serves, the stream's position, the host window
row and host address, the queue entry it fills or drains, the eight lines of a read (those received) or of a write
(those to be sent, with which are complete), and its issue time. -/
structure HRow where
  id : Nat
  core : Nat
  slot : Nat
  stream : Nat
  write : Bool
  w : Nat
  pa : Nat
  queue : Nat
  entry : Nat
  idx : List Nat
  action : Nat
  m : Nat
  data : Row
  lines : List Nat
  since : Nat
  deriving DecidableEq, Repr

/-! ### The Understory (spec 08, 11, 13) -/

/-- An operation awaiting status at its issuing core (R342): kind 0 PUT, 1 PUT.ADD, 2 GET, 3 Q.SEND; a send is `counted` in
SSTAT.OUT until its binding is rewritten (R349). -/
structure XferOp where
  id : Nat
  ctx : Nat
  kind : Nat
  n : Nat
  bind : Nat
  srow : Nat
  got : Nat
  deadline : Nat
  entry : Option Nat
  tcore : Nat
  counted : Bool := true
  deriving DecidableEq, Repr

/-- What a remote access asks of a slice: read, write or add-write (REFUSEAT.OP), a copy-engine row, or a write of `n` bits from bit
`off` on of a row, whose other bits stay. -/
inductive AccKind where
  | read | write | add | copy | part (off n : Nat)
  deriving DecidableEq, Repr

/-- Who sent a remote access, and how its status returns: an operation of a core; a row received by a link of an Edge die; an
access of an Edge die's own units, with the number of the job; the copy engine of a slice. -/
inductive Origin where
  | core (core ctx op : Nat)
  | edge (code link : Nat)
  | die (e job : Nat)
  | copy (core : Nat)
  deriving DecidableEq, Repr

/-- An Understory access at a slice (R243): row m of n, its source code (REFUSEAT.SOURCE), the flag to set. -/
structure Access where
  kind : AccKind
  row : Nat
  data : Row
  src : Nat
  origin : Origin
  m : Nat
  n : Nat
  sig : Option Nat
  deriving DecidableEq, Repr

/-- What the rows of a transfer do at the target: write or add-write slice rows from `row` on, form a message of `ns` slots, or ask
for slice rows from `row` on. -/
inductive Sending where
  | reads (row src : Nat)
  | rows (kind : AccKind) (row src : Nat) (sig : Option Nat)
  | msg (queue : Nat) (epoch : W32) (ns : Nat)
  deriving DecidableEq, Repr

/-- A transfer whose rows are being sent (R336–R338): the read port it holds, as a mask, its issue cycle, its local
rows, its context, its target and what its rows do there.  Cycles in which a full crossing stalls it move `issued` on (R411). -/
structure Send where
  port : Nat
  issued : Nat
  n : Nat
  srow : Nat
  ctx : Nat
  target : Nat
  origin : Origin
  what : Sending
  deriving DecidableEq, Repr

/-- The record a target keeps of an operation (R337, R339): rows resolved, the lowest row refused and its reason,
the cycle of the last arrival. -/
structure OpRecord where
  id : Nat
  origin : Origin
  n : Nat
  seen : Nat
  reason : Nat
  badRow : Nat
  last : Nat
  sig : Option Nat
  deriving DecidableEq, Repr

/-- A remote window with its ordered sequencer (R246, R383–R387). -/
structure Win where
  owner : Nat
  desc : W64
  turn : Nat := 0
  apply : List Access := []
  deriving DecidableEq, Repr

/-- A message in a waggle queue, or a pad marker: first slot, slots, bytes as a number, visible from (R351). -/
structure Msg where
  at_ : Nat
  ns : Nat
  data : Nat
  pad : Bool
  from_ : Nat
  deriving DecidableEq, Repr

/-- A waggle queue (R347–R354): the cursor counts words; `freed` lists slots with the cycle that freed them, which a
judgement in the same cycle still counts as held (R355). -/
structure WaggleQ where
  tail : Nat := 0
  cursor : Nat := 0
  epoch : W32 := 0
  msgs : List Msg := []
  freed : List (Nat × Nat × Nat) := []
  deriving DecidableEq, Repr

/-- The slice copy engine (R268): target core, next row. -/
structure Copy where
  target : Nat
  row : Nat
  flying : Nat
  deriving DecidableEq, Repr

/-! ### Power and fencing of a core (spec 21, 22) -/

/-- Power states of a core (R573–R581): entries end at an instant in ct; a wake is at a step. -/
inductive Power where
  | run
  | napEntry (until_ : Nat) | nap
  | deepEntry (until_ : Nat) | deep
  | waking (deep : Bool) (step : Nat) (source : Nat)
  deriving DecidableEq, Repr

/-- What the fuses say of a position (R16). -/
inductive Fuse where
  | active | spare | off
  deriving DecidableEq, Repr

/-- One physical core with its slice, router and waggle store. `regs` is its CORE block, keyed by offset. `hout` holds rows
for the host that enter their write queue at the end of a cycle, with their channel; `flagMark` a cycle, the sync flags at its
start, and those set in it; `array` is none while the slice arrays are active, some 0 in retention, else the time at which
they are ready (R578); `wakeDue` the source and time of a wake to come; `wakeAt` the start of a wake's present step; `gateAt`
the time of a GATE whose Deep entry has not begun, `wipeAt` the cycle in which the wipe of a RETURN ends; `resetEnd` the
canopy time at which the last core reset ends; `budStall` the first cycle of the window for which a bundle stalled by the
budget waits. -/
structure Core where
  regs : Tab W64 := []
  ctx : Tab Ctx := []
  phase : Phase := .idle
  lastRun : Nat := 3
  nextIssue : Nat := 0
  sb : List SbEntry := []
  nextId : Nat := 0
  icache : Tab CacheLine := []
  fills : List Fill := []
  stamp : Nat := 0
  gangs : Tab Gang := []
  tiles : Tab W32 := []
  tileTag : Tab Nat := []
  move : Option TileMove := none
  clear : TileClear := {}
  mvp : Mvp := {}
  svu : Option SvuOp := none
  svuTail : List SvuOp := []
  bld : Option BufLoad := none
  bufs : Tab TBuf := []
  ep : Option EpOp := none
  epTail : List EpOp := []
  wport : Option (SbUnit × Nat) := none
  sends : List Send := []
  portFree : Nat := 0
  fq : Tab FQueue := []
  streams : Tab Stream := []
  rq : Tab RQueue := []
  wq : Tab (List WqEntry) := []
  fwrites : List FWrite := []
  fwNext : Nat := 0
  hout : List (Nat × Nat × HRow) := []
  bankUse : Nat × List Nat := (0, [])
  rport : Nat := 0
  portBank : Nat × Nat := (0, 16)
  winsWas : Nat × Bool × Tab Win := (0, false, [])
  seqNext : Tab Nat := []
  scrubbing : Option Nat := none
  flagMark : Nat × W64 × W64 := (0, 0, 0)
  grants : List Nat := []
  grantCycle : Nat := 0
  xfers : List XferOp := []
  rbuf : List Access := []
  records : List OpRecord := []
  wins : Tab Win := []
  hold : List (Nat × Access) := []
  waggle : Tab WaggleQ := []
  rowMap : Tab Nat := []
  spareUsed : Tab (List Nat) := []
  dead : List Nat := []
  defects : Tab Bool := []
  rewrites : List Nat := []
  scrubAt : Nat := 0
  repair : Option Nat := none
  copy : Option Copy := none
  fuse : Fuse := .active
  power : Power := .run
  wakeAt : Nat := 0
  heldStart : List (Nat × W32) := []
  array : Option Nat := none
  wakeDue : Option (Nat × Nat) := none
  budStall : Option Nat := none
  gateAt : Option Nat := none
  wipeAt : Option Nat := none
  resetEnd : Nat := 0
  wcount : Tab Nat := []
  deriving DecidableEq, Repr

/-! ### Time (spec 14) -/

/-- A glade: the lag λ of its last edge in edge steps, the droop level raised on it, the level at which it stretches the
period it is in, the consecutive edges with lag, whether the condition of R407 holds, whether it has arisen and LAG has not
been raised for it, whether REPAY_MAX takes effect as 1 after a wake (R408), and the target edges that have come and whose
actual edges have not. -/
structure Glade where
  lam : Nat := 0
  alarm : Nat := 0
  str : Nat := 0
  run : Nat := 0
  now : Bool := false
  due : Bool := false
  slow : Bool := false
  behind : Nat := 0
  deriving DecidableEq, Repr

/-- The time unit (R416, R420–R426): the time of the OPREQ write; whether HALL_REF is good; the offset of the phase
reference in edge steps, once known in this acquisition; whether its step has been taken; the time from which the offset
has stayed in band; the last HALL_PPS edge and the consecutive ones on target; the entry into HOLD_FREE; the time and the
number of the last change of QUAL, 0 where it has not changed since reset (R427). -/
structure TimeUnit where
  opAt : Nat := 0
  refGood : Bool := false
  offset : Option Int := none
  stepped : Bool := false
  inBand : Option Nat := none
  ppsAt : Nat := 0
  ppsRun : Nat := 0
  holdAt : Nat := 0
  qualAt : Nat := 0
  qualNo : Nat := 0
  deriving DecidableEq, Repr

/-! ### Rows and messages in flight (spec 11) -/

/-- One router output a row or message takes: the cycle, the router, the output and the input it came by. -/
structure Hop where
  cyc : Nat
  router : Nat
  out : Nat
  inp : Nat
  deriving DecidableEq, Repr

/-- A side flit (R451–R453): a FLOOD flit names its origin and flood identifier, a SIDE flit its destination. -/
structure SideFlit where
  flood : Bool
  dest : Nat
  fid : Nat
  body : BitVec 2048
  deriving DecidableEq, Repr

/-- What a row in flight carries: an access to a slice; a returning row (with an error reason in its place);
a row of a waggle message; a flit received in a slot, or a side flit for a link, that crosses from one Edge die to the other. -/
inductive Cargo where
  | access (a : Access)
  | ret (m : Nat) (data : Row) (reason : Nat)
  | msg (queue : Nat) (epoch : W32) (ns m n : Nat) (data : Row)
  | thru (slot : Nat)
  | side (link : Nat) (flit : SideFlit)
  deriving DecidableEq, Repr

/-- A row in flight on the row network: its hops still to take, its target core, its arrival cycle. -/
structure Flight where
  id : Nat
  target : Nat
  origin : Origin
  cargo : Cargo
  hops : List Hop
  due : Nat
  deriving DecidableEq, Repr

/-- What a control message carries: the status of a transfer; the status of a send; a signal of a flag. -/
inductive Note where
  | status (op reason : Nat)
  | signal (f : Nat)
  deriving DecidableEq, Repr

/-- A control message in flight; `place` orders it among the messages of one input (R346). -/
structure Ctl where
  id : Nat
  target : Nat
  note : Note
  hops : List Hop
  place : Nat
  due : Nat
  deriving DecidableEq, Repr

/-! ### Canopy links, reduction and the commit unit (spec 15, 16) -/

/-- A DATA or RED flit: its 128-bit header and its 256 bytes. -/
structure Flit where
  hdr : BitVec 128
  body : BitVec 2048
  deriving DecidableEq, Repr

/-- A flit in a transmit FIFO, with the HOPS its feeder gave (R439) and, from a CRU, the slot it leaves in (R477). -/
structure FifoFlit where
  flit : Flit
  hops : Nat
  due : Nat := 0
  deriving DecidableEq, Repr

/-- What one control word gave the time transfer, in edge steps (R420, R435): t2 − t1, t4 − t3 and 2θ. -/
structure TimeWord where
  fwd : Int
  rev : Int
  theta2 : Int
  deriving DecidableEq, Repr

/-- One Canopy link (spec 15).  Registers stand in the register table; here are its queues and stores, slots being absolute
slot numbers: side flits waiting, unacknowledged (SEQ, slot sent, flit) and due again; DATA and RED flits sent, lost
slots requested, acknowledgements to send, requests answered, and flits reserved for RETRY slots; flits received for
other modules, first halves of rows, receive times by slot; the slot to send next; whether a full calibration has
completed since the link came up, whether a receive lane is lost, the slot in which the neighbour's LDEG first came,
whether one lane sends; the time transfer of the last control words, newest first (R420); the transmit offsets of both ends; the
slots in which a DATA or RED flit came in time, and those whose flit was lost on its way to the other Edge die. -/
structure Link where
  side : List SideFlit := []
  unacked : List (Nat × Nat × SideFlit) := []
  again : List Nat := []
  store : List (Nat × Flit) := []
  asks : List Nat := []
  racks : List Nat := []
  answered : List Nat := []
  resv : List (Nat × Flit) := []
  got : List (Nat × Flit) := []
  halves : List Flit := []
  rxOffs : Tab W16 := []
  nextSlot : Nat := 0
  calibrated : Bool := false
  ldeg : Bool := false
  ldegSeen : Option Nat := none
  single : Bool := false
  times : List TimeWord := []
  txOff : Int := 0
  peerOff : Int := 0
  codeNew : Bool := false
  carried : List Nat := []
  crossLost : List Nat := []
  deriving DecidableEq, Repr

/-- A RED flit in a CRU's input buffer (R476). -/
structure RedFlit where
  cru : Nat
  link : Nat
  job : Nat
  index : Nat
  kind : Nat
  body : BitVec 2048
  deriving DecidableEq, Repr

/-- The commit unit's working state (R480–R486): the CMT.ARRIVE arrivals on their way (core, context, FAIL, cycle of
issue), the children whose ARRIVED has come for the next release, the latest arrival, whether ARRIVED went to
the parent; the same of READY for the present release; the releases that ALLREADY, a failure, or a failing context has
named; the last decision; the release time awaited; the slice parts reported full (job, position). -/
structure Cmt where
  arrivals : List (Nat × Nat × Bool × Nat) := []
  arrKids : List Nat := []
  arrMax : Nat := 0
  arrSent : Bool := false
  readyKids : List Nat := []
  readySent : Bool := false
  allready : List W32 := []
  failed : List W32 := []
  ctxFail : List W32 := []
  decided : List (Nat × Bool) := []
  release : Option Nat := none
  parts : List (Nat × Nat) := []
  deriving DecidableEq, Repr

/-! ### Processors, the service bus and the event controllers (spec 03 R101–R104, 19) -/

/-- An Adsiem-S processor: cp0–cp15, Keeper W (16), Keeper E (17).  `st` is CP.STAT.STATE; times count ct of the root clock
since reset.  A load from the service space waits in `load` (register, bytes, address); `errs` holds the addresses of
posted stores that ended in an error completion; `epoch` tells responses from before a RUN or RESET from later ones.
SRAM bytes that are not listed in `sram` read as the loaded image has them, and zero outside it; `port` holds the words of SRAM
written in the processor's latest cycle of a write (word, its value before that cycle, whether by the service bus). -/
structure Proc where
  s : Tab W64 := []
  c : Tab W32 := []
  cmp : Tab Cmp := []
  loops : Tab LoopRec := []
  pc : W32 := 0
  st : Nat := 0
  late : Tab Nat := []
  nextAt : Nat := 0
  status : W64 := 0
  epc : W64 := 0
  cause : W64 := 0
  tval : W64 := 0
  vecbase : W64 := 0
  scratch : W64 := 0
  thresh : Nat := 0
  load : Option (Nat × Nat × W64) := none
  errs : List W64 := []
  haltAt : Bool := false
  epoch : Nat := 0
  sram : Tab Byte := []
  code : Tab Byte := []
  data : Tab Byte := []
  port : Nat × List (Nat × Nat × Bool) := (0, [])
  deriving DecidableEq, Repr

/-- Who made a service access: a load or store of a processor; a piece of a host request; a piece of a Keeper stream. -/
inductive Who where
  | load (p epoch : Nat)
  | store (p epoch : Nat)
  | host (req piece : Nat)
  | kstr (member engine : Nat)
  deriving DecidableEq, Repr

/-- An access of the service bus: at most 64 bytes of one 64-byte block of the service address space. -/
structure BusAcc where
  write : Bool
  addr : Nat
  size : Nat
  data : Nat
  who : Who
  deriving DecidableEq, Repr

/-- A granted access: its place among all grants, and its result once applied (whether it succeeded, the data read). -/
structure BusFlight where
  n : Nat
  acc : BusAcc
  res : Option (Bool × Nat) := none
  deriving DecidableEq, Repr

/-- The service bus (R541–R544): the pending queues, the time from which each head waits, the end of the burst in progress,
the accesses granted, and the granted accesses of each input whose responses have not returned. -/
structure Bus where
  queues : Tab (List BusAcc) := []
  headFrom : Tab Nat := []
  until_ : Nat := 0
  grants : Nat := 0
  flying : Tab (List BusFlight) := []
  deriving DecidableEq, Repr

/-! ### The host port (spec 18) -/

/-- A host request in service: a write or a read of `size` bytes cut in pieces, the data read so far (piece, bytes, data),
the pieces served, and whether one has failed. -/
structure HostReq where
  id : Nat
  write : Bool
  addr : Nat
  size : Nat
  pieces : Nat
  served : Nat := 0
  data : Nat := 0
  failed : Bool := false
  deriving DecidableEq, Repr

/-- The host port's own state: host pieces that wait for room at input 0, requests not yet completed, configuration registers
written, errors logged in AER, the two key sets of each IDE stream (key 2·stream + set) and the
streams that discard traffic. -/
structure Port where
  waiting : List BusAcc := []
  reqs : List HostReq := []
  nextReq : Nat := 0
  cfg : Tab W32 := []
  aer : List (Nat × Nat) := []
  ideKeys : Tab Key := []
  ideDead : List Nat := []
  deriving DecidableEq, Repr

/-! ### The Keeper (spec 20) -/

/-- A Keeper stream engine: direction (true from SRAM), SRAM offset, address, whether it names flash, bytes, bytes moved,
whether a piece is on the bus. -/
structure Kstr where
  st : Nat := 0
  out : Bool := false
  sram : Nat := 0
  addr : Nat := 0
  flash : Bool := false
  len : Nat := 0
  done : Nat := 0
  flying : Bool := false
  deriving DecidableEq, Repr

/-- A log entry waiting in the staging buffer: its severity and its 64 bytes as a number. -/
structure LogRec where
  severity : Nat
  entry : BitVec 512
  deriving DecidableEq, Repr

/-- The SPDM responder's state in one member: the messages exchanged since GET_VERSION, and the session: 0 none, 1 being
set up, 2 secured. -/
structure Spdm where
  transcript : List Bytes := []
  session : Nat := 0
  updates : Nat := 0
  deriving DecidableEq, Repr

/-- A firmware update in progress: its components, those verified, those whose activation is pending. -/
structure Update where
  comps : List Nat
  verified : List Nat := []
  deriving DecidableEq, Repr

/-- A Keeper member: the root time of its last BEAT, whether it is held in reset, its stream engines, staged log entries,
its own state of the management transport, and whether it runs a Keeper image whose activation is in progress. -/
structure Member where
  beatAt : Nat := 0
  held : Bool := false
  kstr : Tab Kstr := []
  staged : List LogRec := []
  spdm : Spdm := {}
  update : Option Update := none
  eid : Nat := 0
  newImage : Bool := false
  deriving DecidableEq, Repr

/-- A directory entry of a half of the flash: whether its copy is marked active, and the directory sequence. -/
structure DirEntry where
  active : Bool := false
  seq : Nat := 0
  deriving DecidableEq, Repr

/-- What the fuses and the flash hold across every reset: the life cycle state, the returns from Service, the anti-rollback
counter; the flash bytes (those not listed read as erased), the directory (key 2·component + half), the ring slot and sequence
number of the next log entry, the fence record (state 2 fenced or 1 returned, FORMER, FVALID, time), and the repair record
(position, program-visible row), oldest first. -/
structure Nv where
  lc : Nat := 2
  returns : Nat := 0
  f : Nat := 0
  flash : Tab Byte := []
  dir : Tab DirEntry := []
  logHead : Nat := 0
  logSeq : Nat := 0
  fenceRec : Tab (Nat × Nat × Bool × Nat) := []
  repairs : List (Nat × Nat) := []
  deriving DecidableEq, Repr

/-! ### Leaving the module -/

/-- What the module sends to the outside, in order: the model's own record of its outputs. -/
inductive OutMsg where
  | msix (v : Nat)
  | lineRequest (ch : Nat) (write wrCur : Bool) (addr : Nat) (data : Line)
  | completion (ok : Bool) (data : Nat) (len : Nat)
  | cfgReply (retry : Bool) (data : W32)
  | snoopReply
  | mctp (msg : Bytes)
  | doe (msg : Bytes)
  | slot (link : Nat) (n : Nat) (image : Image)
  | testPort (data : Nat)
  | inBand (status : Nat)
  deriving DecidableEq, Repr

/-! ### The module -/

/-- The state of the module. `ct` is canopy time, `cyc` the shared compute cycle number, `nextEdge` and `prevEdge` the canopy
times of the next and the last target edge of the compute grid (R401, R402); `regs` holds every register outside the CORE
blocks, keyed by its register-space offset, and `marks` the W1C bits, by offset and place, that events have set at the present
canopy time; `comb` holds the slices' physical rows as bytes, `cellar` the Cellar aperture's bytes. Of the Cellar: `cdef`
lists the words of data bursts in error, keyed 8·burst + word, true where uncorrectable; `chk` the check buffers of each
channel and class, most recent first, with the dirty mark; `mr4` the refresh-rate fields read from each rank, newest first;
`refBank`, `refAt`, `bankBlk` the per-bank refresh (refreshes of a rank so far, the instant from which the next one counts,
until when a bank is blocked); `wck` the oscillator count and delay of each rank, `osc` the times at which counts are read;
`patPend` and `slower` pattern changes to come; `retraining`, `pprs`, `pprBusy` what is in progress or waiting. `stages`
counts the flits each stage has processed under key 4096·CRU + stage, `redIn` holds RED flits not yet matched to a stage,
`redSeen` the flits accepted (stage, index), `formed` the flits each CRU has formed in a slot (slot, count); `sideCross` the
side flits that have to cross to the other Edge die (die, row of the mesh, link, flit). `fifoDue` is the slot of the last flit
a CRU placed in each FIFO, `dma` the next row of each busy DMA channel, `edgeGot` the answers to the accesses of an Edge die's
units (job, row, reason, data) while it waits for them, `inbox` the side flits delivered here that no rule of the spec reads.
`hch` holds the rows outstanding at each host channel, whose ids rise, and `syncMark` the id from which on they came after the
last HTTSYNC; `out` records what left the module; `charges` counts the tokens of window w on die d under key 4w + d, and
`overruns` the last window of a die that stalled; `monOver` and `monUnder` count consecutive power averages; `thrBase` is the
edge, with its cycle number, at which a throttle began, `thrEnd` the time at which the last one ended; `wokeAt` the time of
the last wake on each die; `free` numbers the free values drawn; `mapPend` holds the map changes that await a clearing; `root`
is the sum of the steps taken by canopy time, which the root clock does not follow; `swapAt` is the root time of a SWAP not
yet performed; `nonceSeq` is the log sequence number from which the transition nonce was derived; `testOpen` the test port
unlocked; `powered` the regulators, `hiveOff` the Hive rails switched off by a thermal trip, `portReady` stage 10 completed;
`cpPend` a control processor image that awaits a clearing; `running` the flash-slot bytes of the image that each component
runs, and `bootF` the counter F when the active member derived its keys (R565, R567); `pending` is the queue of waiting
commands. -/
structure State where
  ct : Nat
  cyc : Nat
  nextEdge : Nat
  prevEdge : Nat
  tu : TimeUnit
  point : Nat
  throttled : Bool
  regs : Tab W64
  marks : List (Nat × Nat)
  cores : Tab Core
  comb : Tab Byte
  cellar : Tab Byte
  glades : Tab Glade
  flights : List Flight
  ctls : List Ctl
  edgeGot : List (Nat × Nat × Nat × Row)
  nextFlight : Nat
  evStacks : Tab (List (Nat × Nat))
  charges : Tab Nat
  overruns : Tab Nat
  monOver : Nat
  monUnder : Nat
  thrBase : Nat × Nat
  thrEnd : Nat
  links : Tab Link
  fifos : Tab (List FifoFlit)
  fifoDue : Tab Nat
  dma : Tab Nat
  inbox : List (Nat × SideFlit)
  sideWait : List (Nat × SideFlit)
  sideCross : List (Nat × Nat × Nat × SideFlit)
  floods : List (Nat × Nat)
  cmt : Cmt
  stages : Tab Nat
  inbuf : List RedFlit
  redIn : List (Nat × Flit)
  redSeen : List (Nat × Nat)
  formed : Tab (Nat × Nat)
  cdef : Tab Bool
  chk : Tab (List (Nat × Bool))
  flushAt : Tab Nat
  mr4 : Tab (List Nat)
  mr4At : Tab Nat
  refBank : Tab Nat
  refAt : Tab Nat
  bankBlk : Tab Nat
  wck : Tab (Nat × Int)
  osc : Tab Nat
  wokeAt : Tab Nat
  patPend : Tab (Nat × Nat)
  slower : Tab Nat
  retraining : Tab Nat
  pprs : Tab (Nat × Bool × Nat × Nat)
  pprBusy : Tab Nat
  linkBad : List Nat
  hch : Tab (List HRow)
  syncMark : Nat
  out : List OutMsg
  free : Nat
  mapPend : Tab W64
  root : Int
  procs : Tab Proc
  bus : Bus
  port : Port
  members : Tab Member
  swapAt : Option Nat
  nv : Nv
  nonceSeq : Nat
  testOpen : Bool
  powered : Bool
  hiveOff : Bool
  portReady : Bool
  cpPend : Bool
  running : Tab (Tab Byte)
  bootF : Nat
  pending : List Instr
  deriving DecidableEq, Repr

/-- The module right after a module reset: every register at its reset value, nothing in progress. -/
def State.reset : State :=
  { ct := 0, cyc := 0, nextEdge := 8, prevEdge := 0, tu := {}, point := 0, throttled := false, regs := [], marks := [], cores := [], comb := [],
    cellar := [], glades := [], flights := [], ctls := [], edgeGot := [], nextFlight := 0, evStacks := [], charges := [],
    overruns := [], monOver := 0, monUnder := 0, thrBase := (0, 0), thrEnd := 0,
    links := [], fifos := [], fifoDue := [], dma := [], inbox := [], sideWait := [], sideCross := [], floods := [], cmt := {}, stages := [], inbuf := [], redIn := [], redSeen := [], formed := [],
    cdef := [], chk := [], flushAt := [], mr4 := [], mr4At := [], refBank := [], refAt := [], bankBlk := [], wck := [], osc := [], wokeAt := [],
    patPend := [], slower := [], retraining := [], pprs := [], pprBusy := [], linkBad := [], hch := [], syncMark := 0, out := [],
    free := 0, mapPend := [], root := 0, procs := [], bus := {}, port := {}, members := [], swapAt := none, nv := {},
    nonceSeq := 0, testOpen := false, powered := true, hiveOff := false, portReady := false, cpPend := false, running := [], bootF := 0,
    pending := [] }

/-- Why a step stops with a fault.  No rule of the spec stops the module: a fault of a context is a next state
(R370).  One constructor stands for the one thing the model cannot go on from. -/
inductive Fault where
  /-- Raised by no command: the spec gives every command a next state.  Safe: nothing reaches it. -/
  | none
  deriving DecidableEq, Repr

/-- Why a command is refused. -/
inductive Refusal where
  /-- No meaning is modelled for the command, named by its mnemonic.  Safe: the machine stops. -/
  | notModelled (mnemonic : String)
  deriving DecidableEq, Repr

/-- The outcome of a command. -/
abbrev Out := Host.Outcome State Fault Refusal

end Sys2Proof.Machine
end

