-- ==== Sys2Proof/Machine/Ops.lean ====
section
/-! DEFINITION.
The named operations over cores, registers, counters, events, time and the core maps that every meaning uses. -/

namespace Sys2Proof.Machine

/-! ### Cores and contexts -/

/-- Hive die and grid position of a physical core index. -/
def dieOf (i : Nat) : Nat := i / 80
def posOf (i : Nat) : Nat := i % 80

/-- What the fuses say of position `c`: DESIGN CHOICE, positions 0–71 of every die are active and 72–79 spare
(R16 leaves which; log entry 4). -/
def fuseOf (i : Nat) : Fuse := if posOf i < 72 then .active else .spare

/-- A core after a module reset; a spare is held in Deep (R577). -/
def coreInit (i : Nat) : Core :=
  match fuseOf i with
  | .active => { fuse := .active }
  | f => { fuse := f, power := .deep, array := some 0 }

def State.core (s : State) (i : Nat) : Core := Tab.get (coreInit i) s.cores i
def State.setCore (s : State) (i : Nat) (k : Core) : State := { s with cores := Tab.put s.cores i k }
def State.modCore (s : State) (i : Nat) (f : Core → Core) : State := s.setCore i (f (s.core i))

def Core.getCtx (k : Core) (n : Nat) : Ctx := Tab.get {} k.ctx n
def Core.setCtx (k : Core) (n : Nat) (x : Ctx) : Core := { k with ctx := Tab.put k.ctx n x }
def Core.modCtx (k : Core) (n : Nat) (f : Ctx → Ctx) : Core := k.setCtx n (f (k.getCtx n))

def State.ctx (s : State) (i n : Nat) : Ctx := (s.core i).getCtx n
def State.modCtx (s : State) (i n : Nat) (f : Ctx → Ctx) : State := s.modCore i (fun k => k.modCtx n f)

def Ctx.sreg (x : Ctx) (r : Nat) : W64 := Tab.get 0 x.s r
def Ctx.setSreg (x : Ctx) (r : Nat) (v : W64) : Ctx := { x with s := Tab.put x.s r v }
def Ctx.creg (x : Ctx) (r : Nat) : W32 := Tab.get 0 x.c r
def Ctx.setCreg (x : Ctx) (r : Nat) (v : W32) : Ctx := { x with c := Tab.put x.c r v }
def Ctx.getCmp (x : Ctx) (r : Nat) : Cmp := Tab.get ⟨0, 0, 0⟩ x.cmp r
def Ctx.setCmp (x : Ctx) (r : Nat) (v : Cmp) : Ctx := { x with cmp := Tab.put x.cmp r v }
def Ctx.getTag (x : Ctx) (t : Nat) : Tag := Tab.get {} x.tags t
def Ctx.setTag (x : Ctx) (t : Nat) (v : Tag) : Ctx := { x with tags := Tab.put x.tags t v }

/-- Whether a context holds a task (R39). -/
def CtxMode.holdsTask : CtxMode → Bool
  | .noTask => false
  | _ => true

def Core.holdsTask (k : Core) (n : Nat) : Bool := (k.getCtx n).mode.holdsTask
def Core.anyTask (k : Core) : Bool := [0, 1, 2, 3].any k.holdsTask
/-- Whether any context of the module holds a task (R31, R419). -/
def State.anyTask (s : State) : Bool := s.cores.any (fun p => p.2.anyTask)

/-! ### Registers -/

/-- Reset values of a CORE block that are not zero: SLICE.SCRUB and FENCE.STATE (R271, R614). -/
def coreReset (f : Fuse) (off : Nat) : W64 :=
  if off = 0x8048 then BitVec.ofNat 64 (2 ^ 31 + 11900)
  else if off = 0x0B28 then (match f with | .active => 0 | .spare => 4 | .off => 12)
  else 0

def Core.reg (k : Core) (off : Nat) : W64 := Tab.get (coreReset k.fuse off) k.regs off
def Core.setReg (k : Core) (off : Nat) (v : W64) : Core := { k with regs := Tab.put k.regs off v }
def Core.fld (k : Core) (off hi lo : Nat) : Nat := bits (k.reg off) hi lo
def Core.setFld (k : Core) (off hi lo x : Nat) : Core := k.setReg off (setBits (k.reg off) hi lo x)

/-- First offsets of the register blocks (R27). -/
def blkMOD : Nat := 0x0
def blkKEEP : Nat := 0x100000
def blkCLK : Nat := 0x200000
def blkPWR : Nat := 0x300000
def blkEVC (d : Nat) : Nat := 0x400000 + d * 0x10000
def blkCP (n : Nat) : Nat := 0x800000 + n * 0x10000
def blkCORE (i : Nat) : Nat := 0x2000000 + dieOf i * 0x800000 + posOf i * 0x10000
def blkCELL : Nat := 0x6000000
def blkCANO (k : Nat) : Nat := 0x7000000 + k * 0x10000
def blkCRU : Nat := 0x7800000
def blkCXLP : Nat := 0x7C00000
def blkSVC : Nat := 0x7E00000

/-- Register-space offsets that several chapters name. -/
def rMapStat : Nat := 0x20
def rMap (n : Nat) : Nat := 0x1000 + 8 * n
def rTstat : Nat := blkCLK + 0x8
def rClrBegin : Nat := blkCLK + 0x40
def rClrEnd : Nat := blkCLK + 0x48
def rEvpend : Nat := blkKEEP + 0x18

/-- Reset value of a core map entry: logical core n on grid position n mod 72, in service (R392; log entry 4). -/
def mapReset (n : Nat) : Nat := 0x100 + n % 72

/-- Reset values that are not zero, outside the CORE blocks. -/
def modReset (off : Nat) : W64 :=
  if off < 0x100000 then
    if off = 0x0 then 0x000800A1
    else if off = 0x28 then 1
    else if 0x1000 ≤ off ∧ off < 0x1000 + 8 * 288 ∧ off % 8 = 0 then BitVec.ofNat 64 (mapReset ((off - 0x1000) / 8))
    else 0
  else if off = blkCLK + 0x50 then 1
  else if off = blkPWR then 64
  else if blkPWR + 0x100 ≤ off ∧ off < blkPWR + 0x180 ∧ off % 0x20 = 0 then BitVec.ofNat 64 (184320 * 2 ^ 32 + 184320)
  else if blkPWR + 0x10000 ≤ off ∧ off < blkPWR + 0x11400 ∧ off % 0x10 = 0 then 0x48
  else if blkPWR + 0x10000 ≤ off ∧ off < blkPWR + 0x11400 ∧ off % 0x10 = 8 then
    BitVec.ofNat 64 (match fuseOf ((off - blkPWR - 0x10000) / 0x10) with | .active => 31 * 2 ^ 8 | _ => 0)
  else if off = blkKEEP + 0x130 then
    BitVec.ofNat 64 (40 + 4 * 2 ^ 10 + 6 * 2 ^ 15 + 2 ^ 23 + 2 ^ 24 + 2 ^ 25)
  else if blkKEEP + 0x1000 ≤ off ∧ off < blkKEEP + 0x1F00 ∧ off % 8 = 0 then BitVec.ofNat 64 (0x8000 * 2 ^ 48 + 0x7FFF * 2 ^ 32)
  else if off = blkKEEP + 0x58 then BitVec.ofNat 64 (4096 * 2 ^ 48 + 2 * 2 ^ 40 + 16 * 2 ^ 32)
  else if 0x400000 ≤ off ∧ off < 0x440000 ∧ 0x4000 ≤ off % 0x10000 ∧ off % 0x10000 < 0x4020 then
    BitVec.ofNat 64 (0x3FF * 2 ^ 10)
  else if 0x7000000 ≤ off ∧ off < 0x7180000 ∧ off % 0x10000 = 0 then 1
  else if off = blkCANO 0 + 0xF10 then 1280
  else if off = blkCELL then BitVec.ofNat 64 0x1360136
  else if blkCELL + 0x1000 ≤ off ∧ off < blkCELL + 0x1060 then BitVec.ofNat 64 (2 + 16 * 2 ^ 48)
  else if off = blkCXLP + 0x10 then 2
  else if blkCXLP + 0x1000 ≤ off ∧ off < blkCXLP + 0x1400 ∧ off % 16 = 8 then BitVec.ofNat 64 (2 ^ 32)
  else if off = blkCXLP + 0x18 then 50000
  else if off = blkCXLP then BitVec.ofNat 64 (0xA1 * 2 ^ 32 + 0x5A08 * 2 ^ 16)
  else 0

def State.reg (s : State) (off : Nat) : W64 := Tab.get (modReset off) s.regs off
def State.setReg (s : State) (off : Nat) (v : W64) : State := { s with regs := Tab.put s.regs off v }
def State.fld (s : State) (off hi lo : Nat) : Nat := bits (s.reg off) hi lo
def State.setFld (s : State) (off hi lo x : Nat) : State := s.setReg off (setBits (s.reg off) hi lo x)
def State.flag (s : State) (off i : Nat) : Bool := bit (s.reg off) i
def State.setFlag (s : State) (off i : Nat) : State := s.setFld off i i 1
def State.clrFlag (s : State) (off i : Nat) : State := s.setFld off i i 0

/-! ### Events and clears of one cycle (R13) -/

/-- Bit `b` of the register at offset `off` is noted as set by an event at the present canopy time. -/
def State.mark (s : State) (off b : Nat) : State := { s with marks := (off, b) :: s.marks }
/-- An event sets W1C bit `b` of a register outside the CORE blocks. -/
def State.event (s : State) (off b : Nat) : State := (s.setFlag off b).mark off b
/-- An event sets W1C bit `b` of a register of core i's block. -/
def State.coreEvent (s : State) (i off b : Nat) : State :=
  (s.modCore i (fun k => k.setFld off b b 1)).mark (blkCORE i + off) b
/-- The bits of a register that events have set at the present canopy time: a write of software does not clear them (R13). -/
def State.kept (s : State) (off : Nat) : W64 :=
  (s.marks.filter (fun m => m.1 == off)).foldl (fun v m => setBit v m.2 true) 0
/-- Software clears bit `b` of a register. -/
def State.clear (s : State) (off b : Nat) : State := if bit (s.kept off) b then s else s.clrFlag off b
def State.coreClear (s : State) (i off b : Nat) : State :=
  if bit (s.kept (blkCORE i + off)) b then s else s.modCore i (fun k => k.setFld off b b 0)

/-! ### Counters (R613) -/

/-- Adds `n` counted events to a saturating counter of `w` bits with its SAT bit at `sat`: the new value, and
whether SAT became set, which raises one event. -/
def satCount (w sat n : Nat) (v : W64) : W64 × Bool :=
  let c := v.toNat % 2 ^ w
  let top := 2 ^ w - 1
  if n = 0 then (v, false)
  else if top ≤ c + n then (setBit (setBits v (w - 1) 0 top) sat true, !bit v sat)
  else (setBits v (w - 1) 0 (c + n), false)

/-- Adds to a counter that saturates with no event. -/
def plainCount (hi lo n : Nat) (v : W64) : W64 :=
  setBits v hi lo (Nat.min (2 ^ (hi + 1 - lo) - 1) (bits v hi lo + n))

/-! ### Events (R535, R552, R605) -/

/-- A raising of source `src` at the event controller of die `d` sets its pending bit (R535). -/
def State.raise (s : State) (d src : Nat) : State := s.event (blkEVC d + 0x1000 + 8 * src) 8

/-- The raising on all four event controllers of sources 648–651 and 656–671. -/
def State.raiseAll (s : State) (src : Nat) : State := (((s.raise 0 src).raise 1 src).raise 2 src).raise 3 src

/-- CORE.FENCE.STATE: 0 active, 1 spare, 2 fenced, 3 fused off. -/
def State.fence (s : State) (i : Nat) : Nat := (s.core i).fld 0x0B28 3 2
/-- STATE as the router and the event controller take it: a core in its reset counts as a spare (R624). -/
def State.routerState (s : State) (i : Nat) : Nat := if s.ct < (s.core i).resetEnd then 1 else s.fence i

/-- A raising of source 8c + k of a position: a fenced or spare position raises only k = 7 (R605). -/
def State.raiseCore (s : State) (i k : Nat) : State :=
  if (s.routerState i = 1 ∨ s.routerState i = 2) ∧ k ≠ 7 then s else s.raise (dieOf i) (8 * posOf i + k)

/-- A raising of event bit `b` to the Keeper (R552). -/
def State.raiseKeep (s : State) (b : Nat) : State := s.event rEvpend b

/-- Adds `n` to a 48-bit counter of a CORE block; SAT raises source 8c + 7. -/
def State.count48 (s : State) (i off n : Nat) : State :=
  let p := satCount 48 63 n ((s.core i).reg off)
  let s' := s.modCore i (fun k => k.setReg off p.1)
  if p.2 then (s'.mark (blkCORE i + off) 63).raiseCore i 7 else s'

/-- Adds `n` to a 16-bit slice counter with SAT at [16] (R271). -/
def State.count16 (s : State) (i off n : Nat) : State :=
  let p := satCount 16 16 n ((s.core i).reg off)
  let s' := s.modCore i (fun k => k.setReg off p.1)
  if p.2 then (s'.mark (blkCORE i + off) 16).raiseCore i 7 else s'

/-- Adds `n` to a 32-bit counter of a core with SAT at [32] (CORE.GHOST). -/
def State.count32Core (s : State) (i off n : Nat) : State :=
  let p := satCount 32 32 n ((s.core i).reg off)
  let s' := s.modCore i (fun k => k.setReg off p.1)
  if p.2 then (s'.mark (blkCORE i + off) 32).raiseCore i 7 else s'

/-- Adds `n` to a counter outside the CORE blocks; SAT raises event bit 13 to the Keeper (R552). -/
def State.countMod (s : State) (w sat off n : Nat) : State :=
  let p := satCount w sat n (s.reg off)
  let s' := s.setReg off p.1
  if p.2 then (s'.mark off sat).raiseKeep 13 else s'

/-! ### Time (spec 14) -/

/-- The nominal period of an operating point, in ct. -/
def periodOf (pt : Nat) : Nat := match pt with | 0 => 8 | 1 => 10 | 2 => 12 | _ => 16

/-- The period in force; twice the nominal one during an emergency throttle (R414, R590). -/
def State.period (s : State) : Nat := if s.throttled then 2 * periodOf s.point else periodOf s.point

/-- Target edges of the compute grid in (ct, t]. -/
def State.edgesTo (s : State) (t : Nat) : Nat :=
  if t < s.nextEdge then 0 else (t - s.nextEdge) / s.period + 1

/-- The lag of glade `g` in edge steps. -/
def State.lam (s : State) (g : Nat) : Nat := (Tab.get {} s.glades g).lam

/-- The last target edge of the compute grid at which an edge was placed. -/
def State.lastEdge (s : State) : Nat := s.prevEdge

/-- The cycle number of compute glade `g` at the present canopy time (R402, R406): behind the shared number while actual edges of
the glade have not come. -/
def State.gladeCyc (s : State) (g : Nat) : Nat := s.cyc - (Tab.get {} s.glades g : Glade).behind

/-- The cycle number of core `i`. -/
def State.cycOf (s : State) (i : Nat) : Nat := s.gladeCyc i

/-- The canopy time that core `i`'s glade holds at the edge of its present cycle (R403). -/
def State.edgeCt (s : State) (i : Nat) : Nat :=
  s.lastEdge - (s.cyc - s.cycOf i) * s.period + s.lam i / 4

/-- Whether a glade's edges fall on its target edges. -/
def Glade.nominal (g : Glade) : Bool := g.lam == 0 && g.alarm == 0 && g.str == 0 && g.behind == 0

/-- λ of the glade's next edge: the period in progress stretches by its level's steps, or repays (R404, R405, R408). -/
def Glade.lamNext (g : Glade) (repay : Nat) : Nat :=
  if g.str = 0 then g.lam - (if g.slow then 1 else repay) else g.lam + 4 * g.str

/-- An actual edge of a glade of nominal period `p` ct: it ends the period in progress, and begins one that is stretched at the
level raised now.  R407's condition is seen at every edge. -/
def Glade.edge (g : Glade) (p repay : Nat) : Glade :=
  let l := g.lamNext repay
  let run := if l = 0 then 0 else g.run + 1
  { g with
    lam := l, str := g.alarm, behind := g.behind - 1, run := run, now := g.now && decide (l ≠ 0)
    due := g.due || ((decide (4 * p < l) || decide (64 ≤ run)) && !g.now) }

/-- The target edge of the glade's next actual edge, where target edges up to `last` have come. -/
def Glade.pending (g : Glade) (p last : Nat) : Nat := last - (g.behind - 1) * p

/-- The actual edges of a glade up to canopy time `t`, where the last target edge is `last`; and the periods stretched among those
that end with them. -/
def Glade.edgesUpTo (p repay last t : Nat) : Nat → Glade → Glade × Nat
  | 0, g => (g, 0)
  | f + 1, g =>
    if g.behind = 0 ∨ 4 * t < 4 * g.pending p last + g.lamNext repay then (g, 0)
    else
      let r := Glade.edgesUpTo p repay last t f (g.edge p repay)
      (r.1, r.2 + if g.str = 0 then 0 else 1)

/-- A glade when `n` more target edges have come, the last of them at `last`, by canopy time `t`. -/
def Glade.moveTo (g : Glade) (p repay last n t : Nat) : Glade × Nat :=
  if g.nominal then (g, 0) else Glade.edgesUpTo p repay last t (g.behind + n) { g with behind := g.behind + n }

/-- Nominal period of a glade that does not follow the operating point (R399, R400). -/
def fixedPeriod (g : Nat) : Nat :=
  if g < 652 then 16 else if g = 653 ∨ g = 658 then 40 else if g = 656 ∨ g = 661 then 15 else 8

/-- Whether glade `g`'s generator runs: a core's stops in Nap and Deep (R413). -/
def State.gladeRuns (s : State) (g : Nat) : Bool :=
  if g < 320 then
    (s.core g).power == .run
  else true

/-- The period of glade `g` in ct. -/
def State.gladePeriod (s : State) (g : Nat) : Nat := if g < 644 then s.period else fixedPeriod g
/-- Target edges of glade `g` in (ct, t]. -/
def State.gladeEdges (s : State) (g t : Nat) : Nat :=
  if g < 644 then s.edgesTo t else t / fixedPeriod g - s.ct / fixedPeriod g
/-- The last target edge of glade `g` at or before `t`. -/
def State.lastTarget (s : State) (g t : Nat) : Nat :=
  if g < 644 then (if s.edgesTo t = 0 then s.prevEdge else s.nextEdge + (s.edgesTo t - 1) * s.period)
  else t / fixedPeriod g * fixedPeriod g

/-- CLK.GCTL.REPAY_MAX. -/
def State.repayMax (s : State) : Nat := s.fld (blkCLK + 0x50) 1 0

/-- A glade at canopy time `t`, and its stretched periods until then; one whose generator stands keeps its values (R430). -/
def State.gladeAt (s : State) (g : Nat) (x : Glade) (t : Nat) : Glade × Nat :=
  if s.gladeRuns g then x.moveTo (s.gladePeriod g) s.repayMax (s.lastTarget g t) (s.gladeEdges g t) t else (x, 0)

/-- Canopy time moves to `t`, and the compute grid and lagging glades with it.  It never moves back.  What the units of the cores
do meanwhile is `State.toCt`. -/
def State.clockTo (s : State) (t : Nat) : State :=
  if t ≤ s.ct then s
  else
    let n := s.edgesTo t
    let s1 := s.glades.foldl (fun r p =>
      let m := (s.gladeAt p.1 p.2 t).2
      if m = 0 then r else r.countMod 48 63 (blkCLK + 0x20000 + 8 * p.1) m) s
    { s1 with
      ct := t, marks := [], cyc := s.cyc + n, nextEdge := s.nextEdge + n * s.period
      prevEdge := if n = 0 then s.prevEdge else s.nextEdge + (n - 1) * s.period
      glades := s.glades.map (fun p => (p.1, (s.gladeAt p.1 p.2 t).1)) }

/-- The canopy time at which a glade off its nominal course has its next actual or target edge. -/
def State.gladeStop (s : State) (g : Nat) (x : Glade) : Nat :=
  let p := s.gladePeriod g
  if x.behind = 0 then (if g < 644 then s.nextEdge else (s.ct / p + 1) * p)
  else Nat.max (s.ct + 1) (x.pending p (s.lastTarget g s.ct) + (x.lamNext s.repayMax + 3) / 4)

/-- The canopy time of glade g's next actual edge. -/
def State.gladeEdgeAt (s : State) (g : Nat) (x : Glade) : Nat :=
  let p := s.gladePeriod g
  let target := if x.behind = 0 then (if g < 644 then s.nextEdge else (s.ct / p + 1) * p) else x.pending p (s.lastTarget g s.ct)
  Nat.max (s.ct + 1) (target + (x.lamNext s.repayMax + 3) / 4)

/-- The canopy time that glade `g` holds at its last edge: the target time plus λ in whole ticks (R403). -/
def State.gladeCt (s : State) (g : Nat) : Nat :=
  let x : Glade := Tab.get {} s.glades g
  s.lastTarget g s.ct - x.behind * s.gladePeriod g + x.lam / 4

/-- Canopy time of the target edge that carries shared cycle number `c` (c > cyc). -/
def State.edgeOf (s : State) (c : Nat) : Nat := s.nextEdge + (c - s.cyc - 1) * s.period

/-- The time from which the core on position `i` acts on the present value of QUAL: within 1,000 ct of its change (R427). -/
def State.qualReach (s : State) (i : Nat) : Nat := s.tu.qualAt + Config.qualDelay s.tu.qualNo i % 1001

/-- The value of QUAL on which the core on position `i` acts at canopy time `t` (R427). -/
def State.qualSeen (s : State) (i t : Nat) : Bool :=
  if s.tu.qualNo = 0 then s.flag rTstat 3
  else if s.qualReach i ≤ t then s.flag rTstat 3 else !(s.flag rTstat 3)

/-- Whether a loss of QUAL is signalled to the core on position `i` before canopy time `target` (R94, R427). -/
def State.lostBefore (s : State) (i target : Nat) : Bool :=
  decide (s.tu.qualNo ≠ 0) && !(s.flag rTstat 3) && decide (s.qualReach i < target)

/-- Whether canopy time `t` lies inside a clearing (R415). -/
def State.inClearingAt (s : State) (t : Nat) : Bool :=
  !(s.flag rTstat 3) || (decide ((s.reg rClrBegin).toNat ≤ t) && decide (t < (s.reg rClrEnd).toNat))
def State.inClearing (s : State) : Bool := s.inClearingAt s.ct

/-- The first multiple of `m` at or after `t`. -/
def nextMultiple (m t : Nat) : Nat := (t + m - 1) / m * m

/-- MOD.STAT.ORDERED_ACTIVE. -/
def State.ordered (s : State) : Bool := s.flag 0x10 0

/-! ### The core maps (R18, R391) -/

def State.inService (s : State) (n : Nat) : Bool := s.flag (rMap n) 8
/-- The physical core of logical core `n`. -/
def State.physOf (s : State) (n : Nat) : Nat := 80 * (n / 72) + s.fld (rMap n) 6 0
/-- The logical core on physical core `i`, if any. -/
def State.logicalOf (s : State) (i : Nat) : Option Nat :=
  ((List.range 72).map (fun j => 72 * dieOf i + j)).find? (fun n => s.inService n && s.physOf n == i)

/-- Whether what core i asks of the Cellar is dropped at its router: a spare or fenced position, unless it is being probed
(R605, R606). -/
def State.mutes (s : State) (i : Nat) : Bool :=
  (s.routerState i == 1 || s.routerState i == 2) && (s.core i).fld 0x0B28 5 5 == 0

/-- MOD.BOOT.READY. -/
def State.bootReady (s : State) : Bool := s.flag 0x28 8

/-! ### The Keeper's role (R546, R547) -/

def rRole : Nat := blkKEEP
/-- The service bus input of the active member. -/
def State.activeKeeper (s : State) : Nat := if s.flag rRole 0 then 17 else 18

/-- A write that only the active Keeper may make: from the standby member it sets only KEEP.ROLE.WREFUSED; from any other
input it is refused as its own rule says. -/
def State.byKeeper (s : State) (inp : Nat) (act refuse : State → State) : State :=
  if inp = s.activeKeeper then act s
  else if inp = 17 ∨ inp = 18 then s.event rRole 63
  else refuse s

/-! ### The root clock, processors and Keeper members -/

/-- Ct of the root clock since module reset: canopy time less the steps it has taken (R548). -/
def State.rootNow (s : State) : Nat := ((s.ct : Int) - s.root).toNat

def procInit (p : Nat) : Proc := if p < 16 then {} else { st := 1 }
def State.proc (s : State) (p : Nat) : Proc := Tab.get (procInit p) s.procs p
def State.setProc (s : State) (p : Nat) (k : Proc) : State := { s with procs := Tab.put s.procs p k }
def State.modProc (s : State) (p : Nat) (f : Proc → Proc) : State := s.setProc p (f (s.proc p))

/-- Member 0 is W, 1 is E. -/
def State.member (s : State) (m : Nat) : Member := Tab.get {} s.members m
def State.modMember (s : State) (m : Nat) (f : Member → Member) : State :=
  { s with members := Tab.put s.members m (f (s.member m)) }
/-- The active member. -/
def State.activeMember (s : State) : Nat := if s.flag rRole 0 then 1 else 0
def State.standbyMember (s : State) : Nat := 1 - s.activeMember

/-- Whether the life cycle state accepts tasks and updates: Provisioned, Field and Service. -/
def State.lcOpen (s : State) : Bool := decide (1 ≤ s.nv.lc) && decide (s.nv.lc ≤ 3)

/-! ### Firmware images in the flash (R561, R563) -/

/-- The flash slot of a component's active copy: its half, and its bytes keyed from the slot's start (R563). -/
def Nv.activeHalf (v : Nv) (comp : Nat) : Nat :=
  let a := Tab.get {} v.dir (2 * comp)
  let b := Tab.get {} v.dir (2 * comp + 1)
  if b.active && (!a.active || decide (a.seq < b.seq)) then 1 else 0
def slotBase (comp half : Nat) : Nat := half * 0x8000000 + comp * 0x1000000
def Nv.slot (v : Nv) (comp half : Nat) : List (Nat × Byte) :=
  let b := slotBase comp half
  (v.flash.filter (fun p => decide (b ≤ p.1) && decide (p.1 < b + 0x1000000))).map (fun p => (p.1 - b, p.2))
/-- A byte of an image header. -/
def slotByte (l : List (Nat × Byte)) (a : Nat) : Nat := (Tab.get 0xFF l a).toNat
def slotWord (l : List (Nat × Byte)) (a : Nat) : Nat :=
  slotByte l a + 2 ^ 8 * slotByte l (a + 1) + 2 ^ 16 * slotByte l (a + 2) + 2 ^ 24 * slotByte l (a + 3)

/-- The copy of a component in a half is valid (R561): signature and digest verify, and its SVN is not below F. -/
def Nv.slotValid (v : Nv) (comp half : Nat) : Bool :=
  let l := v.slot comp half
  Config.imageSigned l && decide (v.f ≤ slotByte l 6) && decide (slotByte l 6 ≤ 64)
/-- The copy that a boot uses: the active one, or where it is not valid the other half's where that is (R563). -/
def Nv.bootImage (v : Nv) (comp : Nat) : Tab Byte :=
  let h := v.activeHalf comp
  v.slot comp (if !(v.slotValid comp h) && v.slotValid comp (1 - h) then 1 - h else h)
/-- The image a component runs (R567). -/
def State.image (s : State) (comp : Nat) : Tab Byte := Tab.get [] s.running comp

/-! ### Wake sources (R579, R583) -/

def rPwrCtl (i : Nat) : Nat := blkPWR + 0x10000 + 0x10 * i
def rPwrStat (i : Nat) : Nat := blkPWR + 0x10008 + 0x10 * i

/-- Whether core i's mask enables a wake source. -/
def State.wakeOn (s : State) (i code : Nat) : Bool :=
  match code with
  | 1 => s.flag (rPwrCtl i) 3
  | 2 => s.flag (rPwrCtl i) 4
  | 3 => s.flag (rPwrCtl i) 5
  | 4 => true
  | 5 => s.flag (rPwrCtl i) 6
  | _ => false

/-- A wake source reaches core i: the first that its mask enables is due, in a low state or on the way into one. -/
def State.wakeSource (s : State) (i code : Nat) : State :=
  let low := match (s.core i).power with
    | .napEntry _ => true | .nap => true | .deepEntry _ => true | .deep => true | _ => false
  if low && !s.hiveOff && s.wakeOn i code && (s.core i).wakeDue.isNone then s.modCore i (fun k => { k with wakeDue := some (code, s.ct) })
  else s

/-! ### Outcomes -/

/-- A command that takes effect. -/
def ok (s : State) : Out := .next s

end Sys2Proof.Machine
end

