-- ==== Sys2Proof/Machine/Commit.lean ====
section
/-! DEFINITION.
Step failure and side traffic as every chapter uses them: the failure token of R481, flooding under R453, and
queueing a side flit under R451. -/

namespace Sys2Proof.Machine

def rCmtCtl : Nat := blkCRU + 0x40000
def rCmtStat : Nat := blkCRU + 0x40008
def rCmtStep : Nat := blkCRU + 0x40010
def rCmtRelno : Nat := blkCRU + 0x40018
def rCmtRel : Nat := blkCRU + 0x40020
def rCmtTree : Nat := blkCRU + 0x40028
def rCmtT0 : Nat := blkCRU + 0x40030
def rCmtT1 : Nat := blkCRU + 0x40038
def rCmtExpect : Nat := blkCRU + 0x40040
def rFailAt : Nat := blkCRU + 0x40048
def rFailCt : Nat := blkCRU + 0x40050
def rModid : Nat := blkCANO 0 + 0xF00

/-- CMT.STAT.PHASE: 0 IDLE, 1 ARRIVED, 2 RUNNING, 3 READY. -/
def State.phase (s : State) : Nat := s.fld rCmtStat 1 0

def State.link (s : State) (k : Nat) : Link := Tab.get {} s.links k
def State.setLink (s : State) (k : Nat) (l : Link) : State := { s with links := Tab.put s.links k l }
def State.modLink (s : State) (k : Nat) (f : Link → Link) : State := s.setLink k (f (s.link k))

/-- CANO.STAT.STATE of a link; 2, 3 and 4 are up. -/
def State.linkState (s : State) (k : Nat) : Nat := s.fld (blkCANO k + 8) 2 0
def State.linkUp (s : State) (k : Nat) : Bool := decide (2 ≤ s.linkState k)

/-- A side flit joins a link's side queue of 64, or waits in its unit for a free place (R451). -/
def State.joinSide (s : State) (k : Nat) (f : SideFlit) : State :=
  if (s.link k).side.length < 64 then s.modLink k (fun l => { l with side := l.side ++ [f] })
  else { s with sideWait := s.sideWait ++ [(k, f)] }

/-- A side flit for link `k`, from Edge die `o.1`: to the other Edge die it crosses the mesh along row `o.2` (R331). -/
def State.queueSide (s : State) (o : Nat × Nat) (k : Nat) (f : SideFlit) : State :=
  if k / 12 = o.1 then s.joinSide k f else { s with sideCross := s.sideCross ++ [(o.1, o.2, k, f)] }

/-- Where a side flit comes from: a unit of an Edge die, which crosses in row 15, or a link (R331). -/
def fromUnit (e : Nat) : Nat × Nat := (e, 15)
def fromLink (k : Nat) : Nat × Nat := (k / 12, k % 16)

/-- Remembers an origin and flood identifier among the 64 pairs seen most recently (R453). -/
def State.seeFlood (s : State) (origin fid : Nat) : State :=
  { s with floods := ((origin, fid) :: s.floods.filter (· ≠ (origin, fid))).take 64 }

/-- Queues a flit that comes from `o` on every up link but `except`. -/
def State.queueUp (s : State) (o : Nat × Nat) (except : Option Nat) (f : SideFlit) : State :=
  (List.range 24).foldl (fun s k =>
    if s.linkUp k = true ∧ except ≠ some k then s.queueSide o k f else s) s

/-- A flood originated by a unit of this module on Edge die `e` (R453). -/
def State.flood (s : State) (e fid : Nat) (body : BitVec 2048) : State :=
  let me := s.fld rModid 16 0
  (s.seeFlood me fid).queueUp (fromUnit e) none ⟨true, me, fid, body⟩

/-- An agreement flit (R488): class 0x01, kind, cause, release, time. -/
def agreeBody (kind cause relno time : Nat) : BitVec 2048 :=
  BitVec.ofNat 2048 (1 + kind * 2 ^ 8 + cause * 2 ^ 16 + (relno % 2 ^ 32) * 2 ^ 32 + (time % 2 ^ 64) * 2 ^ 64)

/-- The flood identifier of an agreement flood (R488). -/
def agreeFid (relno kind : Nat) : Nat := (relno % 8192) * 8 + kind

/-- The release a failure raised now belongs to (R480): the current one while RUNNING, else the next. -/
def State.failRelease (s : State) : Nat :=
  let r := (s.reg rCmtRelno).toNat
  if s.phase = 2 then r else r + 1

/-- Whether FAILAT holds a cause of release `rel`. -/
def State.failRecorded (s : State) (rel : Nat) : Bool :=
  s.fld rFailAt 7 0 != 0 && s.fld rFailAt 63 32 == rel % 2 ^ 32

/-- Records a failure cause for release `rel` (R481): the first cause in FAILAT and FAILCT, further ones in
OTHERS. -/
def State.recordFail (s : State) (rel cause : Nat) : State :=
  if s.failRecorded rel then s.setReg rFailAt (plainCount 15 8 1 (s.reg rFailAt))
  else
    (s.setReg rFailAt (BitVec.ofNat 64 (cause + (rel % 2 ^ 32) * 2 ^ 32))).setReg rFailCt (BitVec.ofNat 64 (s.gladeCt 654))

/-- The module fails a release (R481): it records the cause, and on the first cause floods one token. -/
def State.failRel (s : State) (rel cause : Nat) : State :=
  let first := !s.cmt.failed.contains (BitVec.ofNat 32 rel)
  let s0 := s.recordFail rel cause
  let s' := if cause = 8 then { s0 with cmt := { s0.cmt with ctxFail := BitVec.ofNat 32 rel :: s0.cmt.ctxFail } } else s0
  if first then
    ({ s' with cmt := { s'.cmt with failed := BitVec.ofNat 32 rel :: s'.cmt.failed } }).flood
      0 (agreeFid rel 5) (agreeBody 5 cause rel 0)
  else s'

/-- A step failure raised now (R480, R481). -/
def State.failStep (s : State) (cause : Nat) : State := s.failRel s.failRelease cause

/-- A context whose task takes part in the present step fails it, up to its commit point, whether the module is RUNNING or READY
(R372; the same of a gate and a core reset). -/
def State.failCurrent (s : State) : State := s.failRel (s.reg rCmtRelno).toNat 8

/-- A Canopy step failure: CANO.LATEAT takes link, cause and slot, and the step fails with cause CANOPY. -/
def State.failCanopy (s : State) (k cause slot : Nat) : State :=
  (s.setReg (blkCANO 0 + 0xF18) (BitVec.ofNat 64 (k + cause * 2 ^ 5 + (slot % 2 ^ 24) * 2 ^ 8))).failStep 9

end Sys2Proof.Machine
end

