-- ==== Sys2Proof/Machine/Comb.lean ====
section
/-! DEFINITION.
Access to the Comb: the row map, reads with correction and error reports, whole-row writes with the bucket
watches they count for, and the read ports (spec 08, R459–R462). -/

namespace Sys2Proof.Machine

/-- The physical row a program-visible row starts on: bank r[3:0], bank row r[15:4] (R231). -/
def homePhys (r : Nat) : Nat := (r % 16) * 3136 + r / 16

/-- The physical row of program-visible row `r`. -/
def Core.phys (k : Core) (r : Nat) : Nat := Tab.get (homePhys r) k.rowMap r

/-- The program-visible row on a physical row, 0xFFFF for an unused spare row (ERRAT.ROW). -/
def Core.visible (k : Core) (p : Nat) : Nat :=
  match k.rowMap.find? (fun e => e.2 == p) with
  | some e => e.1
  | none =>
    if p % 3136 < 3072 then
      let r := p / 3136 + 16 * (p % 3136)
      if k.phys r = p then r else 0xFFFF
    else 0xFFFF

/-- Byte address of physical row `p` of slice `i` in the Comb store. -/
def combAddr (i p : Nat) : Nat := (i * 50176 + p) * 512

/-- The bits held by physical row `p`. -/
def State.physRow (s : State) (i p : Nat) : Row := readRow s.comb (combAddr i p)
/-- The bits of a program-visible row, unchecked. -/
def State.rowOf (s : State) (i r : Nat) : Row := s.physRow i ((s.core i).phys r)

/-- The words of a physical row that hold an error, ascending: (word, uncorrectable). -/
def Core.badWords (k : Core) (p : Nat) : List (Nat × Bool) :=
  (k.defects.filter (fun e => e.1 / 64 == p)).map (fun e => (e.1 % 64, e.2))

/-- Counts and records the errors of one row read (R260, R261): corrected words first, then uncorrectable ones. -/
def State.reportErrors (s : State) (i r : Nat) (scrub : Bool) (bad : List (Nat × Bool)) : State :=
  let ces := bad.filter (fun w => !w.2)
  let ues := bad.filter (fun w => w.2)
  match (ces ++ ues).getLast? with
  | none => s
  | some w =>
    let s1 := (s.count16 i 0x8008 ces.length).count16 i 0x8010 ues.length
    let s2 := s1.modCore i (fun k => (k.setReg 0x8018 (BitVec.ofNat 64
      (r + w.1 * 2 ^ 32 + scrub.toNat * 2 ^ 38 + w.2.toNat * 2 ^ 39))).setReg 0x8020
        (BitVec.ofNat 64 (s1.gladeCt (320 + i))))
    if ues.isEmpty then s2 else s2.raiseCore i 3

/-- A checked read of program-visible row `r` of slice `i` (R234, R260, R261): the row, unless it holds an
uncorrectable word.  A corrected row joins the rewrite queue of 8. -/
def State.readComb (s : State) (i r : Nat) : State × Option Row :=
  let k := s.core i
  let p := k.phys r
  let bad := k.badWords p
  if bad.isEmpty then (s, some (s.physRow i p))
  else
    let s1 := s.reportErrors i r false bad
    let s2 :=
      if bad.any (fun w => !w.2) ∧ k.rewrites.length < 8 ∧ k.rewrites.contains p = false then
        s1.modCore i (fun k => { k with rewrites := k.rewrites ++ [p] })
      else s1
    (s2, if bad.any (fun w => w.2) then none else some (s.physRow i p))

/-- Puts the bits of a physical row, with fresh check bits. -/
def State.putPhys (s : State) (i p : Nat) (v : Row) : State :=
  ({ s with comb := writeRow s.comb (combAddr i p) v }).modCore i
    (fun k => { k with defects := k.defects.filter (fun e => e.1 / 64 != p) })

/-! ### Bucket watches (R459–R462) -/

def rBkt (j w : Nat) : Nat := blkCRU + 0x60000 + j * 0x20 + 8 * w

/-- The valid buckets, by reduction job. -/
def State.bucketsHeld (s : State) : List Nat :=
  (s.regs.filter (fun p => blkCRU + 0x60000 ≤ p.1 ∧ p.1 < blkCRU + 0x80000 ∧ p.1 % 0x20 = 0 ∧ bit p.2 63)).map
    (fun p => (p.1 - (blkCRU + 0x60000)) / 0x20)

/-- Whether bucket `j` holds row `r` of logical core `n`. -/
def State.bucketHas (s : State) (j n r : Nat) : Bool :=
  let b := s.reg (rBkt j 0)
  let row := bits b 33 18
  decide (bits b 8 0 ≤ n) && decide (n ≤ bits b 17 9) && decide (row ≤ r) && decide (r ≤ row + bits b 49 34)

/-- Writes a slice's part of bucket `j` must count to be full (R461). -/
def State.partSize (s : State) (j : Nat) : Nat :=
  let b := s.reg (rBkt j 0)
  (bits b 49 34 + 1) * (bits b 59 57 + 1)

/-- The valid stages of a CRU that read bucket `j`, with flits still to process (R462, R479). -/
def State.stageReads (s : State) (j : Nat) : Bool :=
  s.regs.any (fun p =>
    let o := p.1 - blkCRU
    decide (blkCRU ≤ p.1) && decide (0x10000 ≤ o % 0x80000) && decide (o % 0x80000 < 0x20000) && (o % 0x10 == 0) &&
      bit p.2 63 && bits p.2 47 36 == j && bits p.2 55 54 == 1 &&
      decide (Tab.get 0 s.stages ((o / 0x80000) * 4096 + (o % 0x80000 - 0x10000) / 0x10) ≤ bits p.2 13 0))

/-- Whether a release has come since reset: from the first on, writes count (R461). -/
def State.released (s : State) : Bool := decide (s.reg rCmtRelno ≠ 0)

/-- A whole-row write counts for every watched bucket it falls in from the release on (R461); a write that
reaches a full part before the last reading stage is done fails the step (R462). -/
def State.watchWrite (s : State) (i r : Nat) : State :=
  if s.released = false then s
  else
    match s.logicalOf i with
    | none => s
    | some n =>
      s.bucketsHeld.foldl (fun s j =>
        if s.bucketHas j n r then
          let c := Tab.get 0 (s.core i).wcount j
          if c < s.partSize j then s.modCore i (fun k => { k with wcount := Tab.put k.wcount j (c + 1) })
          else if 2 ≤ s.phase ∧ s.stageReads j then s.failStep 2 else s
        else s) s

/-- Part of a row is written with a merge: no whole-row write, so no watch counts it (R257, R461). -/
def State.mergeComb (s : State) (i r : Nat) (v : Row) : State := s.putPhys i ((s.core i).phys r) v

/-- A whole-row write of program-visible row `r` of slice `i` (R232, R262, R461). -/
def State.writeComb (s : State) (i r : Nat) (v : Row) : State :=
  (s.putPhys i ((s.core i).phys r) v).watchWrite i r

/-- Reads rows r, r + 1, … r + n − 1; stops at the first uncorrectable one. -/
def State.readRows (s : State) (i r : Nat) : Nat → State × Option (List Row)
  | 0 => (s, some [])
  | n + 1 =>
    match s.readComb i r with
    | (s1, none) => (s1, none)
    | (s1, some v) =>
      match s1.readRows i (r + 1) n with
      | (s2, none) => (s2, none)
      | (s2, some l) => (s2, some (v :: l))

/-- Writes consecutive rows. -/
def State.writeRows (s : State) (i r : Nat) : List Row → State
  | [] => s
  | v :: l => (s.writeComb i r v).writeRows i (r + 1) l

/-! ### The shadow area and the read ports -/

/-- First row and length of the shadow area (R258). -/
def Core.shadow (k : Core) : Nat × Nat := (k.fld 0x8068 15 0, k.fld 0x8068 29 16)

/-- Whether two ranges share an index. -/
def overlap (a n b m : Nat) : Bool := decide (a < b + m) && decide (b < a + n) && decide (0 < n) && decide (0 < m)

def Core.shares (k : Core) (first len : Nat) : Bool := overlap first len k.shadow.1 k.shadow.2

/-- Whether rows first … first + len − 1 lie in the extent of tag `t` of context `n`, open or waiting for its confirmation to begin
(R318, R321). -/
def Core.inExtent (k : Core) (n t first len : Nat) : Bool :=
  let g := (k.getCtx n).getTag t
  decide (1 ≤ t) && (g.st == 1 || (g.st == 2 && g.done == 0)) && decide (g.sb ≤ first) && decide (first + len ≤ g.sb + g.nr)

/-- Read ports held: by an MVP pass (R165), by a TM.LD on port 1, by a transfer (R336). -/
def Core.portsHeld (k : Core) (cyc : Nat) : Nat :=
  let mv := if !k.mvp.passes.isEmpty && decide (cyc < k.mvp.nextPass) then k.mvp.ports else 0
  let tm := match k.move with | some m => if m.ld then 2 else 0 | none => 0
  let xf := k.sends.foldl (fun m x => if cyc ≤ x.issued + x.n then m ||| x.port else m) 0
  (mv ||| tm) ||| xf

/-- Read ports free to the Forager. -/
def Core.portsFree (k : Core) (cyc : Nat) : Nat :=
  let h := k.portsHeld cyc
  (if h % 2 = 0 then 1 else 0) + (if h / 2 % 2 = 0 then 1 else 0)

end Sys2Proof.Machine
end

