-- ==== Sys2Proof/Machine/Operands.lean ====
section
/-! DEFINITION.
Operand fields of slot instructions, the source operand coding, fault codes, and what a slot instruction sees of
its bundle (spec 03 R70–R78, R643; 12 R373). -/

namespace Sys2Proof.Machine

/-! ### Fault codes (R373) -/
def fILLEGAL : Nat := 0x01
def fPOWER : Nat := 0x02
def fLOOPNEST : Nat := 0x03
def fWAITLATE : Nat := 0x04
def fTIMEUNQ : Nat := 0x05
def fTIMEDENTRY : Nat := 0x06
def fTASK : Nat := 0x07
def fGANGOWNER : Nat := 0x10
def fGANGNONE : Nat := 0x11
def fTILEOWNER : Nat := 0x12
def fMVPOWNER : Nat := 0x13
def fBUFOWNER : Nat := 0x14
def fSRUNSEEDED : Nat := 0x15
def fWINOWNER : Nat := 0x20
def fWINOVERLAP : Nat := 0x21
def fCOMBUE : Nat := 0x22
def fSTREAMBUSY : Nat := 0x30
def fSTREAMOWNER : Nat := 0x31
def fSTREAMRANGE : Nat := 0x32
def fQUEUEOWNER : Nat := 0x33
def fHOSTCHANNEL : Nat := 0x34
def fCELLARUE : Nat := 0x35
def fSTREAMABORTED : Nat := 0x36
def fSPECLEAK : Nat := 0x40
def fSPECSTATE : Nat := 0x41
def fSPECEXTENT : Nat := 0x42
def fXFERNACK : Nat := 0x50
def fXFERLOST : Nat := 0x51
def fFLAGOWNER : Nat := 0x52
def fWQOWNER : Nat := 0x53
def fWQBIND : Nat := 0x54
def fWQEMPTY : Nat := 0x55
def fCOMMITDUP : Nat := 0x60

/-! ### Fields of an operand word (R78, R643) -/
def fRd (op : W32) : Nat := bits op 31 27
def fSrc1 (op : W32) : Nat := bits op 26 18
def fSrc2 (op : W32) : Nat := bits op 17 9
def fSrc3 (op : W32) : Nat := bits op 8 0
/-- imm18, sign-extended to 64 bits. -/
def fImm18 (op : W32) : W64 := BitVec.ofInt 64 (signed 18 (bits op 17 0))
/-- imm18 as an unsigned number. -/
def fUimm18 (op : W32) : Nat := bits op 17 0
/-- imm27, sign-extended to 64 bits. -/
def fImm27 (op : W32) : W64 := BitVec.ofInt 64 (signed 27 (bits op 26 0))

/-- Whether a source coding is defined (R78). -/
def srcOk (c : Nat) : Bool := decide (c < 40) || c == 48 || decide (256 ≤ c)

/-- Offset of parameter register i of context n (R68). -/
def offParam (n i : Nat) : Nat := 0x1000 + n * 0x800 + 8 * i
def offCmd (n : Nat) : Nat := 0x100 + 0x20 * n
def offStat (n : Nat) : Nat := 0x108 + 0x20 * n
def offReplay (n : Nat) : Nat := 0x110 + 0x20 * n
def offTiles (n : Nat) : Nat := 0x118 + 0x20 * n
def offNumstat (n : Nat) : Nat := 0x500 + 8 * n
def offSeed (n : Nat) : Nat := 0x600 + 8 * n
def offFaultAt (n : Nat) : Nat := 0xD00 + 8 * n
def offFaultCt (n : Nat) : Nat := 0xD20 + 8 * n
def offFlagown (n : Nat) : Nat := 0xB40 + 8 * n
def offXstat (n : Nat) : Nat := 0xB60 + 8 * n
def offBind (n b : Nat) : Nat := 0x5000 + n * 0x100 + b * 0x10
def offSstat (n b : Nat) : Nat := 0x5008 + n * 0x100 + b * 0x10

/-- The value of source coding `c` for context `n` (R78). -/
def srcVal (k : Core) (n c : Nat) : W64 :=
  if c < 32 then (k.getCtx n).sreg c
  else if c < 40 then ((k.getCtx n).creg (c - 32)).setWidth 64
  else if 256 ≤ c then k.reg (offParam n (c - 256))
  else 0

/-- A destination that two slots may not share (R76). -/
inductive Dest where
  | reg (r : Nat)
  | cmp (n : Nat)
  deriving DecidableEq, Repr

/-- What a slot instruction sees when its bundle issues: the state before the bundle (R75), where it stands, and
its operand word. -/
structure BC where
  s : State
  core : Nat
  ctx : Nat
  slot : Slot
  hdr : W16
  op : W32
  deriving DecidableEq, Repr

namespace BC
def k (b : BC) : Core := b.s.core b.core
def x (b : BC) : Ctx := b.k.getCtx b.ctx
/-- The header's SPEC field: the tag of the bundle (R70, R71). -/
def tag (b : BC) : Nat := bits b.hdr 12 10
/-- The header's PCLASS mask. -/
def pclass (b : BC) : Nat := bits b.hdr 9 0
def cyc (b : BC) : Nat := b.s.cycOf b.core
/-- The bundle's address. -/
def pc (b : BC) : W32 := b.x.pc
def src (b : BC) (c : Nat) : W64 := srcVal b.k b.ctx c
def a (b : BC) : W64 := b.src (fSrc1 b.op)
def b2 (b : BC) : W64 := b.src (fSrc2 b.op)
def b3 (b : BC) : W64 := b.src (fSrc3 b.op)
end BC

/-- The meaning of a slot instruction in a bundle.  `judge` gives the fault causes that do not depend on a
register, `judgeV` those that do (R640); `reads` the source codings it reads; `dest` what it writes for R76;
`stall` whether it cannot issue yet; `onStall` what its stalling does; `jump` the target and bubble of a taken
branch; `eff` its effect, on the state as the earlier slots left it. -/
structure Sem where
  slots : List Slot
  judge : BC → List Nat := fun _ => []
  judgeV : BC → List Nat := fun _ => []
  reads : W32 → List Nat := fun _ => []
  dest : W32 → Option Dest := fun _ => none
  stall : BC → Bool := fun _ => false
  onStall : BC → State → State := fun _ s => s
  jump : BC → Option (W32 × Nat) := fun _ => none
  eff : BC → State → State := fun _ s => s

/-- The fault list of a condition. -/
def cause (c : Bool) (f : Nat) : List Nat := if c then [f] else []

/-- ILLEGAL where any of the listed field checks fails. -/
def illegalIf (c : Bool) : List Nat := cause c fILLEGAL

end Sys2Proof.Machine
end

