-- ==== Sys2Proof/Machine/Context.lean ====
section
/-! DEFINITION.
What happens to a context as a whole: descheduling, becoming ready, faults and the end of a task (spec 02,
R370–R372, R641). -/

namespace Sys2Proof.Machine

/-- The context that runs, if one does. -/
def Core.runningCtx (k : Core) : Option Nat := match k.phase with | .running n => some n | _ => none

/-- A running context is descheduled in cycle `c` (R37): two switch cycles follow, the second of them samples. -/
def State.deschedule (s : State) (i n c : Nat) (m : CtxMode) : State :=
  s.modCore i (fun k =>
    let k1 := k.modCtx n (fun x => { x with mode := m, after := none })
    match k1.phase with
    | .running r => if r = n then { k1 with phase := .switching n (c + 2), lastRun := n } else k1
    | _ => k1)

/-- The context of an unmet wait of a running bundle; nothing where the bundle already ended its issue (R100).  A bundle whose
S0 slot has descheduled it (ICACHE.LOCK, CONFIRM) holds the wait of its X slot beside that one: it waits for both (DEDUCED, log
entry 84). -/
def State.waitFor (s : State) (i n : Nat) (w : Wait) : State :=
  match (s.ctx i n).mode with
  | .running => s.deschedule i n (s.cycOf i) (.waiting w)
  | .waiting _ => s.modCtx i n (fun x => { x with after := some w })
  | _ => s

/-- What follows a wait met in cycle `t`, at canopy time `ct`: a second wait of the same bundle, unless its time has passed,
else the context is ready from t + 1 (R40). -/
def Ctx.onMet (x : Ctx) (t ct : Nat) : CtxMode :=
  match x.after with
  | none => .ready (t + 1)
  | some (.at target) => if target ≤ ct then .ready (t + 1) else .waiting (.at target)
  | some w => .waiting w

/-- Context `n`'s wait is met in cycle `t`: it is ready from t + 1 (R40), and a gated core begins to wake, to
sample in t + 3 (R44); where its bundle has a second wait, that one follows. -/
def State.makeReady (s : State) (i n t : Nat) : State :=
  s.modCore i (fun k =>
    let m := (k.getCtx n).onMet t (s.edgeCt i)
    let k1 := k.modCtx n (fun x => { x with mode := m, after := none })
    match m, k.power, k.phase with
    | .ready _, .run, .gated => { k1 with phase := .waking (t + 3) }
    | .ready _, .run, .idle => { k1 with phase := .waking (t + 3) }
    | _, _, _ => k1)

/-- The task of context `n` stops issuing and goes to step 2 of R54. -/
def State.stopTask (s : State) (i n : Nat) (abort : Bool) : State :=
  s.deschedule i n (s.cycOf i) (.ending abort)

/-- FAULTAT's word (R380, R641). -/
def faultAt (bundle : W32) (slot : Nat) (async mid : Bool) (stream : Nat) : W64 :=
  BitVec.ofNat 64 (bundle.toNat + slot * 2 ^ 32 + async.toNat * 2 ^ 36 + mid.toNat * 2 ^ 37 + stream * 2 ^ 38)

/-- Context `n` faults (R370): cause and place are recorded, CTX_FAULT is raised, the step fails where its release
has come (R372), and the steps of an END follow.  A cause met after the context has faulted in its task, or with
no task, is neither recorded nor raised (R371). -/
def State.faultCtx (s : State) (i n code : Nat) (rec_ : W64) : State :=
  let x := s.ctx i n
  if x.faulted ∨ x.mode.holdsTask = false then s
  else
    let s1 := s.modCore i (fun k =>
      (((k.setFld (offStat n) 23 16 code).setReg (offFaultAt n) rec_).setReg (offFaultCt n)
        (BitVec.ofNat 64 (s.edgeCt i))).modCtx n (fun x => { x with faulted := true }))
    let s2 := s1.raiseCore i 0
    let s3 := if s.phase = 2 ∨ s.phase = 3 then s2.failCurrent else s2
    match x.mode with
    | .ending _ => s3.modCtx i n (fun x => { x with mode := .ending true })
    | .closing _ => s3
    | .opening u _ => s3.modCtx i n (fun x => { x with mode := .opening u true })
    | _ => s3.stopTask i n true

/-- A fault raised by an arriving status or a long-running operation (ASYNC). -/
def State.faultAsync (s : State) (i n code slot : Nat) : State :=
  s.faultCtx i n code (faultAt (s.ctx i n).last slot true false 0)

/-- A fault raised by a stream row operation or program decode (MIDSTREAM, R302). -/
def State.faultStream (s : State) (i n code slot : Nat) : State :=
  s.faultCtx i n code (faultAt (s.ctx i n).last 5 false true slot)

/-! ### The region scoreboard (R61, R62) -/

def SbEntry.hits (e : SbEntry) (tiles : Bool) (first len : Nat) : Bool :=
  (e.tiles == tiles) && overlap e.first e.len first len

/-- Whether a region overlaps a held entry. -/
def Core.sbHit (k : Core) (tiles : Bool) (first len : Nat) : Bool := k.sb.any (fun e => e.hits tiles first len)

def Core.sbFull (k : Core) : Bool := decide (32 ≤ k.sb.length)

/-- Takes a scoreboard entry; its id is the core's next. -/
def Core.takeSb (k : Core) (tiles : Bool) (first len n : Nat) (u : SbUnit) (tag : Nat) : Core :=
  { k with sb := k.sb ++ [⟨k.nextId, tiles, first, len, n, u, tag⟩], nextId := k.nextId + 1 }

/-- Frees the entry with an id. -/
def Core.freeSb (k : Core) (id : Nat) : Core := { k with sb := k.sb.filter (fun e => e.id ≠ id) }

/-! ### Accumulator tiles (R145, R167, R58) -/

/-- Owned range of context `n`: base and count. -/
def Core.tileRange (k : Core) (n : Nat) : Nat × Nat := (k.fld (offTiles n) 8 0, k.fld (offTiles n) 25 16)

/-- Whether context `n` owns tiles first … first + len − 1. -/
def Core.ownsTiles (k : Core) (n first len : Nat) : Bool :=
  let r := k.tileRange n
  decide (r.1 ≤ first) && decide (first + len ≤ r.1 + r.2)

/-- The tag carried by tile `t`. -/
def Core.tagOfTile (k : Core) (t : Nat) : Nat := Tab.get 0 k.tileTag t

/-- Whether an instruction of tag `t` may read the tiles of a range (R167). -/
def Core.tilesReadable (k : Core) (t first len : Nat) : Bool :=
  (List.range len).all (fun j => let g := k.tagOfTile (first + j); g == 0 || g == t)

/-- Tags the tiles of a list. -/
def Core.tagTiles (k : Core) (l : List Nat) (t : Nat) : Core :=
  { k with tileTag := l.foldl (fun m j => Tab.store 0 m j t) k.tileTag }

/-- Key of element (i, j) of tile `t`. -/
def tileKey (t i j : Nat) : Nat := t * 1024 + i * 32 + j
def Core.tileEl (k : Core) (t i j : Nat) : W32 := Tab.get 0 k.tiles (tileKey t i j)
def Core.setTileEl (k : Core) (t i j : Nat) (v : W32) : Core := { k with tiles := Tab.store 0 k.tiles (tileKey t i j) v }

/-- Sets tile `t` to zero. -/
def Core.zeroTile (k : Core) (t : Nat) : Core := { k with tiles := Tab.eraseRange k.tiles (t * 1024) 1024 }

/-- Tiles of a range that the background clear has not reached (R58). -/
def Core.uncleared (k : Core) (first len : Nat) : List Nat :=
  k.clear.todo.filter (fun t => decide (first ≤ t) && decide (t < first + len))

/-- The range a tile access stalls on (R62): a held entry, or a tile not yet cleared. -/
def Core.tilesBusy (k : Core) (first len : Nat) : Bool := k.sbHit true first len || !(k.uncleared first len).isEmpty

/-- A stalled access moves the uncleared tiles it names to the head of the clear order (R58). -/
def State.rush (s : State) (i first len : Nat) : State :=
  let c := s.cycOf i
  s.modCore i (fun k =>
    let new := (k.uncleared first len).filter (fun t => k.clear.rush.all (fun r => r.1 ≠ t))
    { k with clear := { k.clear with rush := k.clear.rush ++ new.map (fun t => (t, c)) } })

/-! ### Sticky numeric flags (R192–R196) -/

/-- Flags raised for context `n` by an operation of tag `t`: into the status word, or held apart under the tag
(R195). -/
def State.raiseFlags (s : State) (i n t : Nat) (f : Flags) : State :=
  s.modCore i (fun k =>
    if t = 0 then k.setReg (offNumstat n) (k.reg (offNumstat n) ||| f.setWidth 64)
    else k.modCtx n (fun x => let g := x.getTag t; x.setTag t { g with held := g.held ||| f }))

/-- Whether a source carrying tag `g` may be read under tag `t`. -/
def tagOk (g t : Nat) : Bool := g == 0 || g == t

end Sys2Proof.Machine
end

