-- ==== Sys2Proof/Machine/Scalar.lean ====
section
/-! DEFINITION.
Scalar and comparator instructions (spec 03 R78–R82): the value each computes, shared by the cores and the
Adsiem-S processors, and its meaning as a slot of a bundle. -/

namespace Sys2Proof.Machine

/-! ### Values (R79) -/

def valAdd (a b : W64) : W64 := a + b
def valSub (a b : W64) : W64 := a - b
def valAnd (a b : W64) : W64 := a &&& b
def valOr (a b : W64) : W64 := a ||| b
def valXor (a b : W64) : W64 := a ^^^ b
/-- Shift amounts use the low 6 bits of the operand. -/
def valShl (a b : W64) : W64 := a <<< (b.toNat % 64)
def valShr (a b : W64) : W64 := a >>> (b.toNat % 64)
def valSra (a b : W64) : W64 := a.sshiftRight (b.toNat % 64)
def valMul (a b : W64) : W64 := a * b
/-- High 64 bits of the signed 128-bit product. -/
def valMulh (a b : W64) : W64 := BitVec.ofInt 64 ((a.toInt * b.toInt) / 2 ^ 64)
def valMin (a b : W64) : W64 := if a.slt b then a else b
def valMax (a b : W64) : W64 := if a.slt b then b else a
def valMinu (a b : W64) : W64 := if a.ult b then a else b
def valMaxu (a b : W64) : W64 := if a.ult b then b else a
/-- S.LIX: (rd << 27) | imm27, the immediate zero-extended. -/
def valLix (old : W64) (op : W32) : W64 := (old <<< 27) ||| BitVec.ofNat 64 (bits op 26 0)

/-- The condition codes (R82). -/
def condHolds (cc : Nat) (a b : W64) : Bool :=
  match cc with
  | 0 => a == b
  | 1 => a != b
  | 2 => a.slt b
  | 3 => !(a.slt b)
  | 4 => a.ult b
  | 5 => !(a.ult b)
  | 6 => true
  | _ => false

/-- A comparator's truth, on the operands it holds. -/
def Cmp.holds (c : Cmp) : Bool := condHolds c.cc.toNat c.a c.b

/-! ### Writing a scalar register from a bundle -/

/-- Writes rd; a result of latency above 1 makes rd readable only `lat` cycles after issue (R79, R80). -/
def State.writeReg (s : State) (i n r : Nat) (v : W64) (lat : Nat) : State :=
  let c := s.cycOf i
  s.modCtx i n (fun x =>
    let x1 := x.setSreg r v
    { x1 with late := if lat = 1 then Tab.erase x1.late r else Tab.put x1.late r (c + lat) })

/-- Scalar registers among source codings. -/
def regsRead (l : List Nat) : List Nat := l.filter (fun c => decide (c < 32))

/-- Form R: rd = f(a, b); bits [8:0] reserved. -/
def rSem (f : W64 → W64 → W64) (lat : Nat) : Sem where
  slots := [.s0, .s1]
  judge b := illegalIf (!srcOk (fSrc1 b.op) || !srcOk (fSrc2 b.op) || fSrc3 b.op != 0)
  reads op := regsRead [fSrc1 op, fSrc2 op]
  dest op := some (.reg (fRd op))
  eff b s := s.writeReg b.core b.ctx (fRd b.op) (f b.a b.b2) lat

/-- Form I: rd = f(a, sext(imm18)). -/
def iSem (f : W64 → W64 → W64) (lat : Nat) : Sem where
  slots := [.s0, .s1]
  judge b := illegalIf (!srcOk (fSrc1 b.op))
  reads op := regsRead [fSrc1 op]
  dest op := some (.reg (fRd op))
  eff b s := s.writeReg b.core b.ctx (fRd b.op) (f b.a (fImm18 b.op)) lat

/-- Form L with a zero immediate: rd = v, a value the context reads. -/
def rdSem (v : BC → W64) : Sem where
  slots := [.s0, .s1]
  judge b := illegalIf (bits b.op 26 0 != 0)
  dest op := some (.reg (fRd op))
  eff b s := s.writeReg b.core b.ctx (fRd b.op) (v b) 1

def semSAdd : Sem := rSem valAdd 1
def semSSub : Sem := rSem valSub 1
def semSAnd : Sem := rSem valAnd 1
def semSOr : Sem := rSem valOr 1
def semSXor : Sem := rSem valXor 1
def semSShl : Sem := rSem valShl 1
def semSShr : Sem := rSem valShr 1
def semSSra : Sem := rSem valSra 1
def semSMul : Sem := rSem valMul 3
def semSMulh : Sem := rSem valMulh 3
def semSMin : Sem := rSem valMin 1
def semSMax : Sem := rSem valMax 1
def semSMinu : Sem := rSem valMinu 1
def semSMaxu : Sem := rSem valMaxu 1
def semSAddi : Sem := iSem valAdd 1
def semSAndi : Sem := iSem valAnd 1
def semSOri : Sem := iSem valOr 1
def semSXori : Sem := iSem valXor 1
def semSShli : Sem := iSem valShl 1
def semSShri : Sem := iSem valShr 1
def semSSrai : Sem := iSem valSra 1
def semSMuli : Sem := iSem valMul 3

def semSLi : Sem where
  slots := [.s0, .s1]
  dest op := some (.reg (fRd op))
  eff b s := s.writeReg b.core b.ctx (fRd b.op) (fImm27 b.op) 1

def semSLix : Sem where
  slots := [.s0, .s1]
  reads op := [fRd op]
  dest op := some (.reg (fRd op))
  eff b s := s.writeReg b.core b.ctx (fRd b.op) (valLix (b.x.sreg (fRd b.op)) b.op) 1

/-- CLK.JOBEPOCH. -/
def rJobepoch : Nat := blkCLK + 0x28

def semSRdct : Sem := rdSem (fun b => BitVec.ofNat 64 (b.s.edgeCt b.core))
def semSRdjt : Sem := rdSem (fun b => BitVec.ofNat 64 (b.s.edgeCt b.core) - b.s.reg rJobepoch)
def semSRdcyc : Sem := rdSem (fun b => BitVec.ofNat 64 b.cyc)
def semSRdrep : Sem := rdSem (fun b => BitVec.ofNat 64 (b.k.fld (offReplay b.ctx) 31 0))
def semSRdns : Sem := rdSem (fun b => b.k.reg (offNumstat b.ctx))
/-- The logical core of a position, and 0 where none is mapped to it; the context in [17:16]. -/
def semSRdctx : Sem := rdSem (fun b => BitVec.ofNat 64 ((b.s.logicalOf b.core).getD 0 + b.ctx * 2 ^ 16))

/-- S.CLRNS clears the flags named in imm27[4:0]; bits [26:5] are reserved and rd must be zero (R79, R192). -/
def semSClrns : Sem where
  slots := [.s0, .s1]
  judge b := illegalIf (fRd b.op != 0 || bits b.op 26 5 != 0)
  eff b s := s.modCore b.core (fun k =>
    k.setReg (offNumstat b.ctx) (k.reg (offNumstat b.ctx) &&& ~~~(BitVec.ofNat 64 (bits b.op 4 0))))

/-! ### Comparators (R82) -/

/-- The comparator field [28:27]. -/
def fCmp (op : W32) : Nat := bits op 28 27

def semCSet : Sem where
  slots := [.s0, .s1]
  judge b := illegalIf (bits b.op 31 29 != 0 || !srcOk (fSrc1 b.op) || !srcOk (fSrc2 b.op) || bits b.op 8 3 != 0)
  reads op := regsRead [fSrc1 op, fSrc2 op]
  dest op := some (.cmp (fCmp op))
  eff b s := s.modCtx b.core b.ctx (fun x => x.setCmp (fCmp b.op) ⟨b.a, b.b2, BitVec.ofNat 3 (bits b.op 2 0)⟩)

def semCSeti : Sem where
  slots := [.s0, .s1]
  judge b := illegalIf (!srcOk (fSrc1 b.op))
  reads op := regsRead [fSrc1 op]
  dest op := some (.cmp (fCmp op))
  eff b s := s.modCtx b.core b.ctx (fun x =>
    x.setCmp (fCmp b.op) ⟨b.a, fImm18 b.op, BitVec.ofNat 3 (bits b.op 31 29)⟩)

def semCStep : Sem where
  slots := [.s0, .s1]
  judge b := illegalIf (bits b.op 31 29 != 0 || fSrc1 b.op != 48)
  dest op := some (.cmp (fCmp op))
  eff b s := s.modCtx b.core b.ctx (fun x =>
    let c := b.x.getCmp (fCmp b.op)
    x.setCmp (fCmp b.op) { c with a := c.a + fImm18 b.op })

/-- The comparator that C.RD reads: src1[1:0]. -/
def fRdCmp (op : W32) : Nat := bits op 19 18

def semCRd : Sem where
  slots := [.s0, .s1]
  judge b := illegalIf (bits b.op 26 20 != 0 || fSrc2 b.op != 48 || fSrc3 b.op != 0)
  dest op := some (.reg (fRd op))
  eff b s := s.writeReg b.core b.ctx (fRd b.op) (if (b.x.getCmp (fRdCmp b.op)).holds then 1 else 0) 1

/-- NOP: no effect; operand bits must be zero (R74). -/
def semNop : Sem where
  slots := [.s0, .s1, .m, .v, .f, .x]
  judge b := illegalIf (b.op != 0)

end Sys2Proof.Machine
end

