-- ==== Sys2Proof/Machine/Control.lean ====
section
/-! DEFINITION.
Branches, loops, waits, task, replay and cache instructions as slots of a bundle (spec 03 R83–R100, R643). -/

namespace Sys2Proof.Machine

/-! ### Branches (R83, R643) -/

/-- A branch target: the bundle's address plus the signed offset. -/
def relTarget (b : BC) : W32 := b.pc + (fImm18 b.op).setWidth 32

def semBr : Sem where
  slots := [.s0]
  judge b := illegalIf (fRd b.op != 0 || fSrc1 b.op != 0)
  jump b := some (relTarget b, 1)

def semBrC : Sem where
  slots := [.s0]
  judge b := illegalIf (bits b.op 31 29 != 0 || fSrc1 b.op != 0)
  jump b := if (b.x.getCmp (fCmp b.op)).holds then some (relTarget b, 1) else none

def semBrNc : Sem where
  slots := [.s0]
  judge b := illegalIf (bits b.op 31 29 != 0 || fSrc1 b.op != 0)
  jump b := if (b.x.getCmp (fCmp b.op)).holds then none else some (relTarget b, 1)

def semBrR : Sem where
  slots := [.s0]
  judge b := illegalIf (fRd b.op != 0 || !srcOk (fSrc1 b.op) || fSrc2 b.op != 48 || fSrc3 b.op != 0)
  reads op := regsRead [fSrc1 op]
  jump b := some (b.a.setWidth 32, 2)

def semCall : Sem where
  slots := [.s0]
  judge b := illegalIf (fRd b.op != 0 || fSrc1 b.op != 0)
  dest _ := some (.reg 31)
  jump b := some (relTarget b, 1)
  eff b s := s.writeReg b.core b.ctx 31 ((b.pc + 1).setWidth 64) 1

/-! ### Loops (R84–R87) -/

/-- The loop counter that LOOP names. -/
def fLoop (op : W32) : Nat := bits op 29 27
/-- The body end that LOOP names. -/
def loopEnd (b : BC) : W32 := b.pc + BitVec.ofNat 32 (fUimm18 b.op)

/-- Whether another active counter ends its body at `e` (R86). -/
def loopNest (x : Ctx) (c : Nat) (e : W32) : Bool :=
  (List.range 8).any (fun j => j ≠ c && x.creg j ≠ 0 && (Tab.get ⟨0, 0⟩ x.loops j).last == e)

def semLoop : Sem where
  slots := [.s0]
  judge b := illegalIf (bits b.op 31 30 != 0 || !srcOk (fSrc1 b.op) || fUimm18 b.op == 0 ||
      decide (131071 < fUimm18 b.op)) ++
    cause (loopNest b.x (fLoop b.op) (loopEnd b)) fLOOPNEST
  reads op := regsRead [fSrc1 op]
  jump b := if b.a.setWidth 32 = (0 : W32) then some (loopEnd b + 1, 1) else none
  eff b s := s.modCtx b.core b.ctx (fun x =>
    { x.setCreg (fLoop b.op) (b.a.setWidth 32) with
      loops := Tab.put x.loops (fLoop b.op) ⟨b.pc + 1, loopEnd b⟩ })

/-! ### Waits (R88–R94) -/

/-- Tokens a WAIT.Q sees (R89): rows present in a Forager queue, a read queue's tokens, a write queue's free
entries. -/
def Core.tokens (k : Core) (sel cyc : Nat) : Nat :=
  if sel < 8 then ((Tab.get {} k.fq sel).rows.filter (fun r => decide (r.at_ < cyc))).length
  else if sel < 12 then (Tab.get {} k.rq (sel - 8)).tokens
  else 16 - (Tab.get [] k.wq (sel - 12)).length

/-- Sync flag `f` of the core. -/
def Core.flag (k : Core) (f : Nat) : Bool := bit (k.reg 0xB10) f
def Core.setFlag (k : Core) (f : Nat) (v : Bool) : Core := k.setReg 0xB10 (setBit (k.reg 0xB10) f v)
/-- The sync flags at the start of cycle `c`, the present one, and those set in it. -/
def Core.flagsIn (k : Core) (c : Nat) : Nat × W64 × W64 := if k.flagMark.1 = c then k.flagMark else (c, k.reg 0xB10, 0)
/-- Whether flag `f` was set at the start of cycle `c`. -/
def Core.flagWas (k : Core) (f c : Nat) : Bool := bit (k.flagsIn c).2.1 f
/-- A signal sets flag `f` in cycle `c`. -/
def Core.signalFlag (k : Core) (f c : Nat) : Core :=
  let m := k.flagsIn c
  { k.setFlag f true with flagMark := (c, m.2.1, setBit m.2.2 f true) }
/-- A wait clears flag `f` in cycle `c`; set in the same cycle, it ends set (R13, R90). -/
def Core.takeFlag (k : Core) (f c : Nat) : Core :=
  let m := k.flagsIn c
  if bit m.2.2 f then k else { k.setFlag f false with flagMark := m }

/-- sign40 of R92. -/
def sign40 (x : Int) : Int := signed 40 (wrap 40 x)

/-- The signed distance of R92, in ct. -/
def waitAtDistance (b : BC) : Int :=
  let offset : Int := (b.a.toNat % 2 ^ 40 : Nat) + (fImm18 b.op).toInt
  let now : Int := (b.s.edgeCt b.core : Int) - (b.s.reg rJobepoch).toNat
  sign40 (offset - now)

def semWaitAt : Sem where
  slots := [.x]
  judge b := illegalIf (bits b.op 30 27 != 0 || !srcOk (fSrc1 b.op)) ++ cause (!(b.s.qualSeen b.core (b.s.edgeCt b.core))) fTIMEUNQ
  judgeV b := cause (b.s.qualSeen b.core (b.s.edgeCt b.core) && bit b.op 31 && decide (waitAtDistance b ≤ 0)) fWAITLATE
  reads op := regsRead [fSrc1 op]
  eff b s :=
    let d := waitAtDistance b
    if d ≤ 0 then s else s.waitFor b.core b.ctx (.at (b.s.edgeCt b.core + d.toNat))

/-- QSEL and N of a queue instruction. -/
def fQsel (op : W32) : Nat := bits op 31 27
def fQn (op : W32) : Nat := bits op 26 22

def semWaitQ : Sem where
  slots := [.x]
  judge b := illegalIf (decide (13 < fQsel b.op) || fQn b.op == 0 || decide (16 < fQn b.op) || bits b.op 21 0 != 0)
  eff b s :=
    if fQn b.op ≤ b.k.tokens (fQsel b.op) b.cyc then s
    else s.waitFor b.core b.ctx (.queue (fQsel b.op) (fQn b.op))

def semWaitF : Sem where
  slots := [.x]
  judge b := illegalIf (bits b.op 30 6 != 0) ++
    cause (!(bit (b.k.reg (offFlagown b.ctx)) (bits b.op 5 0))) fFLAGOWNER
  eff b s :=
    let f := bits b.op 5 0
    if b.k.flag f then (if bit b.op 31 then s.modCore b.core (fun k => k.takeFlag f b.cyc) else s)
    else s.waitFor b.core b.ctx (.flag (bit b.op 31) f)

def semWaitSb : Sem where
  slots := [.x]
  judge b := illegalIf (bits b.op 30 27 != 0 || !srcOk (fSrc1 b.op) || bits b.op 17 16 != 0)
  reads op := regsRead [fSrc1 op]
  eff b s :=
    let first := b.a.toNat % 2 ^ 16
    if b.k.sbHit (bit b.op 31) first (bits b.op 15 0) then
      s.waitFor b.core b.ctx (.region (bit b.op 31) first (bits b.op 15 0))
    else s

/-! ### The instruction cache (R63–R67, R99) -/

/-- The ways of a set that hold lines: keys set·4 + way. -/
def Core.way (k : Core) (w : Nat) : Option CacheLine := Tab.find k.icache w
def Core.wayOf (k : Core) (line : Nat) : Option Nat :=
  ((List.range 4).map (fun w => (line % 256) * 4 + w)).find? (fun w =>
    match k.way w with | some l => l.line == line | none => false)
def Core.present (k : Core) (line : Nat) : Bool := (k.wayOf line).isSome
def Core.filling (k : Core) (line : Nat) : Bool := k.fills.any (fun f => f.line == line)
/-- Locked ways of a set. -/
def Core.lockedWays (k : Core) (set : Nat) : Nat :=
  ((List.range 4).filter (fun w => match k.way (set * 4 + w) with | some l => l.locked | none => false)).length
/-- Locked lines of the cache (CORE.ICLOCK.LOCKED). -/
def Core.lockedLines (k : Core) : Nat := (k.icache.filter (fun p => p.2.locked)).length

/-- The way a fill takes (R63): the lowest invalid way, else the least recently used unlocked one. -/
def Core.victim (k : Core) (set : Nat) : Option Nat :=
  let ways := (List.range 4).map (fun w => set * 4 + w)
  match ways.find? (fun w => (k.way w).isNone) with
  | some w => some w
  | none =>
    ways.foldl (fun best w =>
      match k.way w with
      | some l =>
        if l.locked then best
        else match best with
          | none => some w
          | some v => (match k.way v with | some l' => if l.used < l'.used then some w else best | none => best)
      | none => best) none

/-- Puts a line into the cache as just used. -/
def Core.fillLine (k : Core) (line : Nat) : Core :=
  match k.victim (line % 256) with
  | none => k
  | some w => { k with icache := Tab.put k.icache w ⟨line, false, k.stamp⟩, stamp := k.stamp + 1 }

/-- A way counts as used each time a bundle issues from it. -/
def Core.useLine (k : Core) (line : Nat) : Core :=
  match k.wayOf line with
  | none => k
  | some w =>
    match k.way w with
    | none => k
    | some l => { k with icache := Tab.put k.icache w { l with used := k.stamp }, stamp := k.stamp + 1 }

/-- Locks a present line, unless it would be the fourth of its set, which sets ICLOCK.REFUSED (R65). -/
def Core.lockLine (k : Core) (line : Nat) : Core :=
  match k.wayOf line with
  | none => k
  | some w =>
    match k.way w with
    | none => k
    | some l =>
      if l.locked then k
      else if 3 ≤ k.lockedWays (line % 256) then k.setFld 0x28 16 16 1
      else { k with icache := Tab.put k.icache w { l with locked := true } }

/-- Whether a lock request is refused (R65). -/
def Core.lockRefused (k : Core) (line : Nat) : Bool :=
  match (k.wayOf line).bind k.way with
  | some l => !l.locked && decide (3 ≤ k.lockedWays (line % 256))
  | none => false
def State.lockLine (s : State) (i line : Nat) : State :=
  let s1 := s.modCore i (fun k => k.lockLine line)
  if (s.core i).lockRefused line then s1.mark (blkCORE i + 0x28) 16 else s1

def Core.unlockLine (k : Core) (line : Nat) : Core :=
  match k.wayOf line with
  | none => k
  | some w =>
    match k.way w with
    | none => k
    | some l => { k with icache := Tab.put k.icache w { l with locked := false } }

/-- The Cellar row that holds a line: IMAGE.ROW + ⌊bundle / 16⌋ (R374). -/
def Core.lineRow (k : Core) (line : Nat) : Nat := k.fld 0xD48 30 0 + line / 2
/-- The last Cellar row (R374). -/
def lastCellarRow : Nat := 1476562499

/-- Request credits in use (R291, R296): Cellar reads not landed, and fills that took one. -/
def Core.creditsUsed (k : Core) : Nat :=
  (k.rq.map (fun p => (p.2.entries.filter (fun e =>
    (match e.src with | .cellar _ => true | _ => false) && e.row.isNone && !e.err)).length)).sum +
  (k.fills.filter (fun f => f.credit)).length

/-- Starts a fill, with a request credit where one is free (R296), counted in CRDREQ. -/
def State.startFill (s : State) (i line ctx : Nat) (lock : Bool) : State :=
  let k := s.core i
  let credit := decide (k.creditsUsed < 16)
  let s1 := s.modCore i (fun k => { k with fills := k.fills ++ [⟨line, s.cycOf i, lock, ctx, credit⟩] })
  if credit then s1.count48 i 0x710 1 else s1

/-- The lines an ICACHE instruction names. -/
def icLines (b : BC) : List Nat :=
  (List.range (fUimm18 b.op)).map (fun j => (b.a.toNat % 2 ^ 32) / 8 + j)

def icJudge (b : BC) : List Nat :=
  illegalIf (fRd b.op != 0 || !srcOk (fSrc1 b.op) || fUimm18 b.op == 0 || decide (1024 < fUimm18 b.op))

/-- ICACHE.PRELOAD and LOCK fault where a named line lies beyond the last Cellar row (R99). -/
def icBeyond (b : BC) : List Nat :=
  illegalIf (decide (lastCellarRow < b.k.lineRow ((b.a.toNat % 2 ^ 32) / 8 + fUimm18 b.op - 1)))

def semIcachePreload : Sem where
  slots := [.s0]
  judge := icJudge
  judgeV := icBeyond
  reads op := regsRead [fSrc1 op]
  eff b s := (icLines b).foldl (fun s l =>
    if (s.core b.core).present l || (s.core b.core).filling l then s else s.startFill b.core l 4 false) s

def semIcacheLock : Sem where
  slots := [.s0]
  judge := icJudge
  judgeV := icBeyond
  reads op := regsRead [fSrc1 op]
  eff b s :=
    let s1 := (icLines b).foldl (fun s l =>
      if (s.core b.core).present l then s.lockLine b.core l
      else if (s.core b.core).filling l then s
      else s.startFill b.core l b.ctx true) s
    let todo := (icLines b).filter (fun l => !(b.k.present l))
    if todo.isEmpty then s1 else s1.waitFor b.core b.ctx (.lock todo)

def semIcacheUnlock : Sem where
  slots := [.s0]
  judge := icJudge
  reads op := regsRead [fSrc1 op]
  eff b s := s.modCore b.core (fun k => (icLines b).foldl (fun k l => k.unlockLine l) k)

/-! ### Tasks and the replay gate (R49, R53, R54, R98, R100) -/

/-- The tiles context `n` owns, ascending. -/
def Core.tilesOf (k : Core) (n : Nat) : List Nat := let r := k.tileRange n; (List.range r.2).map (fun j => r.1 + j)

/-- The context clear's first cycle, as the clear that opens or closes a task has it in common (R55, R56): the
registers, counters, comparators, parameter registers, replay counter, status word, seed, speculation state, the
context's flags, its scoreboard entries, bindings, windows, waggle queues, Forager queues and buffers. -/
def Core.zeroCtx (k : Core) (n : Nat) : Core :=
  let x := k.getCtx n
  let own := k.reg (offFlagown n)
  let k1 := k.setCtx n { mode := x.mode, faulted := x.faulted, last := x.last }
  let k2 := { k1 with
    regs := (k1.regs.filter (fun (p : Nat × W64) => ¬ (offParam n 0 ≤ p.1 ∧ p.1 < offParam n 256))).filter (fun (p : Nat × W64) =>
      ¬ (p.1 = offReplay n ∨ p.1 = offNumstat n ∨ p.1 = offSeed n))
    sb := k1.sb.filter (fun e => e.ctx ≠ n)
    fq := k1.fq.map (fun (p : Nat × FQueue) => (p.1, if p.2.owner = some n then {} else p.2))
    bufs := k1.bufs.filter (fun (p : Nat × TBuf) => p.2.owner ≠ some n)
    tileTag := k1.tileTag.filter (fun (p : Nat × Nat) => !(k.ownsTiles n p.1 1)) }
  let k3 := k2.setReg 0xB10 (k2.reg 0xB10 &&& ~~~own)
  (List.range 16).foldl (fun k b =>
    (k.setFld (offBind n b) 31 31 0).setFld (offSstat n b) 4 0 0) k3

/-- Owner of waggle queue `q`, if assigned (R347). -/
def Core.wqOwner (k : Core) (q : Nat) : Option Nat :=
  if bit (k.reg 0xB18) (32 + q) then some (bits (k.reg 0xB18) (2 * q + 1) (2 * q)) else none

/-- Closes and empties the context's waggle queues; `closing` advances their epochs (R55, R348). -/
def Core.closeQueues (k : Core) (n : Nat) (closing : Bool) : Core :=
  (List.range 16).foldl (fun k q =>
    if k.wqOwner q = some n then
      let w := Tab.get {} k.waggle q
      { k with waggle := Tab.put k.waggle q { epoch := if closing then w.epoch + 1 else w.epoch } }
    else k) k

/-- A new clear of context `n` begins in cycle `c`: its tiles leave the background clear of an earlier one, to be listed anew when
the register clear ends (R57, R59). -/
def Core.unlist (k : Core) (n c : Nat) : Core :=
  let mine := k.tilesOf n
  let todo := k.clear.todo.filter (fun t => !mine.contains t)
  { k with clear := {
      todo := todo, from_ := if todo.head? = k.clear.todo.head? then k.clear.from_ else c
      rush := k.clear.rush.filter (fun r => !mine.contains r.1) } }

/-- A task starts on context `n` at `entry` (R39, R53, R55): the clear that opens it begins in the present cycle. -/
def State.startTask (s : State) (i n : Nat) (entry : W32) : State :=
  let u := s.cycOf i + 256
  s.modCore i (fun k =>
    let k1 := ((k.zeroCtx n).closeQueues n false).unlist n (s.cycOf i)
    k1.modCtx n (fun x => { x with mode := .opening u false, pc := entry, fresh := true, faulted := false }))

def semTaskStart : Sem where
  slots := [.s0]
  judge b := illegalIf (bits b.op 31 29 != 0 || !srcOk (fSrc1 b.op) || fUimm18 b.op != 0) ++
    cause (b.k.holdsTask (fCmp b.op) || fCmp b.op == b.ctx) fTASK
  reads op := regsRead [fSrc1 op]
  eff b s := s.startTask b.core (fCmp b.op) (b.a.setWidth 32)

def semTaskEnd : Sem where
  slots := [.s0]
  judge b := illegalIf (b.op != 0)
  eff b s := s.stopTask b.core b.ctx false

def semReplayWait : Sem where
  slots := [.s0]
  judge b := illegalIf (b.op != 0)
  eff b s := s.waitFor b.core b.ctx .replay

end Sys2Proof.Machine
end

