-- ==== Sys2Proof/Machine/Matrix.lean ====
section
/-! DEFINITION.
Matrix arrays: gangs, masks, passes and their accumulation (spec 04). -/

namespace Sys2Proof.Machine

/-! ### Gangs (R107–R113) -/

/-- Rows and columns of arrays of a SHAPE code (R107); none for a reserved code. -/
def shapeOf : Nat → Option (Nat × Nat)
  | 0 => some (1, 1) | 1 => some (1, 2) | 2 => some (2, 1) | 3 => some (2, 2) | 4 => some (1, 4)
  | 5 => some (4, 1) | 6 => some (2, 4) | 7 => some (4, 2) | 8 => some (1, 8) | 9 => some (8, 1)
  | _ => none

def shapeRC (c : Nat) : Nat × Nat := (shapeOf c).getD (1, 1)
def shapeCount (c : Nat) : Nat := (shapeRC c).1 * (shapeRC c).2

/-- Arithmetic paths of R113: block-exact, exact integer, per-step FP32. -/
inductive Path where
  | block | integer | step
  deriving DecidableEq, Repr

/-- The float formats of the block-exact path: codes 0x0–0x4 and 0x9–0xD. -/
def blockFloat (c : Nat) : Bool := decide (c ≤ 4) || (decide (9 ≤ c) && decide (c ≤ 13))

/-- The path of a pairing of format codes (R113); none where it is not permitted. -/
def pairing (a b : Nat) : Option Path :=
  if blockFloat a && blockFloat b then some .block
  else if a = 14 ∧ b = 14 then some .block
  else if (a = 5 ∨ a = 6) ∧ (b = 5 ∨ b = 6) then some .integer
  else if (a = 7 ∧ b = 7) ∨ (a = 8 ∧ b = 8) then some .step
  else none

def narrow (c : Nat) : Bool := fmtWidth c == 4 || fmtWidth c == 6

/-- Cycles that `k` steps take (R113): rate 2 for two narrow operands, ½ at 16 bits, else 1. -/
def stepCycles (fa fb k : Nat) : Nat :=
  if fa = 7 ∨ fa = 8 then 2 * k else if narrow fa && narrow fb then k / 2 else k

/-- The gang with base `b`, if any. -/
def Core.gang (k : Core) (b : Nat) : Option Gang := Tab.find k.gangs b
def Core.setGang (k : Core) (b : Nat) (g : Gang) : Core := { k with gangs := Tab.put k.gangs b g }

/-- The gang that holds array `r`: its base and itself. -/
def Core.gangOf (k : Core) (r : Nat) : Option (Nat × Gang) :=
  k.gangs.find? (fun p => decide (p.1 ≤ r) && decide (r < p.1 + shapeCount p.2.shape))

/-- A gang with a pass accumulating, pending or draining. -/
def Gang.busy (g : Gang) : Bool := g.acc.isSome || g.pend.isSome || !g.drn.isEmpty

def fBase (op : W32) : Nat := bits op 31 29

/-- The arrays M.GANG names. -/
def gangArrays (op : W32) : List Nat := (List.range (shapeCount (bits op 28 25))).map (fun j => fBase op + j)

/-- R110 for M.PASS, M.PASSR, M.MASK and M.FREE: the base names no gang, or one of another context. -/
def gangCause (b : BC) : List Nat :=
  match b.k.gang (fBase b.op) with
  | none => [fGANGNONE]
  | some g => cause (g.ctx != b.ctx) fGANGOWNER

def semMGang : Sem where
  slots := [.m]
  judge b :=
    let sh := bits b.op 28 25
    illegalIf ((shapeOf sh).isNone || fBase b.op % shapeCount sh != 0 ||
      (pairing (bits b.op 24 21) (bits b.op 20 17)).isNone || bits b.op 15 0 != 0) ++
    cause ((gangArrays b.op).any (fun r => match b.k.gangOf r with | some p => p.2.ctx != b.ctx | none => false))
      fGANGOWNER
  stall b := (gangArrays b.op).any (fun r => match b.k.gangOf r with | some p => p.2.busy | none => false)
  eff b s := s.modCore b.core (fun k =>
    let named := gangArrays b.op
    let keep := k.gangs.filter (fun (p : Nat × Gang) =>
      !((List.range (shapeCount p.2.shape)).any (fun j => named.contains (p.1 + j))))
    let sh := bits b.op 28 25
    let g : Gang := {
      shape := sh, fmtA := bits b.op 24 21, fmtB := bits b.op 20 17, sat := bit b.op 16,
      rows := 32 * (shapeRC sh).1, cols := 32 * (shapeRC sh).2, ctx := b.ctx }
    { k with gangs := Tab.put keep (fBase b.op) g })

def semMMask : Sem where
  slots := [.m]
  judge b := gangCause b ++
    illegalIf (bits b.op 12 0 != 0 || (match b.k.gang (fBase b.op) with
      | some g => decide (32 * (shapeRC g.shape).1 < bits b.op 28 21 + 1) ||
          decide (32 * (shapeRC g.shape).2 < bits b.op 20 13 + 1)
      | none => false))
  eff b s := s.modCore b.core (fun k =>
    match k.gang (fBase b.op) with
    | none => k
    | some g => k.setGang (fBase b.op) { g with rows := bits b.op 28 21 + 1, cols := bits b.op 20 13 + 1 })

def semMFree : Sem where
  slots := [.m]
  judge b := gangCause b ++ illegalIf (bits b.op 28 0 != 0)
  stall b := match b.k.gang (fBase b.op) with | some g => g.busy | none => false
  eff b s := s.modCore b.core (fun k => { k with gangs := Tab.erase k.gangs (fBase b.op) })

/-! ### Issuing a pass (R120–R128, R136, R141, R152) -/

/-- Fields of a pass word: [28:18] KB, [17:9] TILE, [8:6] QA, [5:3] QB, [2] ADD. -/
def passK (w : W32) : Nat := 32 * (bits w 28 18 + 1)
def passTile (w : W32) : Nat := bits w 17 9
def passQa (w : W32) : Nat := bits w 8 6
def passQb (w : W32) : Nat := bits w 5 3
def passAdd (w : W32) : Bool := bit w 2

/-- CORE.CTXn.TILES.Z5. -/
def Core.z5 (k : Core) (n : Nat) : Bool := bit (k.reg (offTiles n)) 32

/-- The first tile a pass drains into (R136, R152). -/
def firstTile (k : Core) (n base shape : Nat) (w : W32) : Nat :=
  if k.z5 n then (k.tileRange n).1 + 2 * base + (passTile w % 2) * shapeCount shape else passTile w

/-- Whether context `n` may consume queue `q` (R288). -/
def Core.queueOk (k : Core) (n q : Nat) : Bool :=
  match (Tab.get {} k.fq q).owner with | some o => o == n | none => true

/-- Fault causes of a pass whose fields are those of `w`. -/
def passJudge (b : BC) (w : W32) : List Nat :=
  match b.k.gang (fBase b.op) with
  | none => []
  | some g =>
    let t := firstTile b.k b.ctx (fBase b.op) g.shape w
    let c := shapeCount g.shape
    illegalIf (passQa w == passQb w || bits w 1 0 != 0 || (b.k.z5 b.ctx && decide (2 ≤ passTile w))) ++
    cause (!(b.k.ownsTiles b.ctx t c)) fTILEOWNER ++
    cause (!(b.k.queueOk b.ctx (passQa w)) || !(b.k.queueOk b.ctx (passQb w))) fQUEUEOWNER ++
    cause (passAdd w && !(b.k.tilesReadable b.tag t c)) fSPECLEAK

/-- R128: every array of the gang needs its PCLASS bit. -/
def passPower (b : BC) : List Nat :=
  match b.k.gang (fBase b.op) with
  | none => []
  | some g => cause ((List.range (shapeCount g.shape)).any (fun j => !(b.pclass.testBit (fBase b.op + j)))) fPOWER

/-- The most recent pass of a gang. -/
def Gang.latest (g : Gang) : Option Pass := match g.pend with
  | some p => some p
  | none => match g.acc with | some p => some p | none => g.drn.getLast?.map (·.pass)

/-- Stalls of a pass at issue: a pass pending up to and including its first accumulate cycle (R120), the scoreboard but for the
case of R124, uncleared tiles. -/
def passStall (b : BC) (w : W32) : Bool :=
  match b.k.gang (fBase b.op) with
  | none => false
  | some g =>
    let t := firstTile b.k b.ctx (fBase b.op) g.shape w
    let c := shapeCount g.shape
    let free124 : Nat → Bool := fun id => match g.latest with
      | some p => passAdd w && p.entry == id && p.tiles.head? == some t
      | none => false
    g.pend.isSome || (match g.acc with | some p => decide (b.cyc ≤ p.first) | none => false) || b.k.sbFull || b.k.sb.any (fun e => e.hits true t c && !free124 e.id) ||
      !(b.k.uncleared t c).isEmpty

def passRush (b : BC) (w : W32) (s : State) : State :=
  match b.k.gang (fBase b.op) with
  | none => s
  | some g => s.rush b.core (firstTile b.k b.ctx (fBase b.op) g.shape w) (shapeCount g.shape)

/-- Issues the pass: it becomes the gang's pending pass and takes its scoreboard entry (R121). -/
def passIssue (b : BC) (w : W32) (s : State) : State :=
  s.modCore b.core (fun k =>
    match k.gang (fBase b.op) with
    | none => k
    | some g =>
      let t := firstTile b.k b.ctx (fBase b.op) g.shape w
      let c := shapeCount g.shape
      let p : Pass := {
        tiles := (List.range c).map (fun j => t + j), k := passK w, qa := passQa w, qb := passQb w,
        add := passAdd w, rows := g.rows, cols := g.cols, tag := b.tag, issued := b.cyc, bundle := b.pc,
        entry := k.nextId }
      (k.takeSb true t c b.ctx (.array (fBase b.op)) b.tag).setGang (fBase b.op) { g with pend := some p })

def semMPass : Sem where
  slots := [.m]
  judge b := gangCause b ++ passJudge b b.op ++ passPower b
  stall b := passStall b b.op
  onStall b s := passRush b b.op s
  eff b s := passIssue b b.op s

/-- The pass word of M.PASSR: fields [28:0] come from bits [28:0] of the source operand (R141). -/
def passrWord (b : BC) : W32 := BitVec.ofNat 32 ((b.src (bits b.op 28 20)).toNat % 2 ^ 29)

def semMPassr : Sem where
  slots := [.m]
  judge b := gangCause b ++ passPower b ++ illegalIf (!srcOk (bits b.op 28 20) || bits b.op 19 0 != 0)
  judgeV b := passJudge b (passrWord b)
  reads op := regsRead [bits op 28 20]
  stall b := passStall b (passrWord b)
  onStall b s := passRush b (passrWord b) s
  eff b s := passIssue b (passrWord b) s

/-! ### Cell arithmetic (R129–R135) -/

/-- Exponent s of the smallest positive value of a block-exact element. -/
def elemS (f : FloatFmt) : Int := 1 - (f.bias : Int) - f.mb
/-- Exponent u with 2^u above the largest finite magnitude. -/
def elemU (f : FloatFmt) : Int :=
  match f.sp with
  | .ieee => (2 ^ f.eb - 1 : Nat) - (f.bias : Int)
  | _ => (2 ^ f.eb : Nat) - (f.bias : Int)

/-- A finite element in units of 2^s. -/
def fixedOf (f : FloatFmt) (x : Nat) : Int :=
  let ex := (x >>> f.mb) % 2 ^ f.eb
  let m := x % 2 ^ f.mb
  let v : Nat := if ex = 0 then m else (2 ^ f.mb + m) * 2 ^ (ex - 1)
  if x.testBit (f.eb + f.mb) then - (v : Int) else v

/-- An integer rounded to a multiple of 2^d, to nearest, ties to even, in units of 2^d (R130). -/
def roundShift (x : Int) (d : Nat) : Int :=
  let r := roundNat .nearest 0 x.natAbs (2 ^ d)
  if x < 0 then - (r : Int) else r

/-- The weight exponent L of the block register (R129, R176). -/
def blockL (a b : Elem) : Int :=
  match a, b with
  | .flt f, .flt g =>
    let x := elemS f + elemS g
    let y := elemU f + elemU g - 42
    if x < y then y else x
  | _, _ => -12

/-- One product in units of 2^L (R129, R130). -/
def blockProd (a b : Elem) (x y : Nat) : Int :=
  match a, b with
  | .flt f, .flt g => roundShift (fixedOf f x * fixedOf g y) (blockL a b - (elemS f + elemS g)).toNat
  | .int w _, .int v _ => signed w x * signed v y
  | _, _ => 0

/-- The block register's final value (R129–R131): the sum of the block's products. -/
def blockSum (a b : Elem) (xs ys : List Nat) : Int := (List.zipWith (blockProd a b) xs ys).foldl (· + ·) 0

/-- The contribution of a block to a cell (R132, R133): the scaled sum, or the special value that replaces it. -/
def blockValue (a b : Elem) (sa sb : Nat) (xs ys : List Nat) : Num :=
  let vs := xs.map a.decode
  let ws := ys.map b.decode
  let prods := List.zipWith Num.mul vs ws
  let pinf := prods.any (fun p => p == .inf false)
  let ninf := prods.any (fun p => p == .inf true)
  if sa = 255 ∨ sb = 255 ∨ vs.any Num.isNan ∨ ws.any Num.isNan ∨ prods.any Num.isNan ∨ (pinf ∧ ninf) then .nan
  else if pinf then .inf false
  else if ninf then .inf true
  else
    let r := blockSum a b xs ys
    scaled (decide (r < 0)) r.natAbs (blockL a b + ((sa : Int) - 127) + ((sb : Int) - 127))

/-- One block of 32 steps in one cell: the new live register and the flags (R132–R135). -/
def cellBlock (p : Path) (sat : Bool) (a b : Elem) (sa sb : Nat) (live : W32) (xs ys : List Nat) : W32 × Flags :=
  match p with
  | .block => addFp32 sat live (blockValue a b sa sb xs ys)
  | .step =>
    (List.zip xs ys).foldl (fun acc e =>
      let r := addFp32 sat acc.1 ((a.decode e.1).mul (b.decode e.2))
      let f := if (a.decode e.1).isNan || (b.decode e.2).isNan then flagNAN else 0
      (r.1, (acc.2 ||| r.2) ||| f)) (live, 0)
  | .integer =>
    let wa := a.width
    let wb := b.width
    (List.zip xs ys).foldl (fun acc e =>
      let r := sat32 (acc.1.toInt + signed wa e.1 * signed wb e.2)
      (r.1, acc.2 ||| r.2)) (live, 0)

/-- The drained value of an element (R137). -/
def drainValue (p : Path) (sat add : Bool) (old live : W32) : W32 × Flags :=
  if add then
    match p with
    | .integer => sat32 (old.toInt + live.toInt)
    | _ => addFp32 sat old (ofFp32 live)
  else (live, 0)

/-! ### Operand panels (R114–R119) -/

/-- Rows held in a bit string, the first row lowest. -/
def rowsNat : List Row → Nat
  | [] => 0
  | r :: l => r.toNat + 2 ^ 4096 * rowsNat l

/-- Where a block of 32 steps of an operand of `n` elements per step and format `fmt` stands in its region: its first bit in the
data region, the first row of that region it uses, and its place in its group (R115, R116). -/
structure BlockNeed where
  bit0 : Nat
  row0 : Nat
  place : Nat
  deriving DecidableEq, Repr

def blockNeed (n fmt nb blk : Nat) : BlockNeed :=
  match fmtOf fmt with
  | none => ⟨0, 0, 0⟩
  | some f =>
    let j := blk % (if f.mx then 512 / n else nb)
    let sz := 32 * n * f.width
    { bit0 := j * sz, row0 := j * sz / 4096, place := j }

/-! ### Rows in the cycles of a pass (R115–R118) -/

/-- Steps completed after `j` accumulate cycles (R113). -/
def stepsBy (fa fb j : Nat) : Nat :=
  if fa = 7 ∨ fa = 8 then j / 2 else if narrow fa && narrow fb then 2 * j else j

/-- The first and the last step that accumulate cycle `j` performs. -/
def stepsIn (fa fb j : Nat) : Nat × Nat :=
  if fa = 7 ∨ fa = 8 then (j / 2, j / 2) else if narrow fa && narrow fb then (2 * j, 2 * j + 1) else (j, j)

/-- The region a step of an operand lies in: the ordinal of its first row among the operand's rows, whether a scale row stands
there, and the region's first step. -/
def regionOf (n : Nat) (f : Fmt) (step : Nat) : Nat × Bool × Nat :=
  if f.mx then
    let g := step / (32 * (512 / n))
    (g * (1 + 4 * f.width), true, g * (32 * (512 / n)))
  else (0, false, 0)

/-- Ordinals of the rows that hold a step's first and last bits. -/
def stepRows (n : Nat) (f : Fmt) (step : Nat) : Nat × Nat :=
  let r := regionOf n f step
  let b := (step - r.2.2) * n * f.width
  (r.1 + r.2.1.toNat + b / 4096, r.1 + r.2.1.toNat + (b + n * f.width - 1) / 4096)

/-- What an accumulate cycle needs of an operand: the ordinal of a scale row needed first in it, the ordinals of the first and
last data row it uses, and the ordinal up to which the rows are taken at its end (R118). -/
structure CycleNeed where
  scale : Option Nat
  lo : Nat
  hi : Nat
  upTo : Nat
  deriving DecidableEq, Repr

/-- The needs of the cycle that performs steps `k0` to `k1` of `k`, after which `d` steps are complete.  A scale row is taken in
the cycle in which it is needed (DESIGN CHOICE, log entry 115). -/
def cycleNeed (n : Nat) (f : Fmt) (k k0 k1 d : Nat) : CycleNeed :=
  let r := regionOf n f k0
  { scale := if r.2.1 && k0 == r.2.2 then some r.1 else none
    lo := (stepRows n f k0).1
    hi := (stepRows n f k1).2
    upTo :=
      if k ≤ d then (stepRows n f (k - 1)).2 + 1
      else if (regionOf n f d).1 = r.1 then (stepRows n f d).1 else (regionOf n f d).1 }

/-- Whether a row of a queue is present in cycle `c`; for a unit that holds, from the second cycle after it entered (R118). -/
def QRow.here (r : QRow) (hold : Bool) (c : Nat) : Bool := decide (r.at_ + hold.toNat < c)

/-- Rows of a queue that no unit takes in the present cycle. -/
def Core.free (k : Core) (q : Nat) : List QRow := ((Tab.get {} k.fq q).rows).filter (fun r => !r.used)

/-- Marks the first `n` rows of a queue that are not taken as taken in the present cycle. -/
def useRows : Nat → List QRow → List QRow
  | 0, l => l
  | _ + 1, [] => []
  | n + 1, r :: l => if r.used then r :: useRows (n + 1) l else { r with used := true } :: useRows n l

def Core.useRows (k : Core) (q n : Nat) : Core :=
  let f : FQueue := Tab.get {} k.fq q
  if n = 0 then k else { k with fq := Tab.put k.fq q { f with rows := Sys2Proof.Machine.useRows n f.rows } }

/-- Looking for rows of a queue: all there; one missing; or one whose tag may not be used, in reach. -/
inductive Look where
  | here (rows : List QRow)
  | lack
  | leak
  deriving DecidableEq, Repr

/-- Looks for `n` rows of tag `tag` from the `from_`-th row on. -/
def lookRows (tag c : Nat) (hold : Bool) : Nat → List QRow → Look
  | 0, _ => .here []
  | _ + 1, [] => .lack
  | n + 1, r :: l =>
    if !r.here hold c then .lack
    else if !tagOk r.tag tag then .leak
    else match lookRows tag c hold n l with
      | .here rs => .here (r :: rs)
      | x => x

/-- The rows an accumulate cycle uses, of which `popped` have been taken before it. -/
def lookNeed (k : Core) (q tag c popped : Nat) (hold : Bool) (d : CycleNeed) : Look :=
  lookRows tag c hold (d.hi + 1 - popped) (k.free q)

/-- The rows of the present block, extended by those of the cycle: `have_` rows of it are in hand, the block's first row being
ordinal `row0`; the scale row where the cycle brings one. -/
def capture (d : CycleNeed) (popped row0 : Nat) (have_ : List Row) (scale : Row) (rows : List QRow) : List Row × Row :=
  (have_ ++ (((rows.drop (row0 + have_.length - popped)).take (d.hi + 1 - (row0 + have_.length))).map (·.row)),
    match d.scale with | some x => (match rows[x - popped]? with | some r => r.row | none => scale) | none => scale)

/-- The elements of step `k` of a block: n of them, from the rows that hold the block. -/
def blockElems (d : BlockNeed) (n w : Nat) (rows : List Row) (i : Nat) : List Nat :=
  let x := rowsNat rows
  (List.range 32).map (fun k => field x ((d.bit0 - d.row0 * 4096) + (k * n + i) * w) w)

/-- The scale code of element i of a block. -/
def scaleCode (mx : Bool) (sc : Row) (place n i : Nat) : Nat := if mx then field sc.toNat (8 * (place * n + i)) 8 else 127

/-- Coordinates of the cells a mask leaves in, in key order. -/
def maskCells (rows cols : Nat) : List (Nat × Nat) :=
  (List.range rows).flatMap (fun i => (List.range cols).map (fun j => (i, j)))

/-- Accumulates one block in every cell of the mask (R105, R126). -/
def gangBlock (g : Gang) (p : Pass) (dA dB : BlockNeed) (rA rB : List Row) (scA scB : Row) : Tab W32 × Flags :=
  match fmtOf g.fmtA, fmtOf g.fmtB, pairing g.fmtA g.fmtB with
  | some fa, some fb, some path =>
    let n := 32 * (shapeRC g.shape).1
    let m := 32 * (shapeRC g.shape).2
    let old := if g.live.isEmpty then (maskCells p.rows p.cols).map (fun _ => (0 : W32)) else g.live.map (·.2)
    let colsB := (List.range p.cols).map (fun j => blockElems dB m fb.width rB j)
    let rowsA := (List.range p.rows).map (fun i => blockElems dA n fa.width rA i)
    let res := (List.zip (maskCells p.rows p.cols) old).map (fun c =>
      let i := c.1.1
      let j := c.1.2
      (256 * i + j, cellBlock path g.sat fa.el fb.el (scaleCode fa.mx scA dA.place n i)
        (scaleCode fb.mx scB dB.place m j) c.2 (rowsA.getD i []) (colsB.getD j [])))
    (res.map (fun c => (c.1, c.2.1)), res.foldl (fun f c => f ||| c.2.2) 0)
  | _, _, _ => (g.live, 0)

/-! ### The cycles of a pass -/

def Core.queue (k : Core) (q : Nat) : FQueue := Tab.get {} k.fq q
/-- Puts back the rows of a queue; an empty queue without reservations has no owner (R288). -/
def Core.setQueue (k : Core) (q : Nat) (rows : List QRow) : Core :=
  let f := k.queue q
  { k with fq := Tab.put k.fq q { f with rows := rows, owner := if rows.isEmpty && f.resv == 0 then none else f.owner } }

/-- A pass begins accumulating (R121): s = max(t + 3, σ of the previous pass + 1). -/
def Gang.start (g : Gang) (c : Nat) : Gang :=
  match g.pend, g.acc with
  | some p, none => if p.issued + 3 ≤ c then { g with pend := none, acc := some { p with first := c } } else g
  | _, _ => g

/-- The pass is abandoned (R119): its live values are discarded and it drains nothing. -/
def passDrop (k : Core) (b : Nat) (g : Gang) (p : Pass) : Core :=
  (k.freeSb p.entry).setGang b { g with acc := none, live := [] }

/-- Accumulate cycles of a pass: T. -/
def Gang.cycles (g : Gang) (p : Pass) : Nat := stepCycles g.fmtA g.fmtB p.k

/-- One accumulate cycle of pass `p` with the rows of both operands at hand: the rows it needs are read, those it is done with
taken, and with the last cycle of a block of 32 steps the block is accumulated in every cell (R105, R118, R129–R135). -/
def passStep (k : Core) (b : Nat) (g : Gang) (p : Pass) (fa fb : Fmt) (dA dB : CycleNeed) (rA rB : List QRow) : Core :=
  let n := 32 * (shapeRC g.shape).1
  let m := 32 * (shapeRC g.shape).2
  let nb := p.k / 32
  let blk := (stepsIn g.fmtA g.fmtB p.done).1 / 32
  let a := capture dA p.popA (stepRows n fa (32 * blk)).1 p.stA p.scA rA
  let c := capture dB p.popB (stepRows m fb (32 * blk)).1 p.stB p.scB rB
  let full := decide (32 * (blk + 1) ≤ stepsBy g.fmtA g.fmtB (p.done + 1))
  let r := if full then gangBlock g p (blockNeed n g.fmtA nb blk) (blockNeed m g.fmtB nb blk) a.1 c.1 a.2 c.2 else (g.live, 0)
  let q : Pass := { p with
    done := p.done + 1, hold := false, stA := if full then [] else a.1, stB := if full then [] else c.1, scA := a.2, scB := c.2
    popA := dA.upTo, popB := dB.upTo, flags := p.flags ||| r.2 }
  ((k.useRows p.qa (dA.upTo - p.popA)).useRows p.qb (dB.upTo - p.popB)).setGang b { g with live := r.1, acc := some q }

/-- Cycle `c` of the accumulating pass of gang `b`: an accumulate cycle, or a hold, which counts (R118), or the fault of R119. -/
def passCycle (s : State) (i b c : Nat) : State :=
  match (s.core i).gang b with
  | none => s
  | some g0 =>
    let g := g0.start c
    let s0 := s.modCore i (fun k => k.setGang b g)
    match g.acc, fmtOf g.fmtA, fmtOf g.fmtB with
    | some p, some fa, some fb =>
      if g.cycles p ≤ p.done then s0
      else
        let st := stepsIn g.fmtA g.fmtB p.done
        let d := stepsBy g.fmtA g.fmtB (p.done + 1)
        let dA := cycleNeed (32 * (shapeRC g.shape).1) fa p.k st.1 st.2 d
        let dB := cycleNeed (32 * (shapeRC g.shape).2) fb p.k st.1 st.2 d
        match lookNeed (s0.core i) p.qa p.tag c p.popA p.hold dA, lookNeed (s0.core i) p.qb p.tag c p.popB p.hold dB with
        | .leak, _ | _, .leak => (s0.modCore i (fun k => passDrop k b g p)).faultAsync i g.ctx fSPECLEAK 3
        | .here rA, .here rB => s0.modCore i (fun k => passStep k b g p fa fb dA dB rA rB)
        | _, _ => (s0.count48 i 0x408 1).modCore i (fun k =>
          k.setGang b { g with acc := some { p with hold := true, holds := p.holds + 1 } })
    | _, _, _ => s0

/-- The swap at the end of cycle `c` (R106, R121, R122): where the pass has done its accumulate cycles and 32b cycles have passed
since the swap before, σ = max(e, σ of the previous pass + 32b), the live values move to the drain registers. -/
def Gang.swapAt (g : Gang) (c : Nat) : Gang :=
  match g.acc with
  | none => g
  | some p =>
    if g.cycles p ≤ p.done ∧ (match g.swap with | some x => x + 32 * (shapeRC g.shape).2 | none => 0) ≤ c then
      { g with acc := none, drn := g.drn ++ [⟨p, c, g.live⟩], live := [], swap := some c }
    else g

/-- Writes gang column `j` of a drain into its tiles (R136, R137), which take the pass's tag. -/
def drainColumn (k : Core) (g : Gang) (d : Drain) (path : Path) (j : Nat) : Core × Flags :=
  let b := (shapeRC g.shape).2
  let r := (d.cells.filter (fun e => e.1 % 256 == j)).foldl (fun acc e =>
    let i := e.1 / 256
    let t := d.pass.tiles.getD ((i / 32) * b + j / 32) 0
    let v := drainValue path g.sat d.pass.add (acc.1.tileEl t (i % 32) (j % 32)) e.2
    (acc.1.setTileEl t (i % 32) (j % 32) v.1, acc.2 ||| v.2)) (k, (0 : Flags))
  (r.1.tagTiles (((List.range (shapeRC g.shape).1).map (fun x => d.pass.tiles.getD (x * b + j / 32) 0))) d.pass.tag, r.2)

/-- What the end of cycle `c` does to one drain of gang `b`: column c − σ − 3 is written; with the last one, in cycle σ + 2 + 32b,
the entry frees, the flags enter and the pass counts (R121, R137). -/
def drainCycle (i b c : Nat) (s : State) (d : Drain) : State :=
  match (s.core i).gang b with
  | none => s
  | some g =>
    match pairing g.fmtA g.fmtB with
    | none => s
    | some path =>
      if c < d.swap + 3 then s
      else
        let r := drainColumn (s.core i) g d path (c - d.swap - 3)
        let d1 : Drain := { d with pass := { d.pass with flags := d.pass.flags ||| r.2 } }
        if c + 1 < d.swap + 3 + 32 * (shapeRC g.shape).2 then
          s.setCore i (r.1.setGang b { g with drn := g.drn.map (fun x => if x.swap = d.swap then d1 else x) })
        else
          let k := (r.1.freeSb d.pass.entry).setGang b { g with drn := g.drn.filter (fun x => x.swap ≠ d.swap) }
          ((s.setCore i k).raiseFlags i g.ctx d.pass.tag d1.pass.flags).count48 i 0x410 1

/-- The end of cycle `c` for gang `b`: its drains, then its swap. -/
def gangEnd (s : State) (i c b : Nat) : State :=
  match (s.core i).gang b with
  | none => s
  | some g =>
    (g.drn.foldl (drainCycle i b c) s).modCore i (fun k => match k.gang b with
      | some h => k.setGang b (h.swapAt c)
      | none => k)

end Sys2Proof.Machine
end

