-- ==== Sys2Proof/Machine/Moves.lean ====
section
/-! DEFINITION.
The accumulator store's ports, tile ownership and tile moves, and the slice write port (spec 05 R143–R153,
08 R237–R240). -/

namespace Sys2Proof.Machine

/-! ### Ports held by instructions -/

/-- Whether a V.OP uses tiles, and so port T: a source coded 12 or DK = 1 (R203). -/
def SvuOp.usesTiles (o : SvuOp) : Bool := bits o.desc 21 18 == 12 || bits o.desc 25 22 == 12 || bits o.desc 17 16 == 1

/-- Port T is held by a tile move, an SVU tile transfer, or a V.BLD from a tile (R143, R144). -/
def Core.portT (k : Core) : Bool :=
  k.move.isSome || (match k.svu with | some o => o.usesTiles | none => false) || k.svuTail.any SvuOp.usesTiles ||
    (match k.bld with | some b => b.src == 12 | none => false)

/-- Units for the write-port rule: the tile moves, the SVU, the epilogue chain, and CONFIRM (R238, R321). -/
def SbUnit.portClass : SbUnit → Nat
  | .tile => 0 | .svu => 1 | .epilogue => 2 | .confirm => 3 | _ => 4

/-- Whether a unit must stall for the write port (R238). -/
def Core.portBusy (k : Core) (u : SbUnit) : Bool :=
  match k.wport with | some (v, _) => v.portClass != u.portClass | none => false

/-- Takes the write port for the operation whose scoreboard entry is `id`. -/
def Core.takePort (k : Core) (u : SbUnit) (id : Nat) : Core := { k with wport := some (u, id) }

/-- Releases the write port if the operation with entry `id` still is the latest holder (R239). -/
def Core.freePort (k : Core) (id : Nat) : Core :=
  match k.wport with | some (_, j) => if j = id then { k with wport := none } else k | none => k

/-! ### Tiles as rows -/

/-- The 128 words of a row. -/
def rowWords (r : Row) : List W32 := (List.range 128).map (fun e => BitVec.ofNat 32 (field r.toNat (32 * e) 32))

/-- A row from values of `w` bits, packed from bit 0 (R173). -/
def packRow (w : Nat) (l : List Nat) : Row :=
  BitVec.ofNat 4096 (l.foldr (fun v acc => v % 2 ^ w + 2 ^ w * acc) 0)

/-! ### Access to rows under a tag (R167, R228, R318) -/

/-- Whether a read of a range of home-slice rows by an instruction of tag `t` breaks R318. -/
def BC.readLeak (b : BC) (first len : Nat) : Bool := b.k.shares first len && !(b.k.inExtent b.ctx b.tag first len)

/-- Whether a write breaks it: a tagged write, or one of tagged data, goes only to shadow rows of the tag. -/
def BC.writeLeak (b : BC) (first len : Nat) (tagged : Bool) : Bool :=
  (b.k.shares first len || tagged || b.tag != 0) && !(b.k.inExtent b.ctx b.tag first len)

/-! ### TM.LD and TM.ST (R148–R150, R165, R168) -/

def tmRow (b : BC) : Nat := bits b.a 15 0
def tmTile (b : BC) : Nat := bits b.op 17 9
def tmNt (b : BC) : Nat := bits b.op 8 3 + 1

def tmJudge (b : BC) : List Nat :=
  illegalIf (bits b.op 31 27 != 0 || bits b.op 2 0 != 0 || !srcOk (fSrc1 b.op) || decide (511 < tmTile b + tmNt b - 1)) ++
  cause (!(b.k.ownsTiles b.ctx (tmTile b) (tmNt b))) fTILEOWNER

def tmRange (b : BC) : List Nat := illegalIf (decide (49151 < tmRow b + 8 * tmNt b - 1))

/-- Whether a transfer holds one of the read ports of a mask in cycle `cyc` (R336). -/
def Core.sendHolds (k : Core) (mask cyc : Nat) : Bool :=
  k.sends.any (fun x => decide (cyc ≤ x.issued + x.n) && (x.port &&& mask) != 0)

/-- Whether read port 1 is held (R165, R336). -/
def Core.port1Held (k : Core) (cyc : Nat) : Bool :=
  (match k.move with | some m => m.ld | none => false) ||
    (!k.mvp.passes.isEmpty && decide (cyc < k.mvp.nextPass) && decide (2 ≤ k.mvp.ports)) || k.sendHolds 2 cyc

/-- Issues a tile move. -/
def tmIssue (ld : Bool) (b : BC) (s : State) : State :=
  s.modCore b.core (fun k =>
    let m : TileMove := {
      ld := ld, row := tmRow b, tile := tmTile b, nt := tmNt b, ctx := b.ctx, tag := b.tag, issued := b.cyc,
      entry := k.nextId }
    let k1 :=
      if ld then k.takeSb true (tmTile b) (tmNt b) b.ctx .tile b.tag
      else (k.takePort .tile k.nextId).takeSb false (tmRow b) (8 * tmNt b) b.ctx .tile b.tag
    { k1 with move := some m })

def semTmLd : Sem where
  slots := [.m]
  judge := tmJudge
  judgeV b := tmRange b ++ cause (b.readLeak (tmRow b) (8 * tmNt b)) fSPECLEAK
  reads op := regsRead [fSrc1 op]
  stall b := b.k.sbHit false (tmRow b) (8 * tmNt b) || b.k.tilesBusy (tmTile b) (tmNt b) || b.k.sbFull ||
    b.k.portT || b.k.port1Held b.cyc
  onStall b s := s.rush b.core (tmTile b) (tmNt b)
  eff := tmIssue true

def semTmSt : Sem where
  slots := [.m]
  judge b := tmJudge b ++ cause (!(b.k.tilesReadable b.tag (tmTile b) (tmNt b))) fSPECLEAK
  judgeV b := tmRange b ++ cause (b.writeLeak (tmRow b) (8 * tmNt b) false) fSPECLEAK
  reads op := regsRead [fSrc1 op]
  stall b := b.k.tilesBusy (tmTile b) (tmNt b) || b.k.sbHit false (tmRow b) (8 * tmNt b) || b.k.sbFull ||
    b.k.portT || b.k.portBusy .tile
  onStall b s := s.rush b.core (tmTile b) (tmNt b)
  eff := tmIssue false

/-- A row written by a core's own operation, under a tag where the operation carries one (R321). -/
def State.writeOwn (s : State) (i n tag r : Nat) (v : Row) : State :=
  let s1 := s.writeComb i r v
  if tag = 0 then s1
  else s1.modCtx i n (fun x =>
    let g := x.getTag tag
    if g.written.contains r then x
    else x.setTag tag { g with written := g.written.filter (· < r) ++ [r] ++ g.written.filter (r < ·) })

def State.writeOwns (s : State) (i n tag r : Nat) : List Row → State
  | [] => s
  | v :: l => (s.writeOwn i n tag r v).writeOwns i n tag (r + 1) l

/-- Notes a local access of row `r`'s bank in cycle `c` (R235). -/
def Core.noteBank (k : Core) (r c : Nat) : Core :=
  { k with bankUse := (c, (if k.bankUse.1 = c then k.bankUse.2 else []) ++ [r % 16]) }

/-- A local read of row `r` in cycle `c`: its bank's cycle, and the row unless it holds an uncorrectable word, which faults
context `n` (R234–R236, R261). -/
def State.readLocal (s : State) (i n r c slot : Nat) : State × Option Row :=
  match (s.modCore i (fun k => k.noteBank r c)).readComb i r with
  | (s1, some v) => (s1, some v)
  | (s1, none) => (s1.faultAsync i n fCOMBUE slot, none)

/-- The move is over: its entry frees, and its write port. -/
def Core.endMove (k : Core) (m : TileMove) : Core := { (k.freeSb m.entry).freePort m.entry with move := none }

/-- The four rows of tile `t` that Comb row `x` of 8 holds (R148): their words. -/
def Core.tileQuarter (k : Core) (t x : Nat) : List W32 :=
  (List.range 128).map (fun e => k.tileEl t (4 * x + e / 32) (e % 32))

/-- Writes them. -/
def Core.putQuarter (k : Core) (t x : Nat) (ws : List W32) : Core :=
  ws.zipIdx.foldl (fun k e => k.setTileEl t (4 * x + e.2 / 32) (e.2 % 32) e.1) k

/-- What a tile move reads in cycle `c`: Comb row m at t + 2 + m, or tile rows through port T at t + 1 + m (R150).  An
uncorrectable row ends it (R261). -/
def moveRead (s : State) (i c : Nat) : State :=
  match (s.core i).move with
  | none => s
  | some m =>
    if m.ld then
      let x := c - (m.issued + 2)
      if c < m.issued + 2 ∨ 8 * m.nt ≤ x then s
      else match s.readLocal i m.ctx (m.row + x) c 3 with
        | (s1, none) => s1.modCore i (fun k => k.endMove m)
        | (s1, some v) => s1.modCore i (fun k => { k with move := some { m with got := m.got ++ [v] } })
    else
      let x := c - (m.issued + 1)
      if c < m.issued + 1 ∨ 8 * m.nt ≤ x then s
      else s.modCore i (fun k => { k with move := some { m with
        got := m.got ++ [packRow 32 ((k.tileQuarter (m.tile + x / 8) (x % 8)).map (·.toNat))] } })

/-- What a tile move writes at the end of cycle `c`: four tile rows at t + 4 + m, or Comb row m at t + 3 + m; with the last one
its entry frees (R150). -/
def moveWrite (s : State) (i c : Nat) : State :=
  match (s.core i).move with
  | none => s
  | some m =>
    match m.got with
    | [] => s
    | v :: rest =>
      let c0 := m.issued + (if m.ld then 4 else 3)
      let x := c - c0
      if c < c0 then s
      else
        let s1 :=
          if m.ld then s.modCore i (fun k =>
            (k.putQuarter (m.tile + x / 8) (x % 8) (rowWords v)).tagTiles [m.tile + x / 8] m.tag)
          else s.writeOwn i m.ctx m.tag (m.row + x) v
        s1.modCore i (fun k =>
          if x + 1 = 8 * m.nt then k.endMove m else { k with move := some { m with got := rest } })

/-- The Comb row a tile move writes at the end of cycle `c`. -/
def TileMove.writes (m : TileMove) (c : Nat) : List Nat :=
  if !m.ld && decide (m.issued + 3 ≤ c) && decide (c < m.issued + 3 + 8 * m.nt) then [m.row + (c - m.issued - 3)] else []

/-! ### CORE.CTXn.TILES (R146, R169) -/

/-- A write to CORE.CTXn.TILES: accepted only where the context holds no task, its tiles are clear, and the range
is legal; otherwise REFUSED is set. -/
def tilesWrite (s : State) (i n : Nat) (v : W64) : State :=
  let k := s.core i
  let base := bits v 8 0
  let count := bits v 25 16
  let mine := k.tileRange n
  let clear := k.holdsTask n == false && (k.uncleared mine.1 mine.2).isEmpty
  let free := [0, 1, 2, 3].all (fun m => m == n || (let r := k.tileRange m; !overlap base count r.1 r.2))
  let s1 := if bit v 63 then s.coreClear i (offTiles n) 63 else s
  if bits (k.reg (offTiles n)) 32 0 = bits v 32 32 * 2 ^ 32 + count * 2 ^ 16 + base then s1
  else if clear && decide (base + count ≤ 512) && free then
    s1.modCore i (fun k => ((k.setFld (offTiles n) 8 0 base).setFld (offTiles n) 25 16 count).setFld (offTiles n) 32 32 (bits v 32 32))
  else s1.coreEvent i (offTiles n) 63

end Sys2Proof.Machine
end

