-- ==== Sys2Proof/Machine/Mvp.lean ====
section
/-! DEFINITION.
The matrix-vector path (spec 05 R154–R169). -/

namespace Sys2Proof.Machine

/-- Another context holds the MVP (R154). -/
def mvpOther (b : BC) : Bool := match b.k.mvp.claim with | some n => n != b.ctx | none => false
/-- The issuing context does not hold the MVP. -/
def mvpNotMine (b : BC) : Bool := b.k.mvp.claim != some b.ctx

/-- Largest K a slot holds in a format of `w` bits (R156). -/
def slotCap (w : Nat) : Nat := if w = 16 then 8192 else 16384

def mvK (op : W32) : Nat := 32 * (bits op 14 6 + 1)

def semMvCfg : Sem where
  slots := [.m]
  judge b :=
    let fw := bits b.op 31 28
    let fv := bits b.op 27 24
    illegalIf (bits b.op 5 0 != 0 || (pairing fw fv).isNone || fmtWidth fw == 6 || fmtWidth fv == 6 ||
      decide (8 < bits b.op 20 18 + bits b.op 23 21 + 1) || bits b.op 17 16 == 0 ||
      decide (slotCap (fmtWidth fv) < mvK b.op) || (fmtWidth fw == 4 && mvK b.op % 64 != 0)) ++
    cause (mvpOther b) fMVPOWNER
  stall b := !b.k.mvp.passes.isEmpty || b.k.mvp.load.isSome || b.k.mvp.clearEnd.isSome
  eff b s := s.modCore b.core (fun k => { k with mvp := { k.mvp with
    claim := some b.ctx, fmtW := bits b.op 31 28, fmtV := bits b.op 27 24, nv := bits b.op 23 21 + 1,
    v0 := bits b.op 20 18, ports := bits b.op 17 16, sat := bit b.op 15, k := mvK b.op } })

/-- MV.PASS still streams weights (R159, R163). -/
def Core.mvReading (k : Core) (cyc : Nat) : Bool := !k.mvp.passes.isEmpty && decide (cyc < k.mvp.nextPass)

/-- Data rows of one vector: ⌈K·w/4096⌉ (R157). -/
def vecRows (fmt k : Nat) : Nat := (k * fmtWidth fmt + 4095) / 4096
/-- Rows of one vector in the load stream. -/
def vecSpan (fmt k : Nat) : Nat := vecRows fmt k + (match fmtOf fmt with | some f => f.mx.toNat | none => 0)

def semMvLdv : Sem where
  slots := [.m]
  judge b :=
    illegalIf (bits b.op 22 0 != 0 || decide (8 < bits b.op 28 26 + bits b.op 25 23 + 1)) ++
    cause (mvpNotMine b) fMVPOWNER ++ cause (!(b.k.queueOk b.ctx (bits b.op 31 29))) fQUEUEOWNER
  stall b := b.k.mvReading b.cyc || b.k.mvp.load.isSome
  eff b s := s.modCore b.core (fun k => { k with mvp := { k.mvp with load := some {
    q := bits b.op 31 29, s := bits b.op 28 26, c := bits b.op 25 23 + 1, ctx := b.ctx, tag := b.tag, issued := b.cyc,
    bundle := b.pc } } })

/-- The vector buffer and slots after a load of the rows `all` (R156, R157): of an MX format the first row of a vector holds its
scales. -/
def Mvp.loaded (v : Mvp) (l : VLoad) (all : List Row) : Mvp :=
  let span := vecSpan v.fmtV v.k
  let mx := decide (span ≠ vecRows v.fmtV v.k)
  let buf := (List.range l.c).foldl (fun m j =>
    let mine := (all.drop (j * span)).take span
    let data := if mx then mine.drop 1 else mine
    let m1 := if mx then Tab.put m ((l.s + j) * 33 + 32) (mine.headD 0) else m
    (List.zip (List.range data.length) data).foldl (fun m e => Tab.put m ((l.s + j) * 33 + e.1) e.2) m1) v.buf
  let slots := (List.range l.c).foldl (fun m j => Tab.put m (l.s + j) ⟨true, v.fmtV, v.k, l.tag⟩) v.slots
  { v with load := none, buf := buf, slots := slots }

/-- Cycle `c` of a vector load: it consumes a row, or holds where the queue has none (R157), or faults where the row carries
another tag (R158). -/
def loadCycle (s : State) (i c : Nat) : State :=
  let v := (s.core i).mvp
  match v.load with
  | none => s
  | some l =>
    if c ≤ l.issued ∨ vecSpan v.fmtV v.k * l.c ≤ l.got.length then s
    else
      match lookRows l.tag c l.hold 1 ((s.core i).free l.q) with
      | .leak => (s.modCore i (fun k => { k with mvp := { k.mvp with load := none } })).faultAsync i l.ctx fSPECLEAK 3
      | .here rows => s.modCore i (fun k => { k.useRows l.q 1 with mvp := { k.mvp with load := some { l with
          got := l.got ++ rows.map (·.row), hold := false } } })
      | .lack => s.modCore i (fun k => { k with mvp := { k.mvp with load := some { l with holds := l.holds + 1, hold := true } } })

/-- At the end of a cycle a load that has consumed its last row is complete (R157, R158). -/
def loadEnd (k : Core) : Core :=
  match k.mvp.load with
  | some l => if vecSpan k.mvp.fmtV k.mvp.k * l.c ≤ l.got.length then { k with mvp := k.mvp.loaded l l.got } else k
  | none => k

/-! ### MV.PASS (R158–R163) -/

/-- KC: steps of K in a chunk. -/
def mvKc (fw : Nat) : Nat := 256 / fmtWidth fw
/-- D: cycles of stream of an output block at two ports. -/
def mvD (fw k : Nat) : Nat :=
  k / mvKc fw + (match fmtOf fw with | some f => if f.mx then (k + 1023) / 1024 else 0 | none => 0)
def mvF (ports : Nat) : Nat := if ports = 3 then 1 else 2

def mvWrow (b : BC) : Nat := bits b.a 15 0
def mvNb (b : BC) : Nat := bits b.op 8 1 + 1
def mvTile (b : BC) : Nat := bits b.op 17 9
/-- NT: tiles of one vector's results. -/
def mvNt (nb : Nat) : Nat := (nb + 31) / 32
def mvRows (b : BC) : Nat := 2 * mvNb b * mvD b.k.mvp.fmtW b.k.mvp.k
def mvTiles (b : BC) : Nat := b.k.mvp.nv * mvNt (mvNb b)

/-- The slots in force for a pass. -/
def mvSlots (v : Mvp) : List Nat := (List.range v.nv).map (fun u => v.v0 + u)

def semMvPass : Sem where
  slots := [.m]
  judge b :=
    let v := b.k.mvp
    let slots := (mvSlots v).map (fun j => Tab.get {} v.slots j)
    illegalIf (bits b.op 31 27 != 0 || !srcOk (fSrc1 b.op)) ++
    cause (mvpNotMine b) fMVPOWNER ++
    (if mvpNotMine b then [] else
      illegalIf (v.load.isNone && slots.any (fun x => x.loaded && (x.fmt != v.fmtV || x.k != v.k))) ++
      cause (!(b.k.ownsTiles b.ctx (mvTile b) (mvTiles b))) fTILEOWNER ++
      cause (slots.any (fun x => x.loaded && !tagOk x.tag b.tag)) fSPECLEAK ++
      cause (bit b.op 0 && !(b.k.tilesReadable b.tag (mvTile b) (mvTiles b))) fSPECLEAK) ++
    cause (!(b.pclass.testBit 8)) fPOWER
  judgeV b := if mvpNotMine b then [] else
    illegalIf (decide (49151 < mvWrow b + mvRows b - 1)) ++ cause (b.readLeak (mvWrow b) (mvRows b)) fSPECLEAK
  reads op := regsRead [fSrc1 op]
  stall b := b.k.mvReading b.cyc || b.k.mvp.load.isSome || b.k.sbFull || b.k.tilesBusy (mvTile b) (mvTiles b) ||
    b.k.sbHit false (mvWrow b) (mvRows b) ||
    (match b.k.move with | some m => m.ld && decide (2 ≤ b.k.mvp.ports) | none => false) ||
    b.k.sendHolds b.k.mvp.ports b.cyc
  onStall b s := s.rush b.core (mvTile b) (mvTiles b)
  eff b s := s.modCore b.core (fun k =>
    let p : VPass := {
      wrow := mvWrow b, tile := mvTile b, nb := mvNb b, add := bit b.op 0, ctx := b.ctx, tag := b.tag, issued := b.cyc,
      entry := k.nextId, bundle := b.pc, slots := k.mvp.slots, buf := k.mvp.buf }
    let k1 := k.takeSb true (mvTile b) (mvTiles b) b.ctx .mvp b.tag
    { k1 with mvp := { k1.mvp with
        passes := k1.mvp.passes ++ [p], nextPass := b.cyc + 2 + mvNb b * mvD k.mvp.fmtW k.mvp.k * mvF k.mvp.ports } })

/-- A pair of rows as one bit string. -/
def pairNat : List Row → Nat → Nat
  | l, p => (l.getD (2 * p) 0).toNat + 2 ^ 4096 * (l.getD (2 * p + 1) 0).toNat

/-- The pair in which an output block's chunk `c` stands, and the scale pair of a group (R160). -/
def chunkPair (mx : Bool) (kc c : Nat) : Nat := if mx then c + c / (1024 / kc) + 1 else c
def scalePair (kc g : Nat) : Nat := g * (1 + 1024 / kc)

/-- The 32 weights of block `blk` of output `o`, from the rows of its output block. -/
def weights (f : Fmt) (rows : List Row) (blk o : Nat) : List Nat :=
  let kc := 256 / f.width
  (List.range 32).map (fun j =>
    let k := 32 * blk + j
    field (pairNat rows (chunkPair f.mx kc (k / kc))) ((o * kc + k % kc) * f.width) f.width)

/-- The scale code of block `blk` of output `o`. -/
def weightScale (f : Fmt) (rows : List Row) (blk o : Nat) : Nat :=
  if f.mx then field (pairNat rows (scalePair (256 / f.width) (blk / 32))) (8 * ((blk % 32) * 32 + o)) 8 else 127

/-- The 32 elements of block `blk` of slot `j`, and their scale code (R157); an unloaded slot reads as zero. -/
def vecElems (f : Fmt) (p : VPass) (j blk : Nat) : List Nat × Nat :=
  if (Tab.get {} p.slots j : VSlot).loaded then
    let b0 := 32 * blk * f.width
    let row := (Tab.get 0 p.buf (j * 33 + b0 / 4096)).toNat + 2 ^ 4096 * (Tab.get 0 p.buf (j * 33 + b0 / 4096 + 1)).toNat
    ((List.range 32).map (fun e => field row (b0 % 4096 + e * f.width) f.width),
      if f.mx then field (Tab.get (0 : Row) p.buf (j * 33 + 32)).toNat (8 * blk) 8 else 127)
  else ((List.range 32).map (fun _ => 0), if f.mx then 0 else 127)

/-- The live value of result (o, v): blocks of 32 steps in order, as an array cell forms it (R162). -/
def mvCell (path : Path) (sat : Bool) (fw fv : Fmt) (p : VPass) (rows : List Row) (nblk o slot : Nat) : W32 × Flags :=
  (List.range nblk).foldl (fun acc blk =>
    let x := vecElems fv p slot blk
    let r := cellBlock path sat fw.el fv.el (weightScale fw rows blk o) x.2 acc.1 (weights fw rows blk o) x.1
    (r.1, acc.2 ||| r.2)) (0, 0)

/-- Writes the results of output block `q` for every vector (R161, R163). -/
def mvBlockInto (k : Core) (p : VPass) (rows : List Row) : Core × Flags :=
  let v := k.mvp
  match fmtOf v.fmtW, fmtOf v.fmtV, pairing v.fmtW v.fmtV with
  | some fw, some fv, some path =>
    let nt := mvNt p.nb
    (List.range v.nv).foldl (fun acc u =>
      let t := p.tile + u * nt + p.block / 32
      let a1 := (List.range 32).foldl (fun acc o =>
        let c := mvCell path v.sat fw fv p rows (v.k / 32) o (v.v0 + u)
        let d := drainValue path v.sat p.add (acc.1.tileEl t o (p.block % 32)) c.1
        (acc.1.setTileEl t o (p.block % 32) d.1, (acc.2 ||| c.2) ||| d.2)) acc
      (a1.1.tagTiles [t] p.tag, a1.2)) (k, (0 : Flags))
  | _, _, _ => (k, 0)

/-- Replaces the pass with entry `e`; none takes it out. -/
def Mvp.setPass (v : Mvp) (e : Nat) (p : Option VPass) : Mvp :=
  { v with passes := v.passes.filterMap (fun x => if x.entry = e then p else some x) }

/-- A pass is over: its entry frees, and the flags it has gathered enter (R163, R194). -/
def passOver (s : State) (i : Nat) (p : VPass) : State :=
  (s.modCore i (fun k => { k.freeSb p.entry with mvp := k.mvp.setPass p.entry none })).raiseFlags i p.ctx p.tag p.flags

/-- The weight rows that a pass reads in cycle `c`: from t + 2 to t + 1 + S, 2 a cycle at two ports, 1 at one (R160, R163). -/
def passRows (v : Mvp) (p : VPass) (c : Nat) : List Nat :=
  let f := mvF v.ports
  let j := c - (p.issued + 2)
  if p.issued + 2 ≤ c ∧ j < p.nb * mvD v.fmtW v.k * f then
    (if f = 1 then [p.wrow + 2 * j, p.wrow + 2 * j + 1] else [p.wrow + j])
  else []

/-- One pass reads its weight rows of cycle `c`; an uncorrectable row faults the context and ends the pass (R261). -/
def passRead (i c : Nat) (s : State) (p : VPass) : State :=
  (passRows (s.core i).mvp p c).foldl (fun s r =>
    match (s.core i).mvp.passes.find? (fun x => x.entry == p.entry) with
    | none => s
    | some q =>
      match s.readLocal i q.ctx r c 3 with
      | (s1, none) => passOver s1 i q
      | (s1, some v) => s1.modCore i (fun k => { k with mvp := k.mvp.setPass q.entry (some { q with rows := q.rows ++ [v] }) })) s

/-- What one pass writes at the end of cycle `c`: output block q at t + 5 + (q + 1)·D·f; with the last one it is over (R163). -/
def passWrite (i c : Nat) (s : State) (p : VPass) : State :=
  let v := (s.core i).mvp
  let d := mvD v.fmtW v.k
  if c = p.issued + 5 + (p.block + 1) * d * mvF v.ports ∧ p.block < p.nb then
    let r := mvBlockInto (s.core i) p (p.rows.take (2 * d))
    let q : VPass := { p with block := p.block + 1, flags := p.flags ||| r.2, rows := p.rows.drop (2 * d) }
    let s1 := s.setCore i { r.1 with mvp := r.1.mvp.setPass p.entry (some q) }
    if q.block < q.nb then s1 else passOver s1 i q
  else s

/-- The end of cycle `c` for the MVP: blocks written, a load complete, the clear of R155 over. -/
def mvpEnd (s : State) (i c : Nat) : State :=
  ((s.core i).mvp.passes.foldl (passWrite i c) s).modCore i (fun k =>
    let k1 := loadEnd k
    match k1.mvp.clearEnd with
    | some e => if e ≤ c + 1 then { k1 with mvp := { k1.mvp with clearEnd := none } } else k1
    | none => k1)

/-- The claim ends: the vector buffer is zero and its slots unloaded, in a clear of 32 cyc (R155). -/
def Core.endClaim (k : Core) (cyc : Nat) : Core :=
  { k with mvp := { k.mvp with claim := none, slots := [], buf := [], clearEnd := some (cyc + 32) } }

def semMvFree : Sem where
  slots := [.m]
  judge b := illegalIf (b.op != 0) ++ cause (mvpNotMine b) fMVPOWNER
  stall b := !b.k.mvp.passes.isEmpty || b.k.mvp.load.isSome
  eff b s := s.modCore b.core (fun k => k.endClaim b.cyc)

end Sys2Proof.Machine
end

