-- ==== Sys2Proof/Machine/Vector.lean ====
section
/-! DEFINITION.
The stream vector unit: streams, V.OP and its functions, tile buffers, extract and seed (spec 07 R199–R215). -/

namespace Sys2Proof.Machine

/-! ### Streams (R199–R201) -/

/-- Rows of a stream of `e` elements (R200): bare rows, or flat groups of `gl`. -/
def streamRows (f : Fmt) (gl e : Nat) : Nat :=
  if f.mx then
    (e / gl) * (1 + (gl * f.width + 4095) / 4096) +
      (if e % gl = 0 then 0 else 1 + ((e % gl) * f.width + 4095) / 4096)
  else (e * f.width + 4095) / 4096

/-- Flat groups of a stream. -/
def groupsOf (f : Fmt) (gl e : Nat) : Nat := if f.mx then (e + gl - 1) / gl else 0

/-- The code of element `e` of a stream of bits. -/
def bareCode (w x e : Nat) : Nat := field x (e * w) w

/-- The values of a stream's first `e` elements, read from its rows (R174, R175, R200). -/
def streamVals (f : Fmt) (gl : Nat) (rows : List Row) (e : Nat) : List Num :=
  if f.mx then
    let span := 1 + (gl * f.width + 4095) / 4096
    (List.range e).map (fun i =>
      let g := i / gl
      let sc := field (rows.getD (g * span) 0).toNat (8 * ((i % gl) / 32)) 8
      let bit := (i % gl) * f.width
      let at_ := (rows.getD (g * span + 1 + bit / 4096) 0).toNat +
        2 ^ 4096 * (rows.getD (g * span + 2 + bit / 4096) 0).toNat
      f.decode sc (field at_ (bit % 4096) f.width))
  else
    (List.range e).map (fun i =>
      let bit := i * f.width
      let at_ := (rows.getD (bit / 4096) 0).toNat + 2 ^ 4096 * (rows.getD (bit / 4096 + 1) 0).toNat
      f.el.decode (field at_ (bit % 4096) f.width))

/-- e_max of an MX element format (R222). -/
def eMax (f : Elem) : Int :=
  match f with
  | .int .. => 0
  | .flt g => (match g.sp with | .ieee => 2 ^ g.eb - 2 | .e4m3 => 15 | .noSpecials => 2 ^ g.eb - 1 : Nat) - (g.bias : Int)

/-- The largest magnitude among finite values; none where all are zero or not finite. -/
def amax (l : List Num) : Option (Nat × Nat) :=
  l.foldl (fun m x => match x with
    | .fin _ n d =>
      if n = 0 then m
      else match m with
        | none => some (n, d)
        | some (n', d') => if n' * d < n * d' then some (n, d) else m
    | _ => m) none

/-- A format without a NaN encoding. -/
def noNan (f : Elem) : Bool := match f with | .int .. => true | .flt g => g.sp == .noSpecials

/-- Quantises one MX block (R182, R185, R222): its scale code, its element codes, and the flags.  `i0` is the
ordinal of its first element, `step` the distance between ordinals. -/
def quantBlock (f : Elem) (nc : NC) (rnd : Nat → Nat) (l : List Num) : Nat × List Nat × Flags :=
  if l.any Num.isNan && noNan f then (255, l.map (fun _ => 0), flagNAN)
  else
    let x : Nat := match amax l with
      | none => 0
      | some (n, d) =>
        let v := floorLog2 n d - eMax f + 127
        if v < 0 then 0 else if 254 < v then 254 else v.toNat
    let r := (List.zip (List.range l.length) l).map (fun e => f.encode nc (rnd e.1) (e.2.div (e8m0 x)))
    (x, r.map (·.1), r.foldl (fun a e => a ||| e.2) 0)

/-- Splits a list into pieces of `n`; `fuel` bounds the pieces. -/
def pieces {α : Type} (n : Nat) : Nat → List α → List (List α)
  | 0, _ => []
  | fuel + 1, l => if l.isEmpty then [] else l.take n :: pieces n fuel (l.drop n)

/-- Packs element codes into whole rows, the rest of the last one zero (R201). -/
def packRows (w : Nat) (l : List Nat) : List Row :=
  let x := l.foldr (fun v acc => v % 2 ^ w + 2 ^ w * acc) 0
  (List.range ((l.length * w + 4095) / 4096)).map (fun j => BitVec.ofNat 4096 (x / 2 ^ (4096 * j)))

/-- Encodes a stream of exact values under a seed (R188, R189, R200): its rows and the flags. -/
def encodeStream (f : Fmt) (gl : Nat) (nc : NC) (seed : W64) (l : List Num) : List Row × Flags :=
  if f.mx then
    (pieces gl (l.length + 1) l).zipIdx.foldl (fun acc g =>
      let blocks := (pieces 32 (g.1.length + 1) g.1).zipIdx.map (fun b =>
        quantBlock f.el nc (fun e => srRandom seed (g.2 * gl + b.2 * 32 + e)) b.1)
      (acc.1 ++ packRow 8 (blocks.map (·.1)) :: packRows f.width (blocks.flatMap (·.2.1)),
        blocks.foldl (fun a b => a ||| b.2.2) acc.2)) ([], (0 : Flags))
  else
    let r := l.zipIdx.map (fun e => f.el.encode nc (srRandom seed e.2) e.1)
    (packRows f.width (r.map (·.1)), r.foldl (fun a e => a ||| e.2) 0)

/-! ### The descriptor and the length word (R202–R205) -/

namespace SvuOp
def daddr (o : SvuOp) : Nat := bits o.desc 15 0
def dk (o : SvuOp) : Nat := bits o.desc 17 16
def sa (o : SvuOp) : Nat := bits o.desc 21 18
def sb (o : SvuOp) : Nat := bits o.desc 25 22
def stile (o : SvuOp) : Nat := bits o.desc 34 26
def fa (o : SvuOp) : Nat := bits o.desc 39 35
def fb (o : SvuOp) : Nat := bits o.desc 44 40
def fd (o : SvuOp) : Nat := bits o.desc 49 45
def nc (o : SvuOp) : Nat := bits o.desc 52 50
def cc (o : SvuOp) : Nat := bits o.desc 55 53
def sl (o : SvuOp) : Nat := 32 * 2 ^ bits o.desc 58 56
def e (o : SvuOp) : Nat := bits o.len 31 0
def gl (o : SvuOp) : Nat := 32 * (bits o.len 40 32 + 1)
/-- Functions that read source B (R206). -/
def usesB (o : SvuOp) : Bool := decide (o.func ≤ 5) || o.func == 10 || o.func == 11 || o.func == 16
/-- Functions that read the scalar operand. -/
def usesS (o : SvuOp) : Bool := o.func == 3 || o.func == 8 || o.func == 9 || o.func == 11
def reduces (o : SvuOp) : Bool := decide (13 ≤ o.func) && decide (o.func ≤ 15)
/-- Elements in the destination stream. -/
def nd (o : SvuOp) : Nat := if o.reduces then o.e / o.sl else o.e
def fmtA (o : SvuOp) : Fmt := (fmtOf o.fa).getD ⟨.flt fp32, false⟩
def fmtB (o : SvuOp) : Fmt := (fmtOf o.fb).getD ⟨.flt fp32, false⟩
def fmtD (o : SvuOp) : Fmt := (fmtOf o.fd).getD ⟨.flt fp32, false⟩
/-- Rows of a row destination. -/
def drows (o : SvuOp) : Nat := streamRows o.fmtD o.gl o.nd
/-- Tiles of a tile stream of `n` elements. -/
def tilesFor (n : Nat) : Nat := (n + 1023) / 1024
/-- The buffers an operation writes: a buffer destination, or TRN's pair. -/
def bufsWritten (o : SvuOp) : List Nat :=
  (if o.dk = 2 then [o.daddr % 4] else []) ++ (if o.func = 17 then [o.sb - 8, o.sb - 7] else [])
/-- Whether the operation takes a scoreboard entry. -/
def holdsEntry (o : SvuOp) : Bool := decide (o.dk ≤ 1)

/-! ### Timing (R210) -/

def width8 (w : Nat) : Nat := if w < 8 then 8 else w
/-- P: elements per cycle. -/
def rate (o : SvuOp) : Nat :=
  let a := width8 o.fmtA.width
  let b := if o.usesB then width8 o.fmtB.width else 8
  let d := width8 o.fmtD.width
  4096 / Nat.max a (Nat.max b d)
def groupCycles (o : SvuOp) : Nat :=
  groupsOf o.fmtA o.gl o.e + (if o.usesB then groupsOf o.fmtB o.gl o.e else 0) + groupsOf o.fmtD o.gl o.nd
/-- C: stream cycles. -/
def cycles (o : SvuOp) : Nat := (o.e + o.rate - 1) / o.rate + o.groupCycles
/-- Λ. -/
def latency (o : SvuOp) : Nat :=
  if o.reduces then 9 + 2 ^ bits o.desc 58 56
  else if o.func = 17 then 4 + 32 * o.fmtA.width / 512
  else 4
end SvuOp

/-- A condition code on floating values (R206). -/
def numCond (cc : Nat) (a b : Num) : Bool :=
  match a.cmp b with
  | none => cc == 1 || cc == 6 || cc == 7
  | some o =>
    match cc with
    | 0 => o == .eq
    | 1 => o != .eq
    | 2 => o == .lt
    | 3 => o != .lt
    | 4 => o == .lt
    | 5 => o != .lt
    | 6 => true
    | _ => false

/-- A negative number other than a zero. -/
def Num.isNeg (a : Num) : Bool := a.neg? && !a.isZero

/-- A condition code on integer values: LTU and GEU compare the two's complement words as unsigned (R82, R206). -/
def intCond (cc : Nat) (a b : Num) : Bool :=
  let below := if a.isNeg == b.isNeg then numCond 2 a b else b.isNeg
  match cc with
  | 4 => below
  | 5 => !below
  | _ => numCond cc a b

/-- The comparison that CMP and SEL make: of integers where both operands are (CMP), else of floating values. -/
def SvuOp.cond (o : SvuOp) : Num → Num → Bool :=
  if o.func = 10 ∧ o.fmtA.el.isInt ∧ o.fmtA.mx = false ∧ o.fmtB.el.isInt ∧ o.fmtB.mx = false then intCond o.cc else numCond o.cc

/-! ### Functions (R206–R209) -/

/-- One element of an element-wise function: the values it used, and the exact result. -/
def svuElem (func : Nat) (cond : Num → Num → Bool) (s a b : Num) : List Num × Num :=
  match func with
  | 0 => ([a, b], a.add b)
  | 1 => ([a, b], a.add b.negate)
  | 2 => ([a, b], a.mul b)
  | 3 => ([a, s, b], (a.mul s).add b)
  | 4 => ([a, b], a.max b)
  | 5 => ([a, b], a.min b)
  | 6 => ([a], a.abs)
  | 7 => ([a], a.negate)
  | 8 => ([a, s], a.mul s)
  | 9 => ([a, s], a.add s)
  | 10 => ([a, b], if cond a b then .fin false 1 1 else .fin false 0 1)
  | 11 => if cond a s then ([a, s], a) else ([a, s, b], b)
  | _ => ([a], a)

/-- One level of the pairwise tree of R207. -/
def pairSums : List W32 → List W32
  | a :: b :: l => (addFp32 false a (ofFp32 b)).1 :: pairSums l
  | l => l

/-- The sum of a segment of FP32 words (R207). -/
def segSum (l : List W32) : W32 :=
  let blk := (pieces 32 (l.length + 1) l).map (fun p =>
    (pairSums (pairSums (pairSums (pairSums (pairSums p))))).headD 0)
  match blk with
  | [] => 0
  | x :: r => r.foldl (fun acc y => (addFp32 false acc (ofFp32 y)).1) x

/-- The exact sum of integers. -/
def exactSum (l : List Num) : Num := l.foldl Num.add (.fin false 0 1)

/-- A reduction of one segment (R207). -/
def segReduce (func : Nat) (int : Bool) (l : List Num) : List Num × Num :=
  match func with
  | 13 => (l, if int then exactSum l else ofFp32 (segSum (l.map (fun x => (toFp32 false x).1))))
  | 14 => (l, match l with | [] => .fin false 0 1 | x :: r => r.foldl Num.max x)
  | _ => (l, match l with | [] => .fin false 0 1 | x :: r => r.foldl Num.min x)

/-- PA of GATH: whole elements of A in a row.  DESIGN CHOICE, log entry 117: at 6 bits, where 4,096 / w is no whole number, the
whole elements. -/
def SvuOp.perRow (o : SvuOp) : Nat := 4096 / o.fmtA.width

/-- GATH (R208): the element of A's row chosen by index b.  `a` reaches past the stream's end where its source defines elements
there (R204); past the rows of a queue the element is free (log entry 15). -/
def gather (o : SvuOp) (a : List Num) (b : List Nat) : List (List Num × Num) :=
  let pa := o.perRow
  b.zipIdx.map (fun e =>
    if pa ≤ e.1 then ([], .fin false 0 1)
    else
      let v := match a[e.2 / pa * pa + e.1]? with
        | some v => v
        | none => o.fmtA.el.decode ((Config.gathPast e.2 e.1).toNat % 2 ^ o.fmtA.width)
      ([v], v))

/-- TRN (R209): each 32 × 32 block transposed. -/
def transposeAll (l : List Num) : List (List Num × Num) :=
  (pieces 1024 (l.length + 1) l).flatMap (fun p =>
    (List.range 1024).map (fun e => let v := p.getD ((e % 32) * 32 + e / 32) (.fin false 0 1); ([v], v)))

/-- The destination stream: for each element the values used and the exact result. -/
def SvuOp.results (o : SvuOp) (a b : List Num) (bIdx : List Nat) : List (List Num × Num) :=
  if o.reduces then (pieces o.sl (a.length + 1) a).map (segReduce o.func (o.fmtA.el.isInt && !o.fmtA.mx))
  else if o.func = 16 then gather o a bIdx
  else if o.func = 17 then transposeAll a
  else if o.usesB then (List.zip a b).map (fun p => svuElem o.func o.cond (ofFp32 o.scalar) p.1 p.2)
  else a.map (fun x => svuElem o.func o.cond (ofFp32 o.scalar) x x)

/-! ### Issuing V.OP -/

/-- The seed in force (R190, R205): the context's seed register, or for RND = 3 the unseeded value. -/
def BC.seedFor (b : BC) (nc : Nat) : W64 :=
  if nc % 4 = 3 then
    BitVec.ofNat 64 (b.s.edgeCt b.core) ^^^ (BitVec.ofNat 64 ((b.s.logicalOf b.core).getD 0) <<< 48) ^^^
      (BitVec.ofNat 64 b.ctx <<< 46)
  else b.k.reg (offSeed b.ctx)

/-- The operation a bundle issues. -/
def svuOf (b : BC) : SvuOp :=
  let o : SvuOp := {
    func := fRd b.op, desc := b.a, scalar := b.b2.setWidth 32, len := b.b3, seed := 0, ctx := b.ctx, tag := b.tag,
    issued := b.cyc, entry := none, bundle := b.pc }
  { o with
      seed := b.seedFor o.nc, sru := o.nc % 4 == 3
      entry := if o.holdsEntry then some b.k.nextId else none }

/-- Whether source coding `c` is a buffer, a tile stream, a queue. -/
def isBuf (c : Nat) : Bool := decide (8 ≤ c) && decide (c ≤ 11)
def isTile (c : Nat) : Bool := c == 12
def isQueue (c : Nat) : Bool := decide (c < 8)
def srcReserved (c : Nat) : Bool := c == 13 || c == 14

def Core.buf (k : Core) (j : Nat) : TBuf := Tab.get {} k.bufs j
/-- Buffers take an owner and a tag, which they do as the instruction that writes them issues (R213; DESIGN CHOICE, log entry
116). -/
def Core.ownBufs (k : Core) (l : List Nat) (n t : Nat) : Core :=
  { k with bufs := l.foldl (fun m j => Tab.put m j { (Tab.get {} m j : TBuf) with owner := some n, tag := t }) k.bufs }
/-- Whether a buffer belongs to another context (R213). -/
def Core.bufOther (k : Core) (n j : Nat) : Bool := match (k.buf j).owner with | some m => m != n | none => false

/-- Field checks of R199 and R203–R209. -/
def svuIllegal (o : SvuOp) : Bool :=
  let tile := isTile o.sa || isTile o.sb
  let is32 := fun c => c == 16 || c == 17
  bits o.desc 63 59 != 0 || bits o.len 63 41 != 0 || o.e % 32 != 0 || o.e == 0 || o.dk == 3 ||
  srcReserved o.sa || srcReserved o.sb || (fmtOf o.fa).isNone || (fmtOf o.fb).isNone || (fmtOf o.fd).isNone ||
  o.sa == 15 || (o.usesB && o.sb == 15) || (isTile o.sa && isTile o.sb) || (tile && o.dk == 1) ||
  (isTile o.sa && !is32 o.fa) || (isTile o.sb && !is32 o.fb) || (o.dk == 1 && !is32 o.fd) ||
  (isBuf o.sa && o.fmtA.mx) || (isBuf o.sb && o.usesB && o.fmtB.mx) || (o.dk == 2 && o.fmtD.mx) ||
  (o.dk == 2 && (decide (3 < o.daddr) || decide (32768 < o.nd * o.fmtD.width))) ||
  (o.dk == 0 && decide (49151 < o.daddr + o.drows - 1)) ||
  (o.dk == 1 && decide (511 < o.daddr)) ||
  (o.reduces && o.e % o.sl != 0) ||
  (o.func == 16 && (o.fb != 17 || o.fmtA.mx)) ||
  (o.func == 17 && (o.fa != o.fd || decide (o.fmtA.width < 8) || o.e % 1024 != 0 || (o.sb != 8 && o.sb != 10)))

/-- Tiles a V.OP reads. -/
def svuSrcTiles (o : SvuOp) : Option (Nat × Nat) :=
  if isTile o.sa || (o.usesB && isTile o.sb) then some (o.stile, SvuOp.tilesFor o.e) else none
/-- Tiles a V.OP writes. -/
def svuDstTiles (o : SvuOp) : Option (Nat × Nat) := if o.dk = 1 then some (o.daddr, SvuOp.tilesFor o.nd) else none

/-- Buffers a V.OP reads. -/
def svuSrcBufs (o : SvuOp) : List Nat :=
  (if isBuf o.sa then [o.sa - 8] else []) ++ (if o.usesB && isBuf o.sb then [o.sb - 8] else [])
def svuSrcQueues (o : SvuOp) : List Nat :=
  (if isQueue o.sa then [o.sa] else []) ++ (if o.usesB && isQueue o.sb then [o.sb] else [])

def optRange (r : Option (Nat × Nat)) (f : Nat → Nat → Bool) : Bool := match r with | some (a, n) => f a n | none => false

def semVOp : Sem where
  slots := [.v]
  judge b :=
    let f := fRd b.op
    let usesS := f == 3 || f == 8 || f == 9 || f == 11
    illegalIf (decide (17 < f) || !srcOk (fSrc1 b.op) || !srcOk (fSrc2 b.op) || !srcOk (fSrc3 b.op) ||
      (!usesS && fSrc2 b.op != 48)) ++
    cause (!(b.pclass.testBit 9)) fPOWER
  judgeV b :=
    let o := svuOf b
    if svuIllegal o then [fILLEGAL]
    else
      cause (optRange (svuSrcTiles o) (fun a n => !(b.k.ownsTiles b.ctx a n)) ||
        optRange (svuDstTiles o) (fun a n => !(b.k.ownsTiles b.ctx a n))) fTILEOWNER ++
      cause ((svuSrcBufs o).any (b.k.bufOther b.ctx)) fBUFOWNER ++
      cause ((svuSrcQueues o).any (fun q => !(b.k.queueOk b.ctx q))) fQUEUEOWNER ++
      cause (o.nc % 4 == 3 && b.s.ordered) fSRUNSEEDED ++
      cause (optRange (svuSrcTiles o) (fun a n => !(b.k.tilesReadable b.tag a n)) ||
        (svuSrcBufs o).any (fun j => !tagOk (b.k.buf j).tag b.tag) ||
        (o.dk == 0 && b.writeLeak o.daddr o.drows false)) fSPECLEAK
  reads op := regsRead [fSrc1 op, fSrc2 op, fSrc3 op]
  stall b :=
    let o := svuOf b
    b.k.svu.isSome || b.k.bld.isSome || (o.usesTiles && b.k.portT) ||
    optRange (svuSrcTiles o) b.k.tilesBusy || optRange (svuDstTiles o) b.k.tilesBusy ||
    (o.dk == 0 && (b.k.sbHit false o.daddr o.drows || b.k.portBusy .svu)) || (o.holdsEntry && b.k.sbFull)
  onStall b s :=
    let o := svuOf b
    let r := fun (s : State) (x : Option (Nat × Nat)) => match x with | some (a, n) => s.rush b.core a n | none => s
    r (r s (svuSrcTiles o)) (svuDstTiles o)
  eff b s := s.modCore b.core (fun k =>
    let o := { svuOf b with entry := if (svuOf b).holdsEntry then some k.nextId else none }
    let k1 := { k.ownBufs o.bufsWritten b.ctx b.tag with svu := some o }
    if o.dk = 0 then (k1.takePort .svu k1.nextId).takeSb false o.daddr o.drows b.ctx .svu b.tag
    else match svuDstTiles o with
      | some (a, n) => k1.takeSb true a n b.ctx .svu b.tag
      | none => k1)

/-! ### Running V.OP -/

/-- MX streams among the sources. -/
def SvuOp.mxSources (o : SvuOp) : Nat := o.fmtA.mx.toNat + (o.usesB && o.fmtB.mx).toNat

/-- The element of the destination stream that element `e` of the sources contributes to. -/
def SvuOp.target (o : SvuOp) (e : Nat) : Nat := if o.reduces then e / o.sl else e

/-- The stream cycle that performs element `e`.  The group cycles of R210 are spread over the stream: those of the sources' scale
rows stand before the group's first element, that of the destination's after its last (DESIGN CHOICE, log entry 118). -/
def SvuOp.elemCycle (o : SvuOp) (e : Nat) : Nat :=
  e / o.rate + (if o.mxSources = 0 then 0 else (e / o.gl + 1) * o.mxSources) + (if o.fmtD.mx then o.target e / o.gl else 0)

/-- Elements performed by the end of stream cycle `x`. -/
def SvuOp.performed (o : SvuOp) (x : Nat) : Nat := ((List.range o.e).takeWhile (fun e => decide (o.elemCycle e ≤ x))).length

/-- The stream cycles in which the rows of a queue source are first used, in order: a group's scale row in its group cycle, a
data row with its first element, which for A of GATH is the first element that may choose from it. -/
def SvuOp.rowCycles (o : SvuOp) (f : Fmt) (before : Nat) : List Nat :=
  let first := fun (e : Nat) => o.elemCycle (if o.func = 16 then e / o.perRow * o.perRow else e)
  if f.mx then
    (List.range ((o.e + o.gl - 1) / o.gl)).flatMap (fun g =>
      let n := if (g + 1) * o.gl ≤ o.e then o.gl else o.e - g * o.gl
      (o.elemCycle (g * o.gl) - before) ::
        (List.range ((n * f.width + 4095) / 4096)).map (fun r => o.elemCycle (g * o.gl + r * 4096 / f.width)))
  else (List.range ((o.e * f.width + 4095) / 4096)).map (fun r => first (r * 4096 / f.width))

/-- Rows of sources A and B used by the end of stream cycle `x`. -/
def SvuOp.rowsA (o : SvuOp) (x : Nat) : Nat :=
  if isQueue o.sa then ((o.rowCycles o.fmtA o.mxSources).filter (fun c => decide (c ≤ x))).length else 0
def SvuOp.rowsB (o : SvuOp) (x : Nat) : Nat :=
  if o.usesB && isQueue o.sb then ((o.rowCycles o.fmtB 1).filter (fun c => decide (c ≤ x))).length else 0

/-- Elements that a source in tiles or a buffer has delivered by the end of stream cycle `x`: for A of GATH whole rows. -/
def SvuOp.reach (o : SvuOp) (x : Nat) : Nat :=
  let n := o.performed x
  if o.func = 16 then (n + o.perRow - 1) / o.perRow * o.perRow else n

/-- The code of element `e` of a source in tiles or a buffer as it stands now (R204). -/
def Core.sourceCode (k : Core) (o : SvuOp) (c w e : Nat) : Nat :=
  if isBuf c then
    let x := (k.buf (c - 8)).data.toNat
    field (x + 2 ^ 32768 * x) ((e * w) % 32768) w
  else (k.tileEl (o.stile + e / 1024) (e % 1024 / 32) (e % 32)).toNat

/-- The codes `old` of a source, extended to `n` elements. -/
def Core.sourceCodes (k : Core) (o : SvuOp) (c w n : Nat) (old : List Nat) : List Nat :=
  old ++ ((List.range n).drop old.length).map (k.sourceCode o c w)

/-- The values of source A or B as far as read: `n` elements. -/
def SvuOp.valuesOf (o : SvuOp) (c : Nat) (f : Fmt) (rows : List Row) (codes : List Nat) (n : Nat) : List Num :=
  if isQueue c then streamVals f o.gl rows n else codes.map f.el.decode

/-- Indices of GATH: source B as unsigned 32-bit words. -/
def SvuOp.indices (o : SvuOp) (n : Nat) : List Nat :=
  if isQueue o.sb then (List.range n).map (fun i => field (o.inB.getD (i / 128) 0).toNat (32 * (i % 128)) 32) else o.elB

/-- The destination stream as far as the elements read by the end of stream cycle `x` determine it. -/
def SvuOp.resultsBy (o : SvuOp) (x : Nat) : List (List Num × Num) :=
  let n := o.performed x
  let a := o.valuesOf o.sa o.fmtA o.inA o.elA (if o.func = 16 then Nat.min o.e (o.reach x) else n)
  let b := if o.usesB && o.func ≠ 16 then o.valuesOf o.sb o.fmtB o.inB o.elB n else []
  o.results a b (if o.func = 16 then o.indices n else [])

/-- Its rows and its encoding flags. -/
def SvuOp.encodeBy (o : SvuOp) (x : Nat) : List Row × Flags :=
  encodeStream o.fmtD o.gl (NC.ofField o.nc) o.seed ((o.resultsBy x).map (·.2))

/-- All flags of a finished operation (R192, R193). -/
def SvuOp.flags (o : SvuOp) : Flags :=
  let fl := (o.resultsBy o.cycles).foldl (fun f r => f ||| opFlags r.1 r.2 0) (o.encodeBy o.cycles).2
  if o.sru then fl ||| flagSRU else fl

/-- The age of an operation in cycle `c`: cycles since its issue, its holds apart. -/
def SvuOp.age (o : SvuOp) (c : Nat) : Nat := c - o.issued - o.holds

/-- The age at whose end element `d` of the destination stream is written (R210): 2 + x + Λ for the stream cycle x of its last
source element; for TRN not before its whole block has been read (DESIGN CHOICE, log entry 119). -/
def SvuOp.dueAge (o : SvuOp) (d : Nat) : Nat :=
  let x := 2 + o.elemCycle (if o.reduces then (d + 1) * o.sl - 1 else d) + o.latency
  if o.func = 17 then Nat.max x (3 + o.elemCycle ((d / 1024 + 1) * 1024 - 1)) else x

/-- Rows of a stream of `e` elements: for each data row its offset and the last element it holds, and for each group's scale row
its offset, the group's last element and a mark. -/
def rowPlan (f : Fmt) (gl e : Nat) : List (Nat × Nat × Bool) :=
  let last := fun (r n : Nat) => Nat.min n (((r + 1) * 4096 + f.width - 1) / f.width) - 1
  if f.mx then
    let dr := (gl * f.width + 4095) / 4096
    (List.range (groupsOf f gl e)).flatMap (fun g =>
      let n := if (g + 1) * gl ≤ e then gl else e - g * gl
      (List.range ((n * f.width + 4095) / 4096)).map (fun r => (g * (1 + dr) + 1 + r, g * gl + last r n, false)) ++
        [(g * (1 + dr), g * gl + n - 1, true)])
  else (List.range ((e * f.width + 4095) / 4096)).map (fun r => (r, last r e, false))

/-- Offsets of the destination rows written at the end of cycle `c`: a group's scale row in the cycle after its last data row
(DESIGN CHOICE, log entry 118). -/
def SvuOp.writes (o : SvuOp) (c : Nat) : List Nat :=
  if o.dk = 0 ∧ o.hold = false then
    ((rowPlan o.fmtD o.gl o.nd).filter (fun r => o.dueAge r.2.1 + r.2.2.toNat == o.age c)).map (·.1)
  else []

/-- Stream cycle `x` of the V.OP that streams: it reads its sources (R210). -/
def Core.svuRead (k : Core) (o : SvuOp) (x : Nat) (rA rB : List QRow) : Core :=
  let k1 := (k.useRows o.sa rA.length).useRows o.sb rB.length
  { k1 with svu := some { o with
      inA := o.inA ++ rA.map (·.row), inB := o.inB ++ rB.map (·.row), hold := false
      elA := if isQueue o.sa then [] else k.sourceCodes o o.sa o.fmtA.width (o.reach x) o.elA
      elB := if !o.usesB || isQueue o.sb then [] else k.sourceCodes o o.sb o.fmtB.width (o.performed x) o.elB } }

/-- The rows of two sources: of A first where they name one queue. -/
def Core.lookTwo (k : Core) (tag c : Nat) (hold : Bool) (qa na qb nb : Nat) : Look × Look :=
  (lookRows tag c hold na (k.free qa), lookRows tag c hold nb ((k.free qb).drop (if qa = qb then na else 0)))

/-- Cycle `c` of the V.OP that streams: a stream cycle, or a hold where a queue lacks a row, which counts (R210, R211). -/
def svuCycle (s : State) (i c : Nat) : State :=
  match (s.core i).svu with
  | none => s
  | some o =>
    if o.age c < 2 then s
    else
      let x := o.age c - 2
      let k := s.core i
      match k.lookTwo o.tag c o.hold o.sa (o.rowsA x - o.inA.length) o.sb (o.rowsB x - o.inB.length) with
      | (.leak, _) | (_, .leak) =>
        (s.modCore i (fun k => { (match o.entry with | some e => (k.freeSb e).freePort e | none => k) with
          svu := none })).faultAsync i o.ctx fSPECLEAK 4
      | (.here rA, .here rB) => s.modCore i (fun k => k.svuRead o x rA rB)
      | _ => (s.count48 i 0x588 1).modCore i (fun k => { k with svu := some { o with holds := o.holds + 1, hold := true } })

/-- Puts bits `[lo, hi)` of rows into a buffer. -/
def bufPut (old : BitVec 32768) (rows : List Row) (lo hi : Nat) : BitVec 32768 :=
  BitVec.ofNat 32768 (old.toNat % 2 ^ lo + (rowsNat rows % 2 ^ hi / 2 ^ lo) * 2 ^ lo + old.toNat / 2 ^ hi * 2 ^ hi)

/-- Elements of the destination stream written by the end of age `a`. -/
def SvuOp.written (o : SvuOp) (a : Nat) : Nat := ((List.range o.nd).takeWhile (fun d => decide (o.dueAge d ≤ a))).length

/-- Puts elements lo … hi − 1 of the destination stream into the tiles or the buffer of an operation (R204, R209). -/
def Core.svuPut (k : Core) (o : SvuOp) (lo hi : Nat) (rows : List Row) : Core :=
  if o.dk = 1 then
    let ws := (rows.flatMap rowWords).zipIdx.filter (fun e => decide (lo ≤ e.2) && decide (e.2 < hi))
    (ws.foldl (fun k e => k.setTileEl (o.daddr + e.2 / 1024) (e.2 % 1024 / 32) (e.2 % 32) e.1) k).tagTiles
      (((List.range hi).drop lo).map (fun e => o.daddr + e / 1024)).eraseDups o.tag
  else
    let j := o.daddr % 4
    { k with bufs := Tab.put k.bufs j { k.buf j with data := bufPut (k.buf j).data rows (lo * o.fmtD.width) (hi * o.fmtD.width) } }

/-- What one operation writes at the end of cycle `c`. -/
def svuWrite (i c : Nat) (s : State) (o : SvuOp) : State :=
  if o.hold ∨ o.age c = 0 then s
  else if o.dk = 0 then
    (o.writes c).foldl (fun s r => s.writeOwn i o.ctx o.tag (o.daddr + r) ((o.encodeBy (o.age c - 2)).1.getD r 0)) s
  else
    let lo := o.written (o.age c - 1)
    let hi := o.written (o.age c)
    if lo < hi then s.modCore i (fun k => k.svuPut o lo hi (o.encodeBy (o.age c - 2)).1) else s

/-- The age at whose end the last result of an operation is written (R210). -/
def SvuOp.lastAge (o : SvuOp) : Nat := 1 + o.cycles + o.latency

/-- TRN leaves its pair of buffers overwritten: by what it does not say, but on the elements it read alone (R209; log entry
14). -/
def Core.trnOver (k : Core) (o : SvuOp) : Core :=
  if o.func = 17 then
    let left := [o.sb - 8, o.sb - 7].filter (fun j => !(o.dk == 2 && o.daddr % 4 == j))
    { k with bufs := left.foldl (fun m j => Tab.put m j { (Tab.get {} m j : TBuf) with
        data := Config.trnBuffer o.desc o.len (rowsNat o.inA) o.elA j }) k.bufs }
  else k

/-- The end of cycle `c` for an operation: what it writes; with its last result it is over: its entry frees, its flags enter. -/
def svuEndOne (i c : Nat) (s : State) (o : SvuOp) : State :=
  let s1 := svuWrite i c s o
  if o.hold ∨ o.age c ≠ o.lastAge then s1
  else (s1.modCore i (fun k =>
    let k1 := k.trnOver o
    let k2 := match o.entry with | some e => (k1.freeSb e).freePort e | none => k1
    { k2 with svuTail := k2.svuTail.filter (fun x => x.issued ≠ o.issued) })).raiseFlags i o.ctx o.tag o.flags

/-- The end of cycle `c` for the SVU: results are written; after its last stream cycle an operation leaves the streams to the
next (R211). -/
def svuEnd (s : State) (i c : Nat) : State :=
  let k := s.core i
  ((k.svuTail ++ k.svu.toList).foldl (svuEndOne i c) s).modCore i (fun k =>
    match k.svu with
    | some o => if !o.hold && o.age c == 1 + o.cycles then { k with svu := none, svuTail := k.svuTail ++ [o] } else k
    | none => k)

/-- Cycle `c` of a V.BLD: it consumes a row, or reads four tile rows through port T, at t + 1 + m, holding where the queue is
empty (R211, R213). -/
def bldCycle (s : State) (i c : Nat) : State :=
  match (s.core i).bld with
  | none => s
  | some l =>
    if c ≤ l.issued then s
    else if l.src = 12 then s.modCore i (fun k => { k with bld := some { l with
      row := some (packRow 32 ((k.tileQuarter l.tile l.got).map (·.toNat))) } })
    else match lookRows l.tag c l.hold 1 ((s.core i).free l.src) with
      | .leak => (s.modCore i (fun k => { k with bld := none })).faultAsync i l.ctx fSPECLEAK 4
      | .here rows => s.modCore i (fun k => { k.useRows l.src 1 with
          bld := some { l with row := rows.head?.map (·.row), hold := false } })
      | .lack => (s.count48 i 0x588 1).modCore i (fun k => { k with bld := some { l with holds := l.holds + 1, hold := true } })

/-- At the end of a cycle the row read stands in the buffer; with the eighth the load is over. -/
def bldEnd (k : Core) : Core :=
  match k.bld with
  | none => k
  | some l =>
    match l.row with
    | none => k
    | some v =>
      let old := (k.buf l.buf).data
      let new := setBits old (4096 * l.got + 4095) (4096 * l.got) v.toNat
      { k with
        bufs := Tab.put k.bufs l.buf { k.buf l.buf with data := new }
        bld := if l.got + 1 < 8 then some { l with got := l.got + 1, row := none } else none }

/-! ### V.BLD, V.EXT, V.SEED (R205, R213, R214, R229) -/

def bldSrc (op : W32) : Nat := bits op 29 26
def bldTile (op : W32) : Nat := bits op 25 17

def semVBld : Sem where
  slots := [.v]
  judge b :=
    illegalIf (bits b.op 16 0 != 0 || !(isQueue (bldSrc b.op) || bldSrc b.op == 12)) ++
    cause (bldSrc b.op == 12 && !(b.k.ownsTiles b.ctx (bldTile b.op) 1)) fTILEOWNER ++
    cause (isQueue (bldSrc b.op) && !(b.k.queueOk b.ctx (bldSrc b.op))) fQUEUEOWNER ++
    cause (bldSrc b.op == 12 && !(b.k.tilesReadable b.tag (bldTile b.op) 1)) fSPECLEAK
  stall b :=
    b.k.svu.isSome || b.k.bld.isSome || (bldSrc b.op == 12 && (b.k.portT || b.k.tilesBusy (bldTile b.op) 1))
  onStall b s := if bldSrc b.op = 12 then s.rush b.core (bldTile b.op) 1 else s
  eff b s := s.modCore b.core (fun k => { k.ownBufs [bits b.op 31 30] b.ctx b.tag with
    bld := some { buf := bits b.op 31 30, src := bldSrc b.op, tile := bldTile b.op, ctx := b.ctx, tag := b.tag,
                  issued := b.cyc, bundle := b.pc } })

/-- The value V.EXT returns: FP32 bits zero-extended, or a sign-extended integer. -/
def extValue (f : Fmt) (x : BitVec 32768) (e : Nat) : W64 :=
  let c := field x.toNat (e * f.width) f.width
  match f.el with
  | .int w _ => BitVec.ofInt 64 (signed w c)
  | .flt g => (toFp32 false (g.decode c)).1.setWidth 64

/-- V.EXT uses an element that is NaN (R192, R193). -/
def extNan (f : Fmt) (x : BitVec 32768) (e : Nat) : Bool :=
  match f.el with
  | .flt g => (g.decode (field x.toNat (e * f.width) f.width)).isNan
  | .int .. => false

def extElem (op : W32) : Nat := bits op 24 12
def extBuf (op : W32) : Nat := bits op 26 25
def extFmt (op : W32) : Option Fmt := fmtOf (bits op 11 7)

def semVExt : Sem where
  slots := [.v]
  judge b :=
    illegalIf (bits b.op 6 0 != 0 || (match extFmt b.op with
      | some f => f.mx || decide (32768 / f.width ≤ extElem b.op)
      | none => true)) ++
    cause (b.k.bufOther b.ctx (extBuf b.op)) fBUFOWNER ++ cause ((b.k.buf (extBuf b.op)).tag != 0) fSPECLEAK
  dest op := some (.reg (fRd op))
  stall b :=
    (b.k.svu.toList ++ b.k.svuTail).any (fun o => o.bufsWritten.contains (extBuf b.op)) ||
    (match b.k.bld with | some l => l.buf == extBuf b.op | none => false)
  eff b s := match extFmt b.op with
    | some f =>
      let x := (b.k.buf (extBuf b.op)).data
      (s.writeReg b.core b.ctx (fRd b.op) (extValue f x (extElem b.op)) 3).raiseFlags b.core b.ctx b.tag
        (if extNan f x (extElem b.op) then flagNAN else 0)
    | none => s

def semVSeed : Sem where
  slots := [.v]
  judge b := illegalIf (bits b.op 31 27 != 0 || bits b.op 17 0 != 0 || !srcOk (fSrc1 b.op))
  reads op := regsRead [fSrc1 op]
  eff b s := s.modCore b.core (fun k => k.setReg (offSeed b.ctx) b.a)

end Sys2Proof.Machine
end

