-- ==== Sys2Proof/Machine/Epilogue.lean ====
section
/-! DEFINITION.
The epilogue chain: stages, activation functions, quantisation and EP.RUN (spec 07 R216–R227). -/

namespace Sys2Proof.Machine

/-! ### The chain word (R216) -/

/-- The stage bytes of a chain word before WRITE, if the word is a legal chain. -/
def chainStages (w : W64) : Option (List (Nat × Nat)) :=
  let bs := (List.range 8).map (fun j => (bits w (8 * j + 7) (8 * j + 4), bits w (8 * j + 3) (8 * j)))
  let body := bs.takeWhile (fun b => b.1 ≠ 7)
  let rest := bs.drop body.length
  let pre := body.takeWhile (fun b => b.1 ≠ 6)
  let post := body.drop pre.length
  let legal := fun (b : Nat × Nat) => match b.1 with
    | 1 => b.2 == 0
    | 2 => true
    | 3 => decide (b.2 ≤ 8)
    | 4 => b.2 == 0
    | 5 => decide (b.2 < 8)
    | _ => false
  let tail := match rest with | (7, 0) :: l => l.all (fun b => b == (0, 0)) | _ => false
  if tail && pre.all legal && (match post with | [] => true | [(6, p)] => decide (p ≤ 1) | _ => false) then some body
  else none

namespace EpOp
def drow (o : EpOp) : Nat := bits o.desc 15 0
def tile (o : EpOp) : Nat := bits o.desc 24 16
def tr (o : EpOp) : Nat := bits o.desc 28 25 + 1
def tc (o : EpOp) : Nat := bits o.desc 32 29 + 1
def colMajor (o : EpOp) : Bool := bit o.desc 33
def panel (o : EpOp) : Bool := bit o.desc 34
def fr (o : EpOp) : Nat := bits o.desc 39 35
def fd (o : EpOp) : Nat := bits o.desc 44 40
def nc (o : EpOp) : Nat := bits o.desc 47 45
def gl (o : EpOp) : Nat := 32 * (bits o.desc 56 48 + 1)
def srcInt (o : EpOp) : Bool := bit o.desc 57
def fmtR (o : EpOp) : Fmt := (fmtOf o.fr).getD ⟨.flt fp32, false⟩
def fmtD (o : EpOp) : Fmt := (fmtOf o.fd).getD ⟨.flt fp32, false⟩
def stages (o : EpOp) : List (Nat × Nat) := (chainStages o.chain).getD []
/-- The parameter of the QUANT stage, if there is one. -/
def quant (o : EpOp) : Option Nat := (o.stages.find? (fun b => b.1 == 6)).map (·.2)
def tiles (o : EpOp) : Nat := o.tr * o.tc
def elems (o : EpOp) : Nat := 1024 * o.tiles
/-- Width and steps of the panel. -/
def pn (o : EpOp) : Nat := 32 * o.tr
def pk (o : EpOp) : Nat := 32 * o.tc

/-- Elements of a group of the panel layout: G blocks of 32 steps of width n, with G·n = 512. -/
def panelGroup (o : EpOp) : Nat := (512 / o.pn) * 32 * o.pn

/-- Rows the operation writes. -/
def rows (o : EpOp) : Nat :=
  if o.panel then streamRows o.fmtD o.panelGroup o.elems
  else streamRows o.fmtD o.gl o.elems + (if o.quant = some 1 then (o.tiles + 127) / 128 else 0)

/-- Rows after the last data row: the last group's scale row, or the per-tile scale rows (R225). -/
def trailing (o : EpOp) : Nat := if o.fmtD.mx then 1 else if o.quant = some 1 then (o.tiles + 127) / 128 else 0

/-- Latency of a stage (R216). -/
def stageLatency (o : EpOp) (b : Nat × Nat) : Nat :=
  match b.1 with
  | 1 => 2 | 2 => 2 | 3 => 8 | 4 => 1 | 5 => 2
  | 6 => if o.panel then 16 * o.tr + 4 else 4
  | _ => 0
/-- Λ_s. -/
def latency (o : EpOp) : Nat := (o.stages.map o.stageLatency).sum
/-- NE: batches of 64 elements. -/
def batches (o : EpOp) : Nat := 16 * o.tiles

/-- Row and column of output element `e` of the output stream (R218). -/
def place (o : EpOp) (e : Nat) : Nat × Nat :=
  if o.colMajor then (e % o.pn, e / o.pn) else (e / o.pk, e % o.pk)
end EpOp

/-- Buffers named by BIAS stages. -/
def epBufs (o : EpOp) : List Nat := (o.stages.filter (fun b => b.1 == 2)).map (fun b => b.2 % 4)
/-- Queues named by RESID stages. -/
def epQueues (o : EpOp) : List Nat := (o.stages.filter (fun b => b.1 == 5)).map (·.2)

/-- R216, R217, R219, R233: the cases that fault ILLEGAL. -/
def epIllegal (o : EpOp) : Bool :=
  let bareSmall := [0, 1, 2, 3, 4, 5, 6].contains o.fd
  let biasBad := (o.stages.filter (fun b => b.1 == 2)).any (fun b =>
    let n := if b.2.testBit 2 then o.pn else o.pk
    decide ((if b.2.testBit 3 then 2048 else 1024) < n))
  (chainStages o.chain).isNone || bits o.desc 63 58 != 0 || (fmtOf o.fd).isNone || (fmtOf o.fr).isNone ||
  o.fd == 17 || (o.fmtD.mx && o.quant != some 0) || (o.quant == some 0 && !o.fmtD.mx) ||
  (o.quant == some 1 && !bareSmall) || (o.panel && (!o.colMajor || !o.fmtD.mx)) || o.fr == 17 || biasBad ||
  decide (511 < o.tile + o.tiles - 1) || decide (49151 < o.drow + o.rows - 1)

/-- The operation a bundle issues. -/
def epOf (b : BC) : EpOp :=
  let o : EpOp := {
    chain := b.a, desc := b.b2, aux := b.b3, seed := 0, ctx := b.ctx, tag := b.tag, issued := b.cyc,
    entry := b.k.nextId, bundle := b.pc }
  { o with seed := b.seedFor o.nc, sru := o.nc % 4 == 3 }

/-! ### Activation functions (R221) -/

def f32PosInf : W32 := 0x7F800000
def f32NegInf : W32 := 0xFF800000
def f32Nan : W32 := 0x7FC00000
def f32One : W32 := 0x3F800000

/-- The least FP32 word whose exponential lies above the largest finite value: 88.72283935546875. -/
def expTop : W32 := 0x42B17218

/-- The special results of the table, and the values that the definitions give at an infinity (log entry 13); none where only the
error bound is stated.  1/√−0 is taken as −∞, the reciprocal of the root −0 (DEDUCED, log entry 13). -/
def actSpecial (code : Nat) (x : W32) : Option W32 :=
  let v := ofFp32 x
  let neg := v.neg? && !v.isZero
  match v with
  | .nan => some f32Nan
  | .inf s =>
    match code with
    | 0 => some (if s then 0 else f32PosInf)
    | 1 => some (if s then f32Nan else f32PosInf)
    | 2 => some (if s then 0x80000000 else 0)
    | 3 => some (if s then f32Nan else 0)
    | 4 => some (if s then 0xBF800000 else f32One)
    | 5 => some (if s then 0 else f32One)
    | 6 => some (if s then 0x80000000 else f32PosInf)
    | 7 => some (if s then 0x80000000 else f32PosInf)
    | _ => some (if s then 0 else f32PosInf)
  | .fin s n _ =>
    match code with
    | 0 => if decide (expTop ≤ x) && !s then some f32PosInf else none
    | 1 => if n = 0 then some f32NegInf else if neg then some f32Nan else none
    | 2 => if n = 0 then some (if s then f32NegInf else f32PosInf) else none
    | 3 => if n = 0 then some (if s then f32NegInf else f32PosInf) else if neg then some f32Nan else none
    | _ => none

/-- ACT: a fixed function of the FP32 input.  Between its special results the value is free within the bound of the table. -/
def actValue (code : Nat) (x : W32) : W32 :=
  match actSpecial code x, ofFp32 x with
  | some z, _ => z
  | none, .fin s n d => actFree code x s n d
  | none, _ => f32Nan

/-- Whether the exact function value is zero: ln 1, and the functions that are zero at zero. -/
def actZero (code : Nat) (x : W32) : Bool :=
  match code with
  | 1 => x == f32One
  | 4 => (ofFp32 x).isZero
  | 6 => (ofFp32 x).isZero
  | 7 => (ofFp32 x).isZero
  | _ => false

/-- The flags of ACT (R192): from the input and the result; a finite input whose non-zero value came out as zero sets UFZ. -/
def actFlags (code : Nat) (x z : W32) : Flags :=
  opFlags [ofFp32 x] (ofFp32 z)
    (if (ofFp32 z).isZero && !(ofFp32 x).isInf && !(ofFp32 x).isNan && !actZero code x then flagUFZ else 0)

/-! ### Values through the chain (R220) -/

/-- One stage on one element: its new FP32 word and the flags.  `bias` and `resid` are the values for the element. -/
def stageValue (o : EpOp) (b : Nat × Nat) (bias resid : Num) (y : W32) : W32 × Flags :=
  let v := ofFp32 y
  let one := fun (ins : List Num) (x : Num) => let r := toFp32 false x; (r.1, opFlags ins x r.2)
  match b.1 with
  | 1 => let σ := ofFp32 (o.aux.setWidth 32); one [v, σ] (v.mul σ)
  | 2 => one [v, bias] (v.add bias)
  | 3 => let z := actValue b.2 y; (z, actFlags b.2 y z)
  | 4 =>
    let lo := bf16.decode (bits o.aux 47 32)
    let hi := bf16.decode (bits o.aux 63 48)
    one [v, lo, hi] ((v.max lo).min hi)
  | 5 => one [v, resid] (v.add resid)
  | _ => (y, 0)

/-- The bias code for output element (i, j) as its buffer stands now (R216, R220), and its value. -/
def biasCode (k : Core) (p i j : Nat) : Nat :=
  let x := (k.buf (p % 4)).data.toNat
  let e := if p.testBit 2 then i else j
  if p.testBit 3 then field x (16 * e) 16 else field x (32 * e) 32
def biasValue (p code : Nat) : Num := if p.testBit 3 then bf16.decode code else fp32.decode code

/-- The word of output element `e` in the tiles as they stand now (R218). -/
def epWord (k : Core) (o : EpOp) (e : Nat) : W32 :=
  let p := o.place e
  k.tileEl (o.tile + (p.1 / 32) * o.tc + p.2 / 32) (p.1 % 32) (p.2 % 32)

/-- The FP32 word of each element read so far as it leaves the last stage before QUANT, and the flags; `resid` gives the residual
values of each RESID stage. -/
def epValues (o : EpOp) (resid : List (List Num)) : List W32 × Flags :=
  o.words.zipIdx.foldl (fun acc w =>
    let y0 := if o.srcInt then (toFp32 false (ofInt w.1.toInt 0)).1 else w.1
    let r := o.stages.zipIdx.foldl (fun (a : (W32 × Flags) × Nat) b =>
      let res := if b.1.1 = 5 then (resid.getD a.2 []).getD w.2 (.fin false 0 1) else .fin false 0 1
      let bias := if b.1.1 = 2 then biasValue b.1.2 ((Tab.get [] o.bias b.2).getD w.2 0) else .fin false 0 1
      let v := stageValue o b.1 bias res a.1.1
      ((v.1, a.1.2 ||| v.2), if b.1.1 = 5 then a.2 + 1 else a.2)) ((y0, (0 : Flags)), 0)
    (acc.1 ++ [r.1.1], acc.2 ||| r.1.2)) ([], 0)

/-! ### QUANT and WRITE (R222–R224) -/

/-- The panel layout: blocks of one output row within one tile column, each group's scale row before its data. -/
def epPanel (o : EpOp) (ys : List Num) : List Row × Flags :=
  let n := o.pn
  let g := 512 / n
  let nb := o.tc
  let blk := (List.range nb).map (fun c => (List.range n).map (fun i =>
    let xs := (List.range 32).map (fun j => ys.getD ((32 * c + j) * n + i) (.fin false 0 1))
    quantBlock o.fmtD.el (NC.ofField o.nc) (fun j => srRandom o.seed ((32 * c + j) * n + i)) xs))
  (pieces g (nb + 1) blk).foldl (fun acc bs =>
    let sc := packRow 8 (bs.flatMap (fun b => b.map (·.1)))
    let codes := bs.flatMap (fun b => (List.range 32).flatMap (fun j => b.map (fun q => q.2.1.getD j 0)))
    (acc.1 ++ sc :: packRows o.fmtD.width codes, bs.foldl (fun f b => b.foldl (fun f q => f ||| q.2.2) f) acc.2))
    ([], (0 : Flags))

/-- The largest finite value of a per-tile output format. -/
def finiteMax (f : Elem) : Num := match f with | .flt g => g.maxVal | .int w _ => .fin false (2 ^ (w - 1) - 1) 1

/-- Per-tile scales (R223), the stream divided by them, and the flags of the scales' conversions (R192). -/
def epPerTile (o : EpOp) (ys : List Num) : List W32 × List Num × Flags :=
  let tileOf := fun e => let p := o.place e; (p.1 / 32) * o.tc + p.2 / 32
  let idx := ys.zipIdx
  let σ := (List.range o.tiles).map (fun t =>
    match amax ((idx.filter (fun e => tileOf e.2 == t)).map (·.1)) with
    | none => (f32One, (0 : Flags))
    | some (n, d) => toFp32 false ((Num.fin false n d).div (finiteMax o.fmtD.el)))
  let qs := idx.map (fun e => (e.1, e.1.div (ofFp32 ((σ.getD (tileOf e.2) (f32One, 0)).1))))
  (σ.map (·.1), qs.map (·.2), qs.foldl (fun f q => f ||| opFlags [q.1] q.2 0) (σ.foldl (fun f x => f ||| x.2) 0))

/-- The rows an operation writes as far as what it has read determines them, and the flags of that. -/
def epCompute (o : EpOp) (resid : List (List Num)) : List Row × Flags :=
  let v := epValues o resid
  let ys := v.1.map ofFp32
  let nan : Flags := if ys.any Num.isNan then flagNAN else 0
  let r :=
    if o.panel then epPanel o ys
    else if o.quant = some 1 then
      let q := epPerTile o ys
      let w := encodeStream o.fmtD o.gl (NC.ofField o.nc) o.seed q.2.1
      (w.1 ++ packRows 32 (q.1.map (·.toNat)), w.2 ||| q.2.2)
    else encodeStream o.fmtD o.gl (NC.ofField o.nc) o.seed ys
  (r.1, ((v.2 ||| r.2) ||| nan) ||| (if o.sru then flagSRU else 0))

/-! ### EP.RUN -/

/-- The latency of the stages before stage `j`. -/
def EpOp.before (o : EpOp) (j : Nat) : Nat := ((o.stages.take j).map o.stageLatency).sum

/-- The RESID stages: place in the chain and queue. -/
def EpOp.resids (o : EpOp) : List (Nat × Nat) :=
  (o.stages.zipIdx.filter (fun b => b.1.1 == 5)).map (fun b => (b.2, b.1.2))

/-- Rows of the residual stream that the RESID stage at place `j` has used by the end of age `a`: batch c reaches it at
3 + c + the latency before it; a group's scale row comes with the group's first element (R200, R226). -/
def EpOp.residRows (o : EpOp) (j a : Nat) : Nat :=
  let age := fun e => 3 + e / 64 + o.before j
  let ages := if o.fmtR.mx then
      (List.range ((o.elems + o.gl - 1) / o.gl)).flatMap (fun g =>
        let n := if (g + 1) * o.gl ≤ o.elems then o.gl else o.elems - g * o.gl
        age (g * o.gl) :: (List.range ((n * o.fmtR.width + 4095) / 4096)).map (fun r => age (g * o.gl + r * 4096 / o.fmtR.width)))
    else (List.range ((o.elems * o.fmtR.width + 4095) / 4096)).map (fun r => age (r * 4096 / o.fmtR.width))
  (ages.filter (fun x => decide (x ≤ a))).length

/-- The residual values of each RESID stage, from the rows taken. -/
def epResid (o : EpOp) : List (List Num) :=
  o.resids.map (fun r => streamVals o.fmtR o.gl (Tab.get [] o.got r.1) o.words.length)

/-- The age of an operation in cycle `c`: cycles since its issue, its holds apart. -/
def EpOp.age (o : EpOp) (c : Nat) : Nat := c - o.issued - o.holds

def semEpRun : Sem where
  slots := [.v]
  judge b := illegalIf (bits b.op 31 27 != 0 || !srcOk (fSrc1 b.op) || !srcOk (fSrc2 b.op) || !srcOk (fSrc3 b.op))
  judgeV b :=
    let o := epOf b
    if epIllegal o then [fILLEGAL]
    else
      cause (!(b.k.ownsTiles b.ctx o.tile o.tiles)) fTILEOWNER ++
      cause ((epBufs o).any (b.k.bufOther b.ctx)) fBUFOWNER ++
      cause ((epQueues o).any (fun q => !(b.k.queueOk b.ctx q))) fQUEUEOWNER ++
      cause (o.nc % 4 == 3 && b.s.ordered) fSRUNSEEDED ++
      cause (!(b.k.tilesReadable b.tag o.tile o.tiles) || (epBufs o).any (fun j => !tagOk (b.k.buf j).tag b.tag) ||
        b.writeLeak o.drow o.rows false) fSPECLEAK
  reads op := regsRead [fSrc1 op, fSrc2 op, fSrc3 op]
  stall b :=
    let o := epOf b
    b.k.ep.isSome || b.k.tilesBusy o.tile o.tiles || b.k.sbHit false o.drow o.rows || b.k.sbFull || b.k.portBusy .epilogue
  onStall b s := let o := epOf b; s.rush b.core o.tile o.tiles
  eff b s := s.modCore b.core (fun k =>
    let o := { epOf b with entry := k.nextId }
    { (k.takePort .epilogue k.nextId).takeSb false o.drow o.rows b.ctx .epilogue b.tag with ep := some o })

/-! ### The cycles of the chain (R225, R226) -/

/-- What the operations of the chain need of the residual queues in cycle `c`: the entry of the operation, its stage's place, the
queue, and how many rows. -/
def epNeeds (l : List EpOp) (c : Nat) : List (Nat × Nat × Nat × Nat) :=
  l.flatMap (fun o => o.resids.map (fun r =>
    (o.entry, r.1, r.2, o.residRows r.1 (o.age c) - (Tab.get [] o.got r.1).length)))

/-- The rows of a list of needs, each need's after those of the needs before it that name its queue. -/
def lookAll (k : Core) (tagOf : Nat → Nat) (c : Nat) (hold : Bool) : List (Nat × Nat × Nat × Nat) → Tab Nat → List (List QRow) → Look × List (List QRow)
  | [], _, acc => (.here [], acc)
  | d :: l, past, acc =>
    let skip := Tab.get 0 past d.2.2.1
    match lookRows (tagOf d.1) c hold d.2.2.2 ((k.free d.2.2.1).drop skip) with
    | .here rs => lookAll k tagOf c hold l (Tab.put past d.2.2.1 (skip + d.2.2.2)) (acc ++ [rs])
    | x => (x, acc)

/-- An operation with the rows of its stages added. -/
def EpOp.withRows (o : EpOp) (l : List ((Nat × Nat × Nat × Nat) × List QRow)) : EpOp :=
  l.foldl (fun o d => if d.1.1 = o.entry then
    { o with got := Tab.put o.got d.1.2.1 (Tab.get [] o.got d.1.2.1 ++ d.2.map (·.row)) } else o) o

/-- What an operation reads in cycle `c` of its tiles and bias buffers: batch c′ through port E at age 2 + c′, and its bias as it
reaches each BIAS stage, at age 3 + c′ + the latency before it (R225). -/
def EpOp.read (k : Core) (o : EpOp) (c : Nat) : EpOp :=
  let a := o.age c
  let o1 := if 2 ≤ a ∧ a < 2 + o.batches then
      { o with words := o.words ++ (List.range 64).map (fun e => epWord k o (64 * (a - 2) + e)) }
    else o
  o.stages.zipIdx.foldl (fun (o : EpOp) b =>
    let t := 3 + o.before b.2
    if b.1.1 = 2 ∧ t ≤ a ∧ a < t + o.batches then
      { o with bias := Tab.put o.bias b.2 (Tab.get [] o.bias b.2 ++ (List.range 64).map (fun e =>
          let p := o.place (64 * (a - t) + e); biasCode k b.1.2 p.1 p.2)) }
    else o) o1

/-- Changes every operation of the chain. -/
def Core.mapEp (k : Core) (f : EpOp → EpOp) : Core := { k with ep := k.ep.map f, epTail := k.epTail.map f }

/-- Cycle `c` of the chain: every operation in it goes on, or where a residual row is missing all hold, which counts (R226); a row
of another tag faults the operation's context (R228). -/
def epCycle (s : State) (i c : Nat) : State :=
  let k := s.core i
  let l := k.epTail ++ k.ep.toList
  if l.isEmpty then s
  else
    let hold := l.any (·.hold)
    let needs := epNeeds l c
    let tagOf := fun e => ((l.find? (fun o => o.entry == e)).map (·.tag)).getD 0
    match lookAll k tagOf c hold needs [] [] with
    | (.lack, _) => (s.count48 i 0x588 1).modCore i (fun k => k.mapEp (fun o => { o with holds := o.holds + 1, hold := true }))
    | (.leak, acc) =>
      let e := ((needs[acc.length]?).map (·.1)).getD 0
      match l.find? (fun o => o.entry == e) with
      | none => s
      | some o => (s.modCore i (fun k => { (k.freeSb e).freePort e with
          ep := k.ep.filter (fun x => x.entry ≠ e), epTail := k.epTail.filter (fun x => x.entry ≠ e) })).faultAsync i o.ctx fSPECLEAK 4
    | (.here _, acc) => s.modCore i (fun k =>
        let k1 := needs.foldl (fun k d => k.useRows d.2.2.1 d.2.2.2) k
        k1.mapEp (fun o => { (o.withRows (needs.zip acc)).read k c with hold := false }))

/-- The last batch that output tile `t` of the grid reaches. -/
def EpOp.lastBatch (o : EpOp) (t : Nat) : Nat :=
  let i := 32 * (t / o.tc) + 31
  let j := 32 * (t % o.tc) + 31
  (if o.colMajor then j * o.pn + i else i * o.pk + j) / 64

/-- The age at whose end a data row that holds elements `first` to `last` is written (R225): 4 + c + Λ for its last batch c; with
per-tile scales not before its tiles have been read whole (DESIGN CHOICE, log entry 119). -/
def EpOp.dueAge (o : EpOp) (first last : Nat) : Nat :=
  let b := if o.quant = some 1 then
      ((List.range (last + 1)).drop first).foldl (fun m e =>
        let p := o.place e
        Nat.max m (o.lastBatch ((p.1 / 32) * o.tc + p.2 / 32))) 0
    else last / 64
  4 + b + o.latency

/-- Offsets of the rows an operation writes at the end of cycle `c`: data rows, a group's scale row in the cycle after its last data
row, and per-tile scale rows one by one after the last data row. -/
def EpOp.writes (o : EpOp) (c : Nat) : List Nat :=
  if o.hold then []
  else
    let gl := if o.panel then o.panelGroup else o.gl
    let plan := rowPlan o.fmtD gl o.elems
    let data := plan.filter (fun r =>
      o.dueAge (if r.2.2 then r.2.1 else r.2.1 + 1 - Nat.min (r.2.1 + 1) (4096 / o.fmtD.width + 2)) r.2.1 + r.2.2.toNat == o.age c)
    let tiles := if o.quant = some 1 then
        (List.range ((o.tiles + 127) / 128)).filter (fun j => 4 + o.batches + o.latency + j == o.age c)
      else []
    data.map (·.1) ++ tiles.map (fun j => plan.length + j)

/-- The age at whose end the last row of an operation is written (R225). -/
def EpOp.lastAge (o : EpOp) : Nat := 3 + o.batches + o.latency + o.trailing

/-- The end of cycle `c` for an operation: the rows it writes; with the last one it is over: its entry frees, its flags enter. -/
def epEndOne (i c : Nat) (s : State) (o : EpOp) : State :=
  let s1 := (o.writes c).foldl (fun s r => s.writeOwn i o.ctx o.tag (o.drow + r) ((epCompute o (epResid o)).1.getD r 0)) s
  if o.hold ∨ o.age c ≠ o.lastAge then s1
  else (s1.modCore i (fun k => { (k.freeSb o.entry).freePort o.entry with
      epTail := k.epTail.filter (fun x => x.entry ≠ o.entry) })).raiseFlags i o.ctx o.tag (epCompute o (epResid o)).2

/-- The end of cycle `c` for the chain; after its last port-E read an operation makes way for the next (R226). -/
def epEnd (s : State) (i c : Nat) : State :=
  let k := s.core i
  ((k.epTail ++ k.ep.toList).foldl (epEndOne i c) s).modCore i (fun k =>
    match k.ep with
    | some o => if !o.hold && o.age c == 1 + o.batches then { k with ep := none, epTail := k.epTail ++ [o] } else k
    | none => k)

end Sys2Proof.Machine
end

