-- ==== Sys2Proof/Machine/Fabric.lean ====
section
/-! DEFINITION.
The Understory: routes, rows and control messages in flight, collisions and overload, crossings (spec 11 R329–R334,
R345–R346; 14 R410–R411; 22 R605). -/

namespace Sys2Proof.Machine

/-! ### Coordinates and routes (R329–R331) -/

/-- Global coordinates of the router at physical position `i`. -/
def gxOf (i : Nat) : Nat := posOf i % 10 + 10 * (dieOf i % 2)
def gyOf (i : Nat) : Nat := posOf i / 10 + 8 * (dieOf i / 2)
/-- The position at coordinates (x, y). -/
def routerAt (x y : Nat) : Nat := 80 * (x / 10 + 2 * (y / 8)) + 10 * (y % 8) + x % 10

/-- The outputs of a router: links north 0, east 1, south 2, west 3; the slice remote port 4; the write path for
returning rows 5; the waggle store 6. -/
def outRemote : Nat := 4
def outHome : Nat := 5
def outWaggle : Nat := 6
/-- The local input (R333). -/
def inLocal : Nat := 4

/-- The outputs a row takes along gx, then gy, from (x, y) at cycle `c` by input `inp`: a mesh link takes 1 cyc, a
bridge `br`.  Ends with the cycle and the input at the last router. -/
def walk (br tx ty : Nat) : Nat → Nat → Nat → Nat → Nat → List Hop × Nat × Nat
  | 0, _, _, c, inp => ([], c, inp)
  | f + 1, x, y, c, inp =>
    let go := fun (x' y' cost out nin : Nat) =>
      let r := walk br tx ty f x' y' (c + cost) nin
      (⟨c, routerAt x y, out, inp⟩ :: r.1, r.2)
    if x < tx then go (x + 1) y (if x = 9 then br else 1) 1 3
    else if tx < x then go (x - 1) y (if x = 10 then br else 1) 3 1
    else if y < ty then go x (y + 1) (if y = 7 then br else 1) 2 0
    else if ty < y then go x (y - 1) (if y = 8 then br else 1) 0 2
    else ([], c, inp)

/-- Mesh and bridge links of the route between two cores, on the control network's clock: h + 2k (R345). -/
def ctlDistance (a b : Nat) : Nat := (walk 2 (gxOf b) (gyOf b) 64 (gxOf a) (gyOf a) 0 inLocal).2.1

/-- A row that enters its first link in cycle `c`: its outputs, the last one `out` at the target, and the cycle in
which it is presented there, two later (R332, R337). -/
def rowHops (a b c out : Nat) : List Hop × Nat :=
  let r := walk 8 (gxOf b) (gyOf b) 64 (gxOf a) (gyOf a) c inLocal
  (r.1 ++ [⟨r.2.1, b, out, r.2.2⟩], r.2.1 + 2)

/-- The column at which Edge die `e` attaches, and the input of its routers on that side (R330). -/
def edgeColumn (e : Nat) : Nat := if e = 0 then 0 else 19
def edgeSide (e : Nat) : Nat := if e = 0 then 3 else 1

/-- A row that leaves Edge die `e` in cycle `c`: it enters the mesh by the bridge in the target's gy (R331). -/
def edgeHops (e b c out : Nat) : List Hop × Nat :=
  let r := walk 8 (gxOf b) (gyOf b) 64 (edgeColumn e) (gyOf b) (c + 8) (edgeSide e)
  (r.1 ++ [⟨r.2.1, b, out, r.2.2⟩], r.2.1 + 2)

/-- A row that enters its first link in cycle `c` on its way from position `a` to Edge die `e`: it leaves by the bridge in the
sender's gy (R331). -/
def homeHops (e a c : Nat) : List Hop × Nat :=
  let r := walk 8 (edgeColumn e) (gyOf a) 64 (gxOf a) (gyOf a) c inLocal
  (r.1 ++ [⟨r.2.1, routerAt (edgeColumn e) (gyOf a), edgeSide e, r.2.2⟩], r.2.1 + 8)

/-- A flit received on link `k` of Edge die `e` on its way to the other Edge die: along row k mod 16 (R331). -/
def acrossHops (e k c : Nat) : List Hop × Nat :=
  let y := k % 16
  let r := walk 8 (edgeColumn (1 - e)) y 64 (edgeColumn e) y (c + 8) (edgeSide e)
  (r.1 ++ [⟨r.2.1, routerAt (edgeColumn (1 - e)) y, edgeSide (1 - e), r.2.2⟩], r.2.1 + 8)

/-- A control message sent in cycle `c`: its link outputs from c + 2, and its arrival c + 4 + h + 2k (R337, R345). -/
def ctlHops (a b c : Nat) : List Hop × Nat :=
  let r := walk 2 (gxOf b) (gyOf b) 64 (gxOf a) (gyOf a) (c + 2) inLocal
  (r.1, r.2.1 + 2)

/-- A control message that Edge die `e` sends in cycle `c`, its bridge among the links of its route. -/
def edgeCtlHops (e b c : Nat) : List Hop × Nat :=
  let r := walk 2 (gxOf b) (gyOf b) 64 (edgeColumn e) (gyOf b) (c + 4) (edgeSide e)
  (r.1, r.2.1 + 2)

/-! ### Sending -/

/-- The cycle of the fabric of position `i`'s die. -/
def State.fabricCyc (s : State) (i : Nat) : Nat := s.gladeCyc (640 + dieOf i)

/-- How many cycles after its number an item is presented to the routers at position `i`, where the first receiving cycle that can
take it comes later: the sender lags by more than the crossing absorbs (R332, R410). -/
def State.crossing (s : State) (hops : List Hop) : Nat :=
  match hops with
  | h :: _ => s.fabricCyc h.router + 1 - h.cyc
  | [] => 0

def Hop.later (n : Nat) (h : Hop) : Hop := { h with cyc := h.cyc + n }

/-- Puts a row in flight. -/
def State.launch (s : State) (target : Nat) (o : Origin) (c : Cargo) (h : List Hop × Nat) : State :=
  let n := s.crossing h.1
  { s with flights := s.flights ++ [⟨s.nextFlight, target, o, c, h.1.map (Hop.later n), h.2 + n⟩], nextFlight := s.nextFlight + 1 }

/-- Sends a control message: statuses take places before signals (R346). -/
def State.sendCtl (s : State) (target : Nat) (n : Note) (h : List Hop × Nat) : State :=
  let place := match n with | .status .. => s.nextFlight | .signal _ => 2 ^ 64 + s.nextFlight
  let d := s.crossing h.1
  { s with
    ctls := s.ctls ++ [⟨s.nextFlight, target, n, h.1.map (Hop.later d), place, h.2 + d⟩], nextFlight := s.nextFlight + 1 }

/-- The status of an operation, sent in cycle `c` from position `from_`; only a core awaits one. -/
def State.sendStatus (s : State) (from_ : Nat) (o : Origin) (reason c : Nat) : State :=
  match o with
  | .core i _ op => s.sendCtl i (.status op reason) (ctlHops from_ i c)
  | _ => s

/-! ### One cycle of the routers (R333, R346, R605) -/

/-- Whether position `i` filters what its core sends: STATE 1 or 2 (R605). -/
def State.filters (s : State) (i : Nat) : Bool := s.routerState i == 1 || s.routerState i == 2

/-- Whether position `i`'s router refuses what is addressed to it: R334 holds for a spare as for a fenced position, since R624
names STATE 1 for it (DEDUCED, log entry 123). -/
def State.refuses (s : State) (i : Nat) : Bool := s.filters i

def Flight.at (f : Flight) (c : Nat) : Option Hop :=
  match f.hops with | h :: _ => if h.cyc = c then some h else none | [] => none
def Ctl.at (f : Ctl) (c : Nat) : Option Hop :=
  match f.hops with | h :: _ => if h.cyc = c then some h else none | [] => none

def Flight.isCopy (f : Flight) : Bool := match f.origin with | .copy _ => true | _ => false
/-- Whether a row is one that its core's port sent. -/
def Flight.fromPort (f : Flight) : Bool :=
  match f.cargo with
  | .ret .. => false
  | _ => match f.origin with | .core .. => true | _ => false

/-! ### Crossings (R410, R411) -/

/-- How many items a crossing between two glades holds. -/
def crossRoom : Nat := 8

/-- The router at the far end of a link output, and the input by which a row comes in there. -/
def linkEnd (r out : Nat) : Nat × Nat :=
  let x := gxOf r
  let y := gyOf r
  match out with
  | 0 => (routerAt x (y - 1), 2) | 1 => (routerAt (x + 1) y, 3) | 2 => (routerAt x (y + 1), 0) | _ => (routerAt (x - 1) y, 1)

/-- Whether a row that has taken its last output stands in the crossing behind output `out`. -/
def Flight.leftBy (f : Flight) (out : Nat) : Bool :=
  match f.cargo with | .access _ => out == outRemote | .ret .. => out == outHome | .msg .. => out == outWaggle | .thru _ => false | .side .. => false

/-- Items that stand in the crossing behind output `out` of router `r` in cycle `c` of its fabric: presented in a cycle that the
receiving glade has not reached. -/
def State.crossed (s : State) (r out c : Nat) : Nat :=
  if 4 ≤ out then
    (s.flights.filter (fun f => f.target == r && f.hops.isEmpty && f.leftBy out && decide (s.cycOf r < f.due))).length
  else
    let e := linkEnd r out
    if dieOf e.1 = dieOf r then 0
    else (s.flights.filter (fun f => match f.hops with
      | h :: _ => h.router == e.1 && h.inp == e.2 && decide (h.cyc ≤ c + 2) && decide (s.fabricCyc e.1 < h.cyc)
      | [] => false)).length

/-- Whether a router output is held: its crossing is full (R411).  The links toward the Edge dies end in glades that do not hold
them back. -/
def State.outHeld (s : State) (r out c : Nat) : Bool :=
  !((out == 3 && gxOf r == 0) || (out == 1 && gxOf r == 19)) && decide (crossRoom ≤ s.crossed r out c)

/-- The input number of a row that its held output keeps: it passes before every other. -/
def inHeld : Nat := 7

/-- What becomes of a row at its router in a cycle. -/
inductive Fate where
  | pass | hold | wait | ghost | collide | fence
  deriving DecidableEq, Repr

/-- Whether a row is dropped by the filter of R605 before it competes. -/
def State.ghosted (s : State) (f : Flight) (h : Hop) : Bool := h.inp == inLocal && f.fromPort && s.filters h.router

/-- Whether a copy-engine row keeps off the local input in cycle `c`: the core's port has a row there, or an earlier row of the
engine (R333). -/
def State.copyHeld (s : State) (c : Nat) (act : List Flight) (f : Flight) (h : Hop) : Bool :=
  f.isCopy && h.inp == inLocal && act.any (fun g => match g.at c with
    | some k => k.router == h.router && k.inp == inLocal && g.id != f.id && !(s.ghosted g k) &&
        (!g.isCopy || decide (g.id < f.id))
    | none => false)

/-- The fate of row `f` at hop `h` in cycle `c` among the rows `act` that stand at a router in that cycle: the
filter of R605 first; a copy-engine row gives way to a port row at the local input; the row from the
highest-numbered input passes, or waits at an output that is held; a row for the waggle store of a fenced position is refused at its
router (R333, R334, R411). -/
def State.fate (s : State) (c : Nat) (act : List Flight) (f : Flight) (h : Hop) : Fate :=
  if s.ghosted f h then .ghost
  else if s.copyHeld c act f h then .hold
  else if act.any (fun g => match g.at c with
      | some k => g.id != f.id && k.router == h.router && k.out == h.out && !(s.ghosted g k) && !(s.copyHeld c act g k) &&
          (decide (h.inp < k.inp) || (h.inp == k.inp && decide (g.id < f.id)))
      | none => false) then .collide
  else if s.outHeld h.router h.out c then .wait
  else if h.out == outWaggle && s.refuses h.router then .fence
  else .pass

/-- The copy engine stops with an error at a row (R268, R333). -/
def State.copyStop (s : State) (i r : Nat) : State :=
  (s.modCore i (fun k => { (k.setFld 0x8078 17 17 1).setFld 0x8078 15 0 r with copy := none })).mark (blkCORE i + 0x8078) 17

/-- A dropped row (R333): UCOLL at the router, COLLIDED to its issuing core; a copy stops at the row; a row of an Edge die's own
access answers as lost, and a flit on its way between the Edge dies is lost to the links there. -/
def State.collided (s : State) (f : Flight) (h : Hop) : State :=
  let s1 := s.count48 h.router 0xB00 1
  match f.origin, f.cargo with
  | .copy i, .access a =>
    s1.copyStop i a.row
  | .die _ job, .access a => { s1 with edgeGot := s1.edgeGot ++ [(job, a.m, 7, 0)] }
  | .die _ job, .ret m _ _ => { s1 with edgeGot := s1.edgeGot ++ [(job, m, 7, 0)] }
  | .edge _ k, .thru slot =>
    s1.modLink k (fun l => { l with crossLost := slot :: l.crossLost })
  | .edge .., .side .. => s1
  | o, _ => s1.sendStatus h.router o 7 h.cyc

/-- One cycle of the row network on die `d`. -/
def State.rowCycle (s : State) (d c : Nat) : State :=
  let act := s.flights.filter (fun f => match f.at c with | some h => dieOf h.router == d | none => false)
  if act.isEmpty then s
  else
    let fates := act.filterMap (fun f => (f.at c).map (fun h => (f, h, s.fate c act f h)))
    let fateOf := fun (f : Flight) => (fates.find? (fun x => x.1.id == f.id)).map (·.2.2)
    let s1 := { s with flights := s.flights.filterMap (fun f =>
      match fateOf f with
      | some .pass =>
        match f.cargo, f.hops with
        | .thru _, [_] => none
        | _, _ => some { f with hops := f.hops.drop 1 }
      | some .hold => some { f with hops := f.hops.map (Hop.later 1), due := f.due + 1 }
      | some .wait => some { f with
          hops := (f.hops.map (Hop.later 1)).modifyHead (fun h => { h with inp := inHeld }), due := f.due + 1 }
      | some _ => none
      | none => some f) }
    fates.foldl (fun s x =>
      match x.2.2 with
      | .collide => s.collided x.1 x.2.1
      | .ghost => s.count32Core x.2.1.router 0xB20 1
      | .fence => s.sendStatus x.2.1.router x.1.origin 8 (c + 2)
      | _ => s) s1

/-- Whether message `g` at hop `k` takes a place before `f` at hop `h`: a higher input, or an earlier place. -/
def ctlBefore (g : Ctl) (k : Hop) (f : Ctl) (h : Hop) : Bool :=
  k.router == h.router && k.out == h.out && (decide (h.inp < k.inp) || (h.inp == k.inp && decide (g.place < f.place)))

/-- One cycle of the control network on die `d`: four messages pass at each link output, none at one that is held (R346, R411). -/
def State.ctlCycle (s : State) (d c : Nat) : State :=
  let ghost := fun (f : Ctl) (h : Hop) => h.inp == inLocal && s.filters h.router &&
    (match f.note with | .signal _ => true | _ => false)
  let act := s.ctls.filterMap (fun f => match f.at c with
    | some h => if ghost f h || dieOf h.router != d then none else some (f, h)
    | none => none)
  let passes := fun (f : Ctl) (h : Hop) => decide ((act.filter (fun x => ctlBefore x.1 x.2 f h)).length < 4) &&
    !(s.outHeld h.router h.out c)
  let rank := fun (f : Ctl) (h : Hop) => (act.filter (fun x => ctlBefore x.1 x.2 f h)).length
  let s1 := { s with ctls := s.ctls.filterMap (fun f =>
    match f.at c with
    | none => some f
    | some h =>
      if dieOf h.router ≠ d then some f
      else if ghost f h then none
      else if passes f h then some { f with hops := f.hops.drop 1, place := rank f h } else none) }
  s.ctls.foldl (fun s' f =>
    match f.at c with
    | none => s'
    | some h =>
      if dieOf h.router ≠ d then s'
      else if ghost f h then s'.count32Core h.router 0xB20 1
      else if passes f h then s'
      else (s'.count48 h.router 0xB08 1).raiseCore h.router 5) s1

/-- Whether a flight carries a side flit. -/
def Flight.isSide (f : Flight) : Bool := match f.cargo with | .side .. => true | _ => false

/-- The side flits that have come to their Edge die by cycle `c` join their queues. -/
def State.landSides (s : State) (c : Nat) : State :=
  (s.flights.filter (fun f => f.isSide && f.hops.isEmpty && decide (f.due ≤ c))).foldl (fun s f =>
    match f.cargo with
    | .side k x => { s with flights := s.flights.filter (fun g => g.id ≠ f.id) }.joinSide k x
    | _ => s) s

/-- A side flit for the other Edge die enters the mesh of die `d`, one in a cycle (R331). -/
def State.crossSide (s : State) (d c : Nat) : State :=
  match s.sideCross.find? (fun x => dieOf (routerAt (edgeColumn x.1) x.2.1) == d) with
  | some x => { s with sideCross := s.sideCross.erase x }.launch x.2.2.1 (.edge 0 x.2.2.1) (.side x.2.2.1 x.2.2.2)
      (acrossHops x.1 x.2.1 (c + 2))
  | none => s

/-- Whether a row or message stands at, or is on its way to, a router. -/
def State.moving (s : State) : Bool :=
  s.flights.any (fun f => !f.hops.isEmpty || f.isSide) || s.ctls.any (fun f => !f.hops.isEmpty) || !s.sideCross.isEmpty

/-- Cycle `c` of the fabric of die `d`. -/
def State.fabricCycle (s : State) (d c : Nat) : State := (((s.landSides c).crossSide d c).rowCycle d c).ctlCycle d c

end Sys2Proof.Machine
end

