-- ==== Sys2Proof/Machine/Slice.lean ====
section
/-! DEFINITION.
The slice controller: bank cycles, the remote port and its buffer, remote windows, ordered-window sequencers,
rewrite, scrub, repair and the copy engine (spec 08, 13 R383–R389). -/

namespace Sys2Proof.Machine

/-! ### Local accesses in a cycle (R235, R242) -/

/-- Rows that holders of the write port write at the end of the present cycle `c`, scale rows included (R237, R240). -/
def Core.writesAt (k : Core) (c : Nat) : List Nat :=
  (match k.move with | some m => m.writes c | none => []) ++
  (k.svuTail ++ k.svu.toList).flatMap (fun o => (o.writes c).map (fun r => o.daddr + r)) ++
  (k.epTail ++ k.ep.toList).flatMap (fun o => (o.writes c).map (fun r => o.drow + r))

/-- The shadow row that tag `g` renames in cycle `c`: rename m stands in cycle c₀ + 1 + m of a confirmation from c₀ (R321). -/
def Tag.rename (g : Tag) (c : Nat) : Option Nat :=
  if g.st = 2 ∧ g.done ≠ 0 ∧ g.done ≤ c + g.written.length ∧ c < g.done then g.written[c + g.written.length - g.done]? else none

/-- Rows renamed in cycle `c`. -/
def Core.renames (k : Core) (c : Nat) : List Nat :=
  k.ctx.flatMap (fun x => x.2.tags.flatMap (fun t => (t.2.rename c).toList))

/-- Banks with a local access in the present cycle `c`. -/
def Core.localBanks (k : Core) (c : Nat) : List Nat :=
  (k.writesAt c ++ k.renames c).map (· % 16) ++ (if k.bankUse.1 = c then k.bankUse.2 else [])

/-- Whether the bank of program-visible row `r` holds a local access in the present cycle `c`. -/
def Core.bankBusy (k : Core) (r c : Nat) : Bool := (k.localBanks c).contains (r % 16)

/-- Whether the bank is idle in cycle `c`: no local access, and none of the remote port's (R235). -/
def Core.bankIdle (k : Core) (bank c : Nat) : Bool :=
  !(k.bankBusy bank c) && k.portBank != (c, bank % 16)

/-! ### Windows (R246–R252) -/

namespace Win
def base (w : Win) : Nat := bits w.desc 15 0
def len (w : Win) : Nat := bits w.desc 31 16 + 1
def sfirst (w : Win) : Nat := bits w.desc 40 32
def slast (w : Win) : Nat := bits w.desc 49 41
def sedge (w : Win) : Bool := bit w.desc 50
def rd (w : Win) : Bool := bit w.desc 51
def wr (w : Win) : Bool := bit w.desc 52
def aw (w : Win) : Bool := bit w.desc 53
def afmt (w : Win) : Nat := bits w.desc 55 54
def ord (w : Win) : Bool := bit w.desc 56
def scores (w : Win) : Bool := bit w.desc 57
def has (w : Win) (r : Nat) : Bool := decide (w.base ≤ r) && decide (r < w.base + w.len)
def admits (w : Win) (src : Nat) : Bool :=
  if src < 288 then w.scores && decide (w.sfirst ≤ src) && decide (src ≤ w.slast) else w.sedge
end Win

/-- The source sequence of an ordered window (R383). -/
def State.sequence (s : State) (w : Win) : List Nat :=
  (if w.scores then ((List.range (w.slast + 1)).drop w.sfirst).filter s.inService else []) ++
  (if w.sedge then [0x1F0, 0x1F1, 0x1F2, 0x1F3] else [])

/-- The windows open at the start of cycle `c`: W.OPEN and W.CLOSE take effect at the end of their cycle (R250). -/
def Core.winsAt (k : Core) (c : Nat) : Tab Win := if k.winsWas.1 = c ∧ k.winsWas.2.1 then k.winsWas.2.2 else k.wins

/-- The window that holds a row in cycle `c`: its number and itself.  Open windows never share a row (R248). -/
def Core.winOf (k : Core) (r c : Nat) : Option (Nat × Win) := (k.winsAt c).find? (fun p => p.2.has r)

/-- Keeps the windows as they stood at the start of the present cycle `c`. -/
def Core.keepWins (k : Core) (c : Nat) : Core := { k with winsWas := (c, true, k.winsAt c) }

def fWin (op : W32) : Nat := bits op 5 0

/-- R247: the descriptor's illegal values. -/
def winIllegal (v : W64) : Bool :=
  let w : Win := { owner := 0, desc := v }
  bits v 63 58 != 0 || decide (49151 < w.base + w.len - 1) ||
  (w.scores && (decide (w.slast < w.sfirst) || decide (287 < w.slast))) || (!w.rd && !w.wr && !w.aw) ||
  (w.aw && w.afmt == 3)

/-- Whether the named window is open and another context's. -/
def winOther (b : BC) : Bool := match Tab.find b.k.wins (fWin b.op) with | some w => w.owner != b.ctx | none => false

/-! ### Add-writes (R254, R255) -/

/-- One element of an add-write. -/
def addElem (afmt : Nat) (x y : Nat) : Nat :=
  match afmt with
  | 0 => (fp32.encode .rne 0 ((fp32.decode x).add (fp32.decode y))).1
  | 1 => (bf16.encode .rne 0 ((bf16.decode x).add (bf16.decode y))).1
  | _ => (sat32 (signed 32 x + signed 32 y)).1.toNat

/-- The sum of two rows in an add-write format. -/
def addRows (afmt : Nat) (old new : Row) : Row :=
  let w := if afmt = 1 then 16 else 32
  packRow w ((List.range (4096 / w)).map (fun e => addElem afmt (field old.toNat (w * e) w) (field new.toNat (w * e) w)))

/-! ### Outcomes of an access (R245, R252, R253, R337, R339, R441) -/

/-- REFUSEAT.OP of an access kind. -/
def AccKind.code : AccKind → Nat
  | .read => 0 | .write => 1 | .add => 2 | .copy => 1 | .part .. => 1

/-- A refusal is counted and recorded (R253). -/
def State.refuse (s : State) (i : Nat) (a : Access) (reason : Nat) : State :=
  (s.count16 i 0x8038 1).modCore i (fun k => k.setReg 0x8040
    (BitVec.ofNat 64 (a.row % 2 ^ 16 + a.src * 2 ^ 16 + reason * 2 ^ 25 + a.kind.code * 2 ^ 28)))

/-- CANO.RXREFUSE of a link. -/
def rRxRefuse (k : Nat) : Nat := blkCANO k + 0x48

/-- The record of an access's operation at the slice, or a fresh one. -/
def Core.record (k : Core) (a : Access) : OpRecord :=
  let id := match a.origin with | .core _ _ op => op | _ => 0
  match k.records.find? (fun r => r.id == id && r.origin == a.origin) with
  | some r => r
  | none => ⟨id, a.origin, a.n, 0, 0, 0, 0, a.sig⟩

/-- One more row of an operation is resolved in cycle `c`, with reason 0 where it was applied.  With the last one the
status is sent in c + 1 and, where every row was admitted, the flag is set in c + 3 (R337, R339). -/
def State.resolve (s : State) (i : Nat) (a : Access) (reason c : Nat) : State :=
  let s0 := if reason = 0 then s else s.refuse i a reason
  match a.kind, a.origin with
  | .read, .core j _ _ => s0
      |>.launch j a.origin (.ret a.m 0 reason) (rowHops i j (c + 2) outHome)
  | .read, .die e _ => s0.launch (320 + e) a.origin (.ret a.m 0 reason) (homeHops e i (c + 2))
  | _, .die _ job => { s0 with edgeGot := s0.edgeGot ++ [(job, a.m, reason, 0)] }
  | .copy, .copy j =>
    s0.modCore j (fun k => match k.copy with | some y => { k with copy := some { y with flying := y.flying - 1 } } | none => k)
  | _, .edge code link =>
    if reason ≠ 0 then (s0.countMod 32 32 (rRxRefuse link) 1).failCanopy link 0 (s0.ct / 28)
    else match a.sig with
      | some f => s0.sendCtl i (.signal f) (edgeCtlHops (code % 2) i c)
      | none => s0
  | _, _ =>
    let r := (s0.core i).record a
    let bad := reason ≠ 0 ∧ (r.reason = 0 ∨ a.m < r.badRow)
    let r1 : OpRecord := { r with
      seen := r.seen + 1, last := c, reason := if bad then reason else r.reason, badRow := if bad then a.m else r.badRow }
    let others := (s0.core i).records.filter (fun x => !(x.id == r.id && x.origin == r.origin))
    if r1.seen < r1.n then s0.modCore i (fun k => { k with records := others ++ [r1] })
    else
      let s1 := (s0.modCore i (fun k => { k with records := others })).sendStatus i a.origin r1.reason (c + 1)
      match r1.reason, r1.sig with
      | 0, some f => s1.sendCtl i (.signal f) ([], c + 3)
      | _, _ => s1

/-- The row a remote read returns, in place of the empty one that `resolve` launched. -/
def State.returnRow (s : State) (i : Nat) (a : Access) (v : Row) (c : Nat) : State :=
  match a.origin with
  | .core j _ _ => s.launch j a.origin (.ret a.m v 0) (rowHops i j (c + 2) outHome)
  | .die e _ => s.launch (320 + e) a.origin (.ret a.m v 0) (homeHops e i (c + 2))
  | _ => s

/-- A row that position `i`'s router refuses, in cycle `c`: FENCED to its core; a row that a link received counts in RXREFUSE and
fails the step (R334, R441). -/
def State.refusedRow (s : State) (i : Nat) (f : Flight) (c : Nat) : State :=
  match f.origin, f.cargo with
  | .edge _ link, _ => (s.countMod 32 32 (rRxRefuse link) 1).failCanopy link 0 (s.ct / 28)
  | .die _ job, .access a => { s with edgeGot := s.edgeGot ++ [(job, a.m, 8, 0)] }
  | o, _ => s.sendStatus i o 8 c

/-- Conditions of R252 that need no read of the row, in cycle `c`. -/
def State.judge (s : State) (i : Nat) (a : Access) (c : Nat) : Nat :=
  match (s.core i).winOf a.row c with
  | none => 1
  | some (_, w) =>
    if !w.admits a.src then 2
    else if (match a.kind with | .read => !w.rd | .write => !w.wr | .part .. => !w.wr | .add => !w.aw | .copy => false) then 3
    else if a.kind == .add && s.ordered && !w.ord then 4
    else 0

/-- Admits an add-write to ordered window `n` (R385, R386); a window closed or replaced in this cycle loses it at once (R389). -/
def State.admitOrdered (s : State) (i n : Nat) (a : Access) (c : Nat) : State :=
  match Tab.find (s.core i).wins n with
  | none => s.resolve i a 1 c
  | some w =>
  if w.has a.row = false ∨ w.ord = false then s.resolve i a 1 c
  else if w.turn = a.src then
    s.modCore i (fun k => { k with wins := Tab.put k.wins n { w with apply := w.apply ++ [a] } })
  else if (s.core i).hold.length < 32 then s.modCore i (fun k => { k with hold := k.hold ++ [(n, a)] })
  else s.resolve i a 6 c

/-- The remote port takes an access in cycle `c` (R245, R252, R254, R268). -/
def State.takeAccess (s : State) (i : Nat) (a : Access) (c : Nat) : State :=
  match a.kind with
  | .copy => (s.writeComb i a.row a.data).resolve i a 0 c
  | _ =>
    let r := s.judge i a c
    if r ≠ 0 then s.resolve i a r c
    else
      match (s.core i).winOf a.row c with
      | none => s.resolve i a 1 c
      | some (n, w) =>
        match a.kind with
        | .add =>
          if w.ord then s.admitOrdered i n a c
          else
            match s.readComb i a.row with
            | (s1, none) => s1.resolve i a 5 c
            | (s1, some old) => (s1.writeComb i a.row (addRows w.afmt old a.data)).resolve i a 0 c
        | .read =>
          match s.readComb i a.row with
          | (s1, none) => s1.resolve i a 5 c
          | (s1, some v) => s1.returnRow i a v c
        | .part off n =>
          match s.readComb i a.row with
          | (s1, none) => s1.resolve i a 5 c
          | (s1, some old) => (s1.mergeComb i a.row (setBits old (off + n - 1) off (a.data.toNat % 2 ^ n))).resolve i a 0 c
        | _ => (s.writeComb i a.row a.data).resolve i a 0 c

/-- Whether an access uses a bank cycle when the port takes it in cycle `c`: admission to an ordered window does not (R385). -/
def State.usesBank (s : State) (i : Nat) (a : Access) (c : Nat) : Bool :=
  !(a.kind == .add && (match (s.core i).winOf a.row c with | some (_, w) => w.ord | none => false))

/-! ### The remote port and its buffer (R241–R244) -/

/-- The port is taken in cycle `c`, by an access to row `r`'s bank where it uses one. -/
def Core.takePort_ (k : Core) (c : Nat) (r : Option Nat) : Core :=
  { k with rport := c + 1, portBank := match r with | some x => (c, x % 16) | none => k.portBank }

/-- The port tries an access in cycle `c`: applied, or deferred by a local access in its bank, which counts (R242). -/
def State.tryAccess (s : State) (i : Nat) (a : Access) (c : Nat) : State × Bool :=
  if s.usesBank i a c && (s.core i).bankBusy a.row c then
    ((s.count48 i 0x8028 1).modCore i (fun k => k.takePort_ c none), false)
  else ((s.modCore i (fun k => k.takePort_ c (if s.usesBank i a c then some a.row else none))).takeAccess i a c, true)

/-- The head of the remote buffer is tried in cycle `c`, where the port is free in it. -/
def State.portHead (s : State) (i c : Nat) : State :=
  match (s.core i).rbuf with
  | [] => s
  | a :: rest =>
    if c < (s.core i).rport then s
    else
      match s.tryAccess i a c with
      | (s1, true) => s1.modCore i (fun k => { k with rbuf := rest })
      | (s1, false) => s1

/-- The time a slice's arrays take from retention to active, in ct (R578). -/
def arrayTime : Nat := 15000

/-- The first access to reach a slice in retention brings its arrays back; the remote port waits for them (R578). -/
def State.wakeArray (s : State) (i : Nat) : State :=
  if (s.core i).array = some 0 then
    s.modCore i (fun k => { k with
      array := some (s.ct + arrayTime)
      rport := Nat.max k.rport (s.cycOf i + (arrayTime + s.period - 1) / s.period) })
  else s

/-- An Understory access arrives at the remote port in cycle `c`: the buffer's head goes first; an access not applied enters the
buffer's tail, or is refused BUSY where all four places are held (R241–R243). -/
def State.arrive (s0 : State) (i : Nat) (a : Access) (c : Nat) : State :=
  let s := (s0.wakeArray i).portHead i c
  let k := s.core i
  if k.rbuf.isEmpty ∧ k.rport ≤ c then
    match s.tryAccess i a c with
    | (s2, true) => s2
    | (s2, false) => s2.modCore i (fun k => { k with rbuf := [a] })
  else if k.rbuf.length < 4 then s.modCore i (fun k => { k with rbuf := k.rbuf ++ [a] })
  else s.resolve i a 6 c

/-! ### Ordered-window sequencers (R384–R389) -/

/-- The turn of window `n` passes to the next source of its sequence, whose held rows join the apply list. -/
def State.passTurn (s : State) (i n : Nat) : State :=
  match Tab.find (s.core i).wins n with
  | none => s
  | some w =>
    let sq := s.sequence w
    let next := match (sq.drop ((sq.idxOf w.turn) + 1)).head? with | some x => x | none => sq.headD w.turn
    s.modCore i (fun k =>
      let mine := k.hold.filter (fun h => h.1 == n && h.2.src == next)
      { k with
        hold := k.hold.filter (fun h => !(h.1 == n && h.2.src == next))
        wins := Tab.put k.wins n { w with turn := next, apply := w.apply ++ mine.map (·.2) } })

/-- The ready sequencer that applies in cycle `c`: the lowest-numbered window whose head's bank is free. -/
def Core.readySeq (k : Core) (c : Nat) : Option (Nat × Win × Access) :=
  k.wins.findSome? (fun p => match p.2.apply with
    | a :: _ => if p.2.ord && decide (Tab.get 0 k.seqNext p.1 ≤ c) && !k.bankBusy a.row c then some (p.1, p.2, a) else none
    | [] => none)

/-- Whether a row ends its source's turn (R384). -/
def Access.endsTurn (a : Access) : Bool := a.kind == .add && a.m + 1 == a.n && a.sig.isSome

/-- Cycle `c` of the sequencers: where one is ready it applies the head of its list as an add-write, taking the remote port, and
applies again four cycles later at the earliest (R387). -/
def seqCycle (s : State) (i c : Nat) : State :=
  let k := s.core i
  if c < k.rport then s
  else
    match k.readySeq c with
    | none => s
    | some (n, w, a) =>
      let s1 := s.modCore i (fun k => { k.takePort_ c (some a.row) with
        wins := Tab.put k.wins n { w with apply := w.apply.drop 1 }, seqNext := Tab.put k.seqNext n (c + 4) })
      let s2 := match s1.readComb i a.row with
        | (s2, none) => s2.resolve i a 5 c
        | (s2, some old) => (s2.writeComb i a.row (addRows w.afmt old a.data)).resolve i a 0 c
      if a.endsTurn && a.src == w.turn then s2.passTurn i n else s2

/-- The rows an ordered window loses when it closes or is replaced (R389). -/
def State.dropWindow (s : State) (i n : Nat) : State :=
  match Tab.find (s.core i).wins n with
  | none => s
  | some w =>
    let held := ((s.core i).hold.filter (fun h => h.1 == n)).map (·.2)
    let s1 := s.modCore i (fun k => { k with
      hold := k.hold.filter (fun h => h.1 ≠ n), wins := Tab.erase k.wins n })
    (held ++ w.apply).foldl (fun s a => s.resolve i a 1 (s.cycOf i)) s1

def semWOpen : Sem where
  slots := [.x]
  judge b := illegalIf (bits b.op 31 27 != 0 || bits b.op 17 6 != 0 || !srcOk (fSrc1 b.op)) ++
    cause (winOther b) fWINOWNER
  judgeV b :=
    let w : Win := { owner := b.ctx, desc := b.a }
    illegalIf (winIllegal b.a) ++
    cause (b.k.wins.any (fun p => p.1 ≠ fWin b.op && overlap w.base w.len p.2.base p.2.len) || b.k.shares w.base w.len)
      fWINOVERLAP
  reads op := regsRead [fSrc1 op]
  eff b s :=
    let w : Win := { owner := b.ctx, desc := b.a }
    let s1 := (s.modCore b.core (fun k => k.keepWins b.cyc)).dropWindow b.core (fWin b.op)
    let w1 := { w with turn := (s1.sequence w).headD 0 }
    s1.modCore b.core (fun k => { k with wins := Tab.put k.wins (fWin b.op) w1 })

def semWClose : Sem where
  slots := [.x]
  judge b := illegalIf (bits b.op 31 6 != 0) ++ cause (winOther b) fWINOWNER
  eff b s := (s.modCore b.core (fun k => k.keepWins b.cyc)).dropWindow b.core (fWin b.op)

/-- Closes every window of a context (R56). -/
def State.closeWindows (s : State) (i n : Nat) : State :=
  ((s.core i).wins.filter (fun p => p.2.owner == n)).foldl (fun s p => s.dropWindow i p.1) s

/-! ### Rewrite, scrub and repair (R260, R263–R266) -/

/-- Takes the correctable errors out of a physical row. -/
def Core.correct (k : Core) (p : Nat) : Core :=
  { k with defects := k.defects.filter (fun e => !(e.1 / 64 == p && !e.2)) }

/-- Canopy-time units in a microsecond. -/
def ctPerUs : Nat := 10000

/-- The lowest unused spare row of a bank, as a physical row. -/
def Core.spareRow (k : Core) (bank : Nat) : Option Nat :=
  ((List.range 64).map (fun j => bank * 3136 + 3072 + j)).find? (fun p =>
    !(Tab.get [] k.spareUsed bank).contains p)

/-- A write to CORE.SLICE.REPAIR (R265, R266).  A row that no slice has is refused. -/
def repairWrite (s : State) (i : Nat) (v : W64) : State :=
  if bits v 17 16 ≠ 1 then s
  else
    let r := bits v 15 0
    let k := s.core i
    let s1 := s.modCore i (fun k => k.setFld 0x8060 15 0 r)
    if k.repair.isSome || (k.spareRow (r % 16)).isNone || k.shares r 1 || decide (49151 < r) then s1.coreEvent i 0x8060 17
    else s1.modCore i (fun k => { k with repair := some r })

/-- The scrubber reads physical row `p` in an idle cycle of its bank: it corrects and rewrites it, or reports it (R263). -/
def State.scrubRow (s : State) (i p : Nat) : State :=
  let bad := (s.core i).badWords p
  let s3 := if bad.isEmpty then s else s.reportErrors i ((s.core i).visible p) true bad
  s3.modCore i (fun k =>
    let k1 := if bad.any (·.2) then k else k.correct p
    if p + 1 < 50176 then k1.setFld 0x8050 15 0 (p + 1)
    else (k1.setReg 0x8050 (plainCount 63 32 1 (k1.reg 0x8050))).setFld 0x8050 15 0 0)

/-- The firmware that asked for a repair appends it to the repair record once DONE is set (R267). -/
def State.recordRepair (s : State) (i r : Nat) : State := { s with nv := { s.nv with repairs := s.nv.repairs ++ [(i, r)] } }

/-- A repair takes effect in one idle cycle of the row's bank: its bits go unchanged to a spare row, and the map entry moves (R265,
R266). -/
def State.repairRow (s1 : State) (i r : Nat) : State :=
  let k := s1.core i
  let p := k.phys r
  match k.spareRow (r % 16) with
  | none => s1
  | some q =>
    let raw := (k.badWords p).any (·.2)
    let moved := (k.badWords p).foldl (fun d w => Tab.put d (q * 64 + w.1) w.2)
      (k.defects.filter (fun e => e.1 / 64 != p && e.1 / 64 != q))
    let s2 := { s1 with comb := writeRow s1.comb (combAddr i q) (s1.physRow i p) }
    let s3 := s2.modCore i (fun k => { k with
        repair := none, rowMap := Tab.put k.rowMap r q, defects := moved, dead := k.dead ++ [p]
        spareUsed := Tab.put k.spareUsed (r % 16) (Tab.get [] k.spareUsed (r % 16) ++ [q]) })
    (((if raw then s3.coreEvent i 0x8060 18 else s3).coreEvent i 0x8060 16).recordRepair i r)

/-- The maintenance operation of cycle `c`, one at most: a queued row is rewritten, or else a repair, or else a begun scrub step,
where its bank is idle (R235, R260, R263, R265).  Arrays in retention wait (R578). -/
def maintEnd (s : State) (i c : Nat) : State :=
  let k := s.core i
  if k.array.isSome then s
  else
    match k.rewrites with
    | p :: rest =>
      if k.bankIdle (p / 3136) c then s.modCore i (fun k => { k.correct p with rewrites := rest }) else s
    | [] =>
      match k.repair with
      | some r => if k.bankIdle r c then s.repairRow i r else s
      | none =>
        match k.scrubbing with
        | some p => if k.bankIdle (p / 3136) c then (s.scrubRow i p).modCore i (fun k => { k with scrubbing := none }) else s
        | none => s

/-- A write to CORE.SLICE.SHADOW (R258). -/
def shadowWrite (s : State) (i : Nat) (v : W64) : State :=
  let k := s.core i
  let base := bits v 15 0
  let len := bits v 29 16
  let s1 := if bit v 63 then s.coreClear i 0x8068 63 else s
  if k.shadow = (base, len) then s1
  else if !k.anyTask && base % 16 == 0 && len % 16 == 0 && decide (len ≤ 8192) && decide (base + len ≤ 49152) then
    s1.modCore i (fun k => (k.setFld 0x8068 15 0 base).setFld 0x8068 29 16 len)
  else s1.coreEvent i 0x8068 63

/-! ### The copy engine (R268, R269) -/

/-- A write of GO to CORE.SLICE.COPY. -/
def copyGo (s : State) (i : Nat) (v : W64) : State :=
  if bit v 0 = false then s
  else
    let pos := bits v 7 1
    let t := 80 * bits v 9 8 + pos
    let okay := s.inClearing && decide (pos < 80) && (s.fence t == 1 || s.fence t == 2) && (s.core i).copy.isNone
    if okay then s.modCore i (fun k => { k.setFld 0x8078 15 0 0 with copy := some ⟨t, 0, 0⟩ }) else s.coreEvent i 0x8078 18

/-- The next row of a copy: the shadow area is skipped. -/
def Core.copyFrom (k : Core) (r : Nat) : Nat := if k.shares r 1 then k.shadow.1 + k.shadow.2 else r

/-- Cycle `c` of the copy engine, where no Understory access has taken the remote port: it reads the next row and the row enters
its route; a bank with a local access makes it retry (R241, R242, R268).  An uncorrectable word stops it at the row. -/
def copyEnd (s0 : State) (i c : Nat) : State :=
  match (s0.core i).copy with
  | none => s0
  | some y =>
    let r := (s0.core i).copyFrom y.row
    if 49151 < r then s0
    else
      let s := s0.wakeArray i
      let k := s.core i
      if c < k.rport ∨ !k.rbuf.isEmpty ∨ k.bankBusy r c then s
      else
        match (s.modCore i (fun k => k.takePort_ c (some r))).readComb i r with
        | (s2, none) => s2.copyStop i r
        | (s2, some v) =>
          (s2.modCore i (fun k =>
            let next := Nat.min 49152 (k.copyFrom (r + 1))
            { k.setFld 0x8078 15 0 next with copy := some { y with row := next, flying := y.flying + 1 } })).launch y.target
              (.copy i) (.access ⟨.copy, r, v, 0, .copy i, 0, 1, none⟩) (rowHops i y.target (c + 3) outRemote)

end Sys2Proof.Machine
end

