-- ==== Sys2Proof/Machine/Streams.lean ====
section
/-! DEFINITION.
Host window rows, the words of stream programs, the order of row operations, and what the Forager grants in a cycle
(spec 09 R273–R284, R300, R517). -/

namespace Sys2Proof.Machine

/-! ### The host port's channels -/

def rLstat : Nat := blkCXLP + 0x8
def rHchBind (c : Nat) : Nat := blkCXLP + 0x100 + 0x20 * c
def rHchStat (c : Nat) : Nat := blkCXLP + 0x108 + 0x20 * c
def rHchRow (c : Nat) : Nat := blkCXLP + 0x110 + 0x20 * c
def rHchRows (c : Nat) : Nat := blkCXLP + 0x118 + 0x20 * c
def rHtt (e : Nat) : Nat := blkCXLP + 0x80000 + 8 * e
def rHttsync : Nat := blkCXLP + 0x10
def rHcto : Nat := blkCXLP + 0x18
/-- The MSI-X table's control word of a vector, and the Pending Bit Array. -/
def rMsixCtl (v : Nat) : Nat := blkCXLP + 0x1000 + 16 * v + 8
def rPba : Nat := blkCXLP + 0x2000
/-- Where the model keeps the RAS capability's poison status, in the component register block (log entry 40). -/
def rRas : Nat := blkCXLP + 0x10000

/-- CXLP.LSTAT.STATE is UP. -/
def State.hostUp (s : State) : Bool := s.fld rLstat 2 0 == 2

/-- Whether CXL.cache carries requests: the link is up, and its stream has not left the secure state (R519, R526). -/
def State.lineUp (s : State) : Bool := s.hostUp && !(s.port.ideDead.contains 1)

def State.send (s : State) (m : OutMsg) : State := { s with out := s.out ++ [m] }

/-- Raises an MSI-X vector (R522): a masked one sets its pending bit; with the link down the message is lost. -/
def State.msix (s : State) (v : Nat) : State :=
  if bit (s.reg (rMsixCtl v)) 32 then s.setFlag rPba v
  else if s.hostUp then s.send (.msix v) else s

/-! ### Translation (R300, R303) -/

/-- The host address of host window row `w`, or the halt reason. -/
def State.translate (s : State) (w : Nat) (write : Bool) : Nat ⊕ Nat :=
  let e := s.reg (rHtt (w / 4096 % 65536))
  if !(bit e 63) || bits e 60 52 != 0 || bits e 20 0 != 0 then .inr 1
  else if !(if write then bit e 62 else bit e 61) then .inr 2
  else .inl (bits e 51 21 * 2 ^ 21 + w % 4096 * 512)

/-! ### Rows outstanding -/

def State.hrows (s : State) (c : Nat) : List HRow := Tab.get [] s.hch c
def State.setHrows (s : State) (c : Nat) (l : List HRow) : State := { s with hch := Tab.put s.hch c l }

/-- Line j of a row. -/
def rowLine (v : Row) (j : Nat) : Line := BitVec.ofNat 512 (field v.toNat (512 * j) 512)

/-- A channel issues a row as eight line requests, in ascending order (R517). -/
def State.issueHost (s : State) (c : Nat) (h : HRow) : State :=
  let wrCur := bit (s.reg (rHchBind c)) 11
  let s1 := (List.range 8).foldl (fun s j =>
    s.send (.lineRequest c h.write wrCur (h.pa + 64 * j) (if h.write then rowLine h.data j else 0))) s
  s1.setHrows c (s1.hrows c ++ [h])

def Core.stream (k : Core) (t : Nat) : Option Stream := Tab.find k.streams t
def Core.setStream (k : Core) (t : Nat) (x : Stream) : Core := { k with streams := Tab.put k.streams t x }
def Core.rqueue (k : Core) (q : Nat) : RQueue := Tab.get {} k.rq q
def Core.wqueue (k : Core) (q : Nat) : List WqEntry := Tab.get [] k.wq q
/-- Releases one reservation of a Forager queue. -/
def Core.unreserve (k : Core) (q : Nat) : Core :=
  let f := k.queue q
  { k with fq := Tab.put k.fq q { f with
      resv := f.resv - 1, owner := if f.rows.isEmpty && f.resv ≤ 1 then none else f.owner } }

/-! ### Stream words (R273–R277) -/

/-- Opcode of a stream word. -/
def wordOp (w : W64) : Nat := bits w 63 60

/-- Gate LEVEL of an action word. -/
def gateOf (w : W64) : Nat := bits w 53 51

def mvSreg (w : W64) : Nat := bits w 59 58
def mvToReg (w : W64) : Bool := bit w 57
def mvDq (w : W64) : Nat := bits w 56 54
def mvDreg (w : W64) : Nat := bits w 55 54
def mvN (w : W64) : Nat := bits w 50 45 + 1
def mvCq (w : W64) : Nat := bits w 44 43
def mvTok (w : W64) : Bool := bit w 42

/-- The ADDR, STRIDE or LOOP in force: the last word that satisfies `p`. -/
def lastWord (ws : List W64) (p : W64 → Bool) : Option W64 := (ws.filter p).getLast?

/-- The ADDR word of register k. -/
def Stream.addr (x : Stream) (k : Nat) : Option W64 := lastWord x.words (fun w => wordOp w == 1 && bits w 59 58 == k)
/-- SPACE of register k; 3 where it has no ADDR. -/
def Stream.space (x : Stream) (k : Nat) : Nat := match x.addr k with | some w => bits w 57 56 | none => 3
def Stream.chanOf (x : Stream) (k : Nat) : Nat := match x.addr k with | some w => bits w 55 53 | none => 0
def Stream.stride (x : Stream) (k l : Nat) : Nat :=
  match lastWord x.words (fun w => wordOp w == 2 && bits w 59 58 == k && bits w 57 55 == l) with
  | some w => bits w 31 0
  | none => 0
/-- N_l (R275). -/
def Stream.count (x : Stream) (l : Nat) : Nat :=
  match lastWord x.words (fun w => wordOp w == 3 && bits w 57 55 == l) with
  | some w => bits w 15 0 + 1
  | none => 1

/-- The value of register k at the present point (R276). -/
def Stream.regAt (x : Stream) (k : Nat) : Nat :=
  match x.addr k with
  | none => 0
  | some w =>
    let arg := match bits w 52 51 with
      | 1 => bits x.a0 31 0 | 2 => bits x.a0 63 32 | 3 => bits x.a1 31 0 | _ => 0
    (bits w 31 0 + arg + ((List.range 5).map (fun l => x.idx.getD l 0 * x.stride k l)).sum) % 2 ^ 32

/-- An address with a signed 16-bit offset and the row of the move, modulo 2^32. -/
def rowPlus (a off m : Nat) : Nat := wrap 32 ((a : Int) + signed 16 off + m)

def actionWord (w : W64) : Bool := wordOp w == 4 || wordOp w == 5 || wordOp w == 6

/-- Whether a word breaks R274–R277 within the program `x`. -/
def badWord (x : Stream) (w : W64) : Bool :=
  match wordOp w with
  | 1 => bits w 50 32 != 0 || bits w 57 56 == 3 || (bits w 57 56 != 2 && bits w 55 53 != 0)
  | 2 => bits w 54 32 != 0 || decide (4 < bits w 57 55)
  | 3 => bits w 59 58 != 0 || bits w 54 16 != 0 || decide (4 < bits w 57 55)
  | 4 =>
    let src := x.space (mvSreg w)
    let dst := x.space (mvDreg w)
    bits w 41 32 != 0 || decide (4 < gateOf w) || src == 3 ||
    (if mvToReg w then
      bit w 56 || dst == 3 || (if src = 0 then dst == 0 || decide (1 < mvCq w) else dst != 0)
     else src == 0 && mvCq w != 0) ||
    (mvTok w && src == 0)
  | 5 => bits w 59 54 != 0 || bits w 49 6 != 0 || decide (4 < gateOf w)
  | 6 => bits w 59 54 != 0 || bits w 50 6 != 0 || decide (4 < gateOf w)
  | _ => true

/-- Whether a set-up word follows an action word, or no action word stands in the program. -/
def badOrder (ws : List W64) : Bool :=
  let rest := ws.dropWhile (fun w => !(actionWord w))
  rest.isEmpty || rest.any (fun w => !(actionWord w))

/-- The words of half `h` of a program row, up to its END (R273), and whether that END holds a reserved bit. -/
def programWords (r : Row) (half : Bool) : List W64 × Bool :=
  let all := (List.range 32).map (fun j => BitVec.ofNat 64 (field r.toNat (2048 * half.toNat + 64 * j) 64))
  let ws := all.takeWhile (fun w => wordOp w != 15)
  (ws, match all.drop ws.length with | e :: _ => bits e 59 0 != 0 | [] => false)

/-! ### The order of row operations (R275, R282) -/

/-- Whether action `w` is performed at a point. -/
def gateOpen (idx : List Nat) (w : W64) : Bool := (idx.take (gateOf w)).all (· == 0)

/-- The first action of a point from word index `a` on; 32 where there is none. -/
def Stream.actionFrom (x : Stream) (idx : List Nat) (a : Nat) : Nat :=
  ((List.range x.words.length).find? (fun j =>
    decide (a ≤ j) && (match x.words[j]? with | some w => actionWord w && gateOpen idx w | none => false))).getD 32

/-- The lowest gate of the program's actions: between points where levels below it are zero nothing happens. -/
def Stream.minGate (x : Stream) : Nat := (x.words.filter actionWord).foldl (fun g w => Nat.min g (gateOf w)) 4

/-- The next point, counting from level `l`; none after the last. -/
def Stream.bump (x : Stream) : Nat → Nat → List Nat → Option (List Nat)
  | 0, _, _ => none
  | f + 1, l, idx =>
    if 5 ≤ l then none
    else if idx.getD l 0 + 1 < x.count l then some (idx.set l (idx.getD l 0 + 1))
    else x.bump f (l + 1) (idx.set l 0)

/-- The word of the pending operation. -/
def Stream.word (x : Stream) : W64 := x.words.getD x.action 0

/-- The position after the pending operation. -/
def Stream.advance (x : Stream) : Stream :=
  if wordOp x.word = 4 ∧ x.m + 1 < mvN x.word then { x with m := x.m + 1 }
  else
    let a := x.actionFrom x.idx (x.action + 1)
    if a < 32 then { x with action := a, m := 0 }
    else
      match x.bump 6 x.minGate x.idx with
      | none => { x with action := 32, m := 0 }
      | some p => { x with idx := p, action := x.actionFrom p 0, m := 0 }

/-! ### Grants within a cycle (R283, R284) -/

/-- What has been granted in cycle `c`: a stream slot for each read port, `grantCellar`, `grantHost`, `grantHome`. -/
def Core.granted (k : Core) (c : Nat) : List Nat := if k.grantCycle = c then k.grants else []
def Core.grant (k : Core) (c g : Nat) : Core := { k with grants := k.granted c ++ [g], grantCycle := c }
def grantCellar : Nat := 100
def grantHost : Nat := 101
def grantHome : Nat := 102

/-- Read ports the Forager has left in cycle `c`. -/
def Core.portsLeft (k : Core) (c : Nat) : Nat := k.portsFree c - ((k.granted c).filter (· < 100)).length

/-- Where the pending operation of a stream goes and comes from: the spaces and rows of a MOVE. -/
structure MoveOp where
  src : Nat
  srow : Nat
  toReg : Bool
  dst : Nat
  drow : Nat
  dq : Nat
  cq : Nat
  tok : Bool
  schan : Nat
  dchan : Nat
  deriving DecidableEq, Repr

/-- The pending row operation of a MOVE (R277). -/
def Stream.moveOp (x : Stream) : MoveOp :=
  let w := x.word
  { src := x.space (mvSreg w), srow := rowPlus (x.regAt (mvSreg w)) (bits w 31 16) x.m, toReg := mvToReg w
    dst := x.space (mvDreg w), drow := rowPlus (x.regAt (mvDreg w)) (bits w 15 0) x.m, dq := mvDq w
    cq := mvCq w, tok := mvTok w, schan := x.chanOf (mvSreg w), dchan := x.chanOf (mvDreg w) }

/-- Valid rows of a space (R276). -/
def spaceRows (sp : Nat) : Nat := match sp with | 0 => 49152 | 1 => 1476562500 | _ => 268435456

def MoveOp.inRange (o : MoveOp) : Bool :=
  decide (o.srow < spaceRows o.src) && (!o.toReg || decide (o.drow < spaceRows o.dst))

/-- R318, R319: home-slice rows that a stream may not touch. -/
def Core.streamLeak (k : Core) (x : Stream) (o : MoveOp) : Bool :=
  (o.src == 0 && k.shares o.srow 1 && !(k.inExtent x.ctx x.tag o.srow 1)) ||
  (o.toReg && o.dst == 0 && (k.shares o.drow 1 || x.tag != 0) && !(k.inExtent x.ctx x.tag o.drow 1))

/-- Whether a stream may be granted an operation: it runs, and its program has been decoded. -/
def Stream.runs (x : Stream) : Bool := (x.st == 2 || x.st == 3) && decide (x.action < 32)

/-- What the grants of a cycle have left: read ports, the Cellar grant, the host grant, request credits; and what they have
taken of each Forager queue (with its owner), read queue, write queue and channel. -/
structure Avail where
  ports : Nat
  cellar : Bool
  host : Bool
  credits : Nat
  fq : Tab (Nat × Option Nat) := []
  rq : Tab Nat := []
  wq : Tab Nat := []
  chan : Tab Nat := []
  deriving DecidableEq, Repr

/-- Entries a read queue holds in cycle `c`: one that is delivered frees at the end of its cycle (R292). -/
def RQueue.held (r : RQueue) (c : Nat) : Nat := r.entries.length + if r.gone.1 = c then r.gone.2 else 0

/-- Entries and reservations of a Forager queue, and its owner, after the grants of `a`. -/
def Core.fqHeld (k : Core) (a : Avail) (q : Nat) : Nat × Option Nat :=
  let f := k.queue q
  match Tab.find a.fq q with
  | some t => (f.rows.length + f.resv + t.1, t.2)
  | none => (f.rows.length + f.resv, f.owner)

/-- Whether Forager queue `q` can take a reservation of context `n`: a free entry, and no other owner (R287, R288). -/
def Core.fqRoom (k : Core) (a : Avail) (q n : Nat) : Bool :=
  decide ((k.fqHeld a q).1 < 16) && ((k.fqHeld a q).2 == none || (k.fqHeld a q).2 == some n)

/-- One reservation more. -/
def Core.fqTake (k : Core) (a : Avail) (q n : Nat) : Avail :=
  { a with fq := Tab.put a.fq q ((k.fqHeld a q).1 + 1 - ((k.queue q).rows.length + (k.queue q).resv), some n) }

/-- Whether a row operation finds its resources: granted, lacking nothing but a read port, or lacking others. -/
inductive Grant where
  | given | lacksPort | lacks
  deriving DecidableEq, Repr

/-- Whether a write to the host finds its channel's link up and its page present and writable (R303); a row out of range is judged
at its grant (R278). -/
def State.hostTakes (s : State) (o : MoveOp) : Bool :=
  !(o.toReg && o.dst == 2) || !o.inRange ||
    (s.lineUp && (match s.translate o.drow true with | .inr _ => false | .inl _ => true))

/-- The grant conditions of R283 for the pending row operation of a stream of core `k` in cycle `c`, and what is left after it. -/
def State.tryGrant (s : State) (k : Core) (c : Nat) (a : Avail) (x : Stream) : Grant × Avail :=
  let o := x.moveOp
  if o.src = 0 then
    let room := if o.toReg then decide ((k.wqueue o.cq).length + Tab.get 0 a.wq o.cq < 16) else k.fqRoom a o.dq x.ctx
    if !room || !s.hostTakes o then (.lacks, a)
    else if a.ports = 0 then (.lacksPort, a)
    else
      let b := { a with ports := a.ports - 1 }
      (.given, if o.toReg then { b with wq := Tab.put b.wq o.cq (Tab.get 0 b.wq o.cq + 1) } else k.fqTake b o.dq x.ctx)
  else if 16 ≤ (k.rqueue o.cq).held c + Tab.get 0 a.rq o.cq || !(o.toReg || k.fqRoom a o.dq x.ctx) then (.lacks, a)
  else
    let b := { a with rq := Tab.put a.rq o.cq (Tab.get 0 a.rq o.cq + 1) }
    let d := if o.toReg then b else k.fqTake b o.dq x.ctx
    if o.src = 1 then
      if !a.cellar || a.credits == 0 then (.lacks, a) else (.given, { d with cellar := false, credits := d.credits - 1 })
    else if !a.host || decide (64 ≤ (s.hrows o.schan).length + Tab.get 0 a.chan o.schan) ||
        (o.inRange && !(s.lineUp && (match s.translate o.srow false with | .inr _ => false | .inl _ => true))) then (.lacks, a)
    else (.given, { d with host := false, chan := Tab.put d.chan o.schan (Tab.get 0 d.chan o.schan + 1) })

/-- Whether a stream has a row operation that may be granted in cycle `c`. -/
def Stream.asks (x : Stream) (c : Nat) : Bool := x.runs && decide (x.from_ ≤ c) && wordOp x.word == 4

/-- What the Forager may still grant in cycle `c`.  Fills that wait for a request credit come before any stream (R296). -/
def Core.avail (k : Core) (c : Nat) : Avail :=
  let g := k.granted c
  { ports := k.portsLeft c, cellar := !(g.contains grantCellar), host := !(g.contains grantHost)
    credits := 16 - k.creditsUsed - (k.fills.filter (fun f => !f.credit)).length }

/-- The streams in the order of R284: ascending slots from CYCLE.COUNT mod 16, wrapping. -/
def Core.inOrder (k : Core) (c : Nat) : List (Nat × Stream) :=
  ((List.range 16).map (fun j => (c + j) % 16)).filterMap (fun t => (k.stream t).map (fun x => (t, x)))

/-- The slots that the rule of R284 grants in cycle `c` beyond those granted in it, and those whose home-slice read finds no free
read port. -/
def State.grantPlan (s : State) (i c : Nat) : List Nat × List Nat :=
  let k := s.core i
  let r := ((k.inOrder c).filter (fun p => p.2.asks c)).foldl (fun (acc : (List Nat × List Nat) × Avail) p =>
    match s.tryGrant k c acc.2 p.2 with
    | (.given, b) => ((acc.1.1 ++ [p.1], acc.1.2), b)
    | (.lacksPort, _) => ((acc.1.1, acc.1.2 ++ [p.1]), acc.2)
    | (.lacks, _) => acc) ((([] : List Nat), ([] : List Nat)), k.avail c)
  r.1

/-- The end of cycle `c` for the Forager: each read that found no free port counts in RDDEFER (R166), and a write that a holder's
row kept off the write port in WRDEFER (R240). -/
def foragerEnd (s : State) (i c : Nat) : State :=
  let k := s.core i
  let loads := if k.portsLeft c = 0 then
      (k.streams.filter (fun p => p.2.st == 1 && decide (p.2.from_ ≤ c))).length
    else 0
  let n := (s.grantPlan i c).2.length + loads
  let s1 := if n = 0 then s else s.count48 i 0x488 n
  if !k.fwrites.isEmpty && !(k.writesAt c).isEmpty && decide (k.fwNext ≤ c) then s1.count48 i 0x8030 1 else s1

/-- Whether the Forager of a core has reads or writes that a port may keep waiting. -/
def Core.foraging (k : Core) : Bool :=
  !k.fwrites.isEmpty || k.streams.any (fun p => p.2.st == 1 || (p.2.runs && wordOp p.2.word == 4 && p.2.moveOp.src == 0))

/-- Rows that a channel issues at the end of cycle `c`: writes to the host, as they enter their write queue (R285, R517). -/
def hostEnd (s : State) (i c : Nat) : State :=
  let due := (s.core i).hout.filter (fun h => decide (h.1 ≤ c))
  if due.isEmpty then s
  else due.foldl (fun s h => s.issueHost h.2.1 h.2.2) (s.modCore i (fun k => { k with hout := k.hout.filter (fun h => decide (c < h.1)) }))

end Sys2Proof.Machine
end

