-- ==== Sys2Proof/Machine/Units.lean ====
section
/-! DEFINITION.
The units of the cores as time passes: one cycle of a core's units and of its slice's port, and canopy time with them.

The state at cycle c of a core stands at the start of that cycle.  On reaching it the end of cycle c − 1 comes first: what the
remote port, the copy engine and the maintenance do in that cycle once every command of it has been given, then the writes of
the units; then what the units read in cycle c.  An event of a unit in cycle c so shows from cycle c + 1 on. -/

namespace Sys2Proof.Machine

/-! ### Operations given up (R54, R111, R322) -/

/-- Takes the operations that satisfy `p` (context, tag) out of the units; their results are discarded.  Scoreboard
entries stay with their owner's rule. -/
def Core.dropOps (k : Core) (p : Nat → Nat → Bool) : Core :=
  let keep := fun (g : Gang) (o : Option Pass) => o.filter (fun q => !(p g.ctx q.tag))
  let gangs := k.gangs.map (fun e =>
    (e.1, { e.2 with
      acc := keep e.2 e.2.acc, pend := keep e.2 e.2.pend, drn := e.2.drn.filter (fun d => !(p e.2.ctx d.pass.tag))
      live := if (keep e.2 e.2.acc).isSome then e.2.live else [] }))
  let gone := (k.sb.filter (fun e => p e.ctx e.tag)).map (·.id)
  { k with
    gangs := gangs
    move := k.move.filter (fun m => !(p m.ctx m.tag))
    mvp := { k.mvp with
      load := k.mvp.load.filter (fun l => !(p l.ctx l.tag)), passes := k.mvp.passes.filter (fun q => !(p q.ctx q.tag)) }
    svu := k.svu.filter (fun o => !(p o.ctx o.tag))
    svuTail := k.svuTail.filter (fun o => !(p o.ctx o.tag))
    bld := k.bld.filter (fun o => !(p o.ctx o.tag))
    ep := k.ep.filter (fun o => !(p o.ctx o.tag))
    epTail := k.epTail.filter (fun o => !(p o.ctx o.tag))
    sends := k.sends.filter (fun x => !(p x.ctx 0))
    wport := k.wport.filter (fun w => !(gone.contains w.2)) }

/-- Whether context `n` has been ended by END or a fault and its clear has not begun. -/
def Core.aborting (k : Core) (n : Nat) : Bool := match (k.getCtx n).mode with | .ending true => true | _ => false

/-- Step 2 of R54 for an END: at the end of a cycle, a row boundary, the operations of the context stop (R111, R215). -/
def Core.stopAborted (k : Core) : Core :=
  if [0, 1, 2, 3].any k.aborting then k.dropOps (fun n _ => k.aborting n) else k

/-! ### Renames (R259, R321, R324) -/

/-- Exchanges the row-map entries of a shadow row and its target row (R259). -/
def Core.exchange (k : Core) (a b : Nat) : Core :=
  { k with rowMap := Tab.put (Tab.put k.rowMap a (k.phys b)) b (k.phys a) }

/-- The end of cycle `c` for the confirmation of tag `t`: the rename of the cycle, which counts as one write of its target row; with
cycle c₀ + 1 + NW its entry and the write port are free and the tag is idle (R321, R324). -/
def renameEnd (i n c t : Nat) (s : State) : State :=
  let g := (s.ctx i n).getTag t
  if g.st ≠ 2 ∨ g.done = 0 then s
  else
    let s1 := match g.rename c with
      | some r => (s.modCore i (fun k => k.exchange r (g.tb + (r - g.sb)))).watchWrite i (g.tb + (r - g.sb))
      | none => s
    if c < g.done then s1
    else (s1.modCore i (fun k =>
      let ids := (k.sb.filter (fun e => e.unit == .confirm && e.ctx == n && e.first == g.tb)).map (·.id)
      let k1 := ids.foldl (fun k id => (k.freePort id).freeSb id) k
      k1.modCtx n (fun x => { x with tags := Tab.erase x.tags t }))).count48 i 0xA10 1

def renamesEnd (s : State) (i c : Nat) : State :=
  [0, 1, 2, 3].foldl (fun s n => ((s.ctx i n).tags.map (·.1)).foldl (fun s t => renameEnd i n c t s) s) s

/-! ### Transfers' local rows (R336, R337, R350) -/

/-- What row m of a transfer carries. -/
def Send.cargo (x : Send) (m : Nat) (v : Row) : Cargo :=
  match x.what with
  | .reads row src => .access ⟨.read, row + m, 0, src, x.origin, m, x.n, none⟩
  | .rows kind row src sig => .access ⟨kind, row + m, v, src, x.origin, m, x.n, sig⟩
  | .msg q epoch ns => .msg q epoch ns m x.n v

/-- The output of the last router that a transfer's rows take. -/
def Send.out (x : Send) : Nat := match x.what with | .msg .. => outWaggle | _ => outRemote

/-- Whether a transfer reads local rows. -/
def Send.local (x : Send) : Bool := match x.what with | .reads .. => false | _ => true

/-- Whether the crossing from core `i` into the fabric is full (R411). -/
def State.sendHeld (s : State) (i : Nat) : Bool :=
  decide (crossRoom ≤ (s.flights.filter (fun f => match f.hops with
    | h :: _ => h.router == i && h.inp == inLocal && decide (s.fabricCyc i < h.cyc)
    | [] => false)).length)

/-- A transfer reads local row m at t + 1 + m, which enters its first link at t + 4 + m; a GET sends request m, which enters
its first link at t + 2 + m (R337, R338). An uncorrectable row faults the context and ends the sending (R261). -/
def sendRead (i c : Nat) (s : State) (x : Send) : State :=
  if c ≤ x.issued ∨ x.issued + x.n < c then s
  else if s.sendHeld i then s.modCore i (fun k => { k with sends := k.sends.map (fun y => if y = x then { y with issued := y.issued + 1 } else y) })
  else
    let m := c - x.issued - 1
    if x.local = false then s.launch x.target x.origin (x.cargo m 0) (rowHops i x.target (c + 1) x.out)
    else
    match s.readLocal i x.ctx (x.srow + m) c 6 with
    | (s1, none) => s1.modCore i (fun k => { k with sends := k.sends.filter (fun y => y.issued ≠ x.issued) })
    | (s1, some v) => s1.launch x.target x.origin (x.cargo m v) (rowHops i x.target (c + 3) x.out)

/-! ### One cycle of a core -/

/-- Rows taken in a cycle leave their queues at its end (R118); an empty queue without reservations has no owner (R288). -/
def Core.popUsed (k : Core) : Core :=
  if k.fq.any (fun q => q.2.rows.any (·.used)) then
    { k with fq := k.fq.map (fun (q : Nat × FQueue) =>
      let rows := q.2.rows.filter (fun r => !r.used)
      (q.1, { q.2 with rows := rows, owner := if rows.isEmpty && q.2.resv == 0 then none else q.2.owner })) }
  else k

/-- The end of cycle `c` for a bundle that the die budget stalls: the cycle counts, until the first cycle of the next window (R365,
R366). -/
def budgetEnd (s : State) (i c : Nat) : State :=
  match (s.core i).budStall, (s.core i).runningCtx with
  | none, _ => s
  | some e, some n =>
    let held := (s.ctx i n).mode == .running && decide (c < e)
    let s1 := if held then s.count48 i 0xD40 1 else s
    if held && decide (c + 1 < e) then s1 else s1.modCore i (fun k => { k with budStall := none })
  | some _, none => s.modCore i (fun k => { k with budStall := none })

/-- The end of cycle `c` of core `i`. -/
def State.endCycle (s : State) (i c : Nat) : State :=
  let s0 := budgetEnd (hostEnd (foragerEnd s i c) i c) i c
  let s1 := maintEnd (copyEnd (s0.portHead i c) i c) i c
  let s2 := ((s1.core i).gangs.map (·.1)).foldl (fun s b => gangEnd s i c b) s1
  let s3 := epEnd (svuEnd (mvpEnd (moveWrite s2 i c) i c) i c) i c
  (renamesEnd s3 i c).modCore i (fun k =>
    { (bldEnd k).popUsed.stopAborted with sends := k.sends.filter (fun x => decide (c < x.issued + x.n)) })

/-- A context that waits at WAIT.AT faults in the cycle in which the loss of QUAL reaches its core, where that is before its target
(R94, R427). -/
def lossCycle (s : State) (i : Nat) : State :=
  [0, 1, 2, 3].foldl (fun s n =>
    let lost := fun (t : Nat) => s.lostBefore i t && decide (s.qualReach i ≤ s.edgeCt i)
    match (s.ctx i n).mode, (s.ctx i n).after with
    | .waiting (.at t), _ => if lost t then s.faultAsync i n fTIMEUNQ 6 else s
    | .waiting _, some (.at t) => if lost t then s.faultAsync i n fTIMEUNQ 6 else s
    | _, _ => s) s

/-- The start of cycle `c` of core `i`: what its units read, and its sequencers. -/
def State.startCycle (s : State) (i c : Nat) : State :=
  let s1 := lossCycle s i
  let s2 := ((s1.core i).gangs.map (·.1)).foldl (fun s b => passCycle s i b c) s1
  let s3 := loadCycle (moveRead s2 i c) i c
  let s4 := (s3.core i).mvp.passes.foldl (passRead i c) s3
  let s5 := epCycle (bldCycle (svuCycle s4 i c) i c) i c
  seqCycle ((s5.core i).sends.foldl (sendRead i c) s5) i c

/-- Core `i` goes from cycle c − 1 to cycle `c`. -/
def State.unitCycle (s : State) (i c : Nat) : State := (s.endCycle i (c - 1)).startCycle i c

/-! ### Time -/

/-- Whether core `i` has anything in hand that goes on as time passes. -/
def Core.working (k : Core) : Bool :=
  k.gangs.any (fun g => g.2.busy) || k.move.isSome || k.mvp.load.isSome || !k.mvp.passes.isEmpty || k.mvp.clearEnd.isSome ||
  k.foraging || !k.hout.isEmpty || k.budStall.isSome || k.svu.isSome || !k.svuTail.isEmpty || k.bld.isSome || k.ep.isSome || !k.epTail.isEmpty || !k.sends.isEmpty ||
  k.fq.any (fun q => q.2.rows.any (·.used)) || !k.rbuf.isEmpty || k.wins.any (fun w => !w.2.apply.isEmpty) ||
  (match k.copy with | some y => decide (y.row ≤ 49151) | none => false) ||
  (k.array.isNone && (!k.rewrites.isEmpty || k.repair.isSome || k.scrubbing.isSome)) ||
  k.ctx.any (fun x => x.2.tags.any (fun t => t.2.st == 2 && t.2.done != 0))

/-- Whether a loss of QUAL is still to reach core `i`, or has reached it with a context waiting at WAIT.AT. -/
def State.lossDue (s : State) (i : Nat) : Bool :=
  [0, 1, 2, 3].any (fun n => match (s.ctx i n).mode, (s.ctx i n).after with
    | .waiting (.at t), _ => s.lostBefore i t
    | .waiting _, some (.at t) => s.lostBefore i t
    | _, _ => false)

/-- The cores that go on as time passes. -/
def State.atWork (s : State) : List Nat :=
  (s.cores.filter (fun p => p.2.working || s.lossDue p.1)).map (·.1)

/-- The units of core `i` run through the cycles that canopy time has brought since state `old`. -/
def State.runCore (old : State) (s : State) (i : Nat) : State :=
  ((List.range (s.cycOf i - old.cycOf i)).map (fun j => old.cycOf i + 1 + j)).foldl (fun s c => s.unitCycle i c) s

/-- The routers of die `d` run through the cycles that canopy time has brought since state `old`. -/
def State.runFabric (old : State) (s : State) (d : Nat) : State :=
  ((List.range (s.gladeCyc (640 + d) - old.gladeCyc (640 + d))).map (fun j => old.gladeCyc (640 + d) + 1 + j)).foldl
    (fun s c => s.fabricCycle d c) s

/-- The glades with work to do: those of the cores at work, and the fabric where anything moves on it. -/
def State.gladesAtWork (s : State) : List Nat := s.atWork ++ (if s.moving then [640, 641, 642, 643] else [])

/-- The canopy time at which the next glade with work to do has an edge, at most `t`. -/
def State.nextStop (s : State) (t : Nat) : Nat :=
  s.gladesAtWork.foldl (fun m g => Nat.min m (s.gladeStop g (Tab.get {} s.glades g))) t

/-- What has been waiting for the edges up to the present canopy time is done: first in the cores, then in the fabric. -/
def State.runEdges (old : State) (s : State) : State :=
  [0, 1, 2, 3].foldl old.runFabric (old.atWork.foldl old.runCore s)

/-- Canopy time moves to `t` edge by edge of the glades with work to do. -/
def State.runTo (t : Nat) : Nat → State → State
  | 0, s => s.clockTo t
  | f + 1, s =>
    if t ≤ s.ct then s
    else State.runTo t f (s.runEdges (s.clockTo (s.nextStop t)))

/-- Canopy time moves to `t`, and with it the clocks and the units of the cores.  It never moves back. -/
def State.toCt (s : State) (t : Nat) : State :=
  if s.gladesAtWork.isEmpty then s.clockTo t else State.runTo t (t - s.ct) s

/-- Canopy time goes on until core `i`'s glade has reached cycle `c`, tick by tick where its edge is late. -/
def State.tickTo (i c : Nat) : Nat → State → State
  | 0, s => s
  | f + 1, s => if c ≤ s.cycOf i then s else State.tickTo i c f (s.toCt (s.ct + 1))

/-- How many ticks a late edge is waited for. -/
def tickFuel : Nat := 2 ^ 20

/-- Waits, where needed, for cycle `c` of core `i`'s glade. -/
def State.toCyc (s : State) (i c : Nat) : State :=
  if c ≤ s.cycOf i then s
  else State.tickTo i c tickFuel (if c ≤ s.cyc then s else s.toCt (s.edgeOf c))

/-- Waits, where needed, for a root time. -/
def State.toRoot (s : State) (t : Nat) : State := s.toCt ((t : Int) + s.root).toNat

/-- Core `i`'s cycles pass until a condition holds, at most `f` of them. -/
def State.await (i : Nat) (p : State → Bool) : Nat → State → State
  | 0, s => s
  | f + 1, s => if p s then s else State.await i p f (s.toCyc i (s.cycOf i + 1))

/-- How long a wait for a bank or a port goes on: local accesses in progress end. -/
def bankFuel : Nat := 2 ^ 20

/-- Whether row `id` has left the last router of its route, or is lost. -/
def State.routed (s : State) (id : Nat) : Bool :=
  match s.flights.find? (fun f => f.id == id) with | some f => f.hops.isEmpty | none => true

/-- A row on its way to core `i`: cycles pass until its last router has passed it and it is presented there; none where a router
dropped it. -/
def State.landed (s : State) (i id : Nat) : State × Option Flight :=
  let due := match s.flights.find? (fun f => f.id == id) with | some f => f.due | none => 0
  let s1 := (s.toCyc i (due - 2)).await i (fun t => t.routed id) bankFuel
  match s1.flights.find? (fun f => f.id == id) with
  | some f => (s1.toCyc i f.due, some f)
  | none => (s1, none)

/-- The state without a row in flight. -/
def State.dropFlight (s : State) (id : Nat) : State := { s with flights := s.flights.filter (fun f => f.id ≠ id) }

/-- A control message on its way to core `i`: cycles pass until its last router has passed it and it arrives; none where a router
dropped it. -/
def State.ctlLanded (s : State) (i id : Nat) : State × Option Ctl :=
  let due := match s.ctls.find? (fun f => f.id == id) with | some f => f.due | none => 0
  let s1 := (s.toCyc i (due - 2)).await i (fun t =>
    match t.ctls.find? (fun f => f.id == id) with | some f => f.hops.isEmpty | none => true) bankFuel
  match s1.ctls.find? (fun f => f.id == id) with
  | some f => (s1.toCyc i f.due, some f)
  | none => (s1, none)

end Sys2Proof.Machine
end

