-- ==== Sys2Proof/Machine/SliceEvents.lean ====
section
/-! DEFINITION.
The commands of the slice controller: arrivals at the remote port, the side port, maintenance and the copy engine at work
(spec 08, 13 R387).  What they wait for is done by the units as time passes. -/

namespace Sys2Proof.Machine

/-! ### The remote port (R241–R244) -/

/-- REMOTE_ACCESS_ARRIVAL: row `id` is presented at slice `i`'s remote port, unless a router dropped or refuses it
(R333, R334). -/
def remoteArrival (s : State) (i id : Nat) : State :=
  match s.flights.find? (fun f => f.id == id) with
  | none => s
  | some f0 =>
    match f0.cargo with
    | .access _ =>
      if f0.target ≠ i then s
      else
        match s.landed i id with
        | (s1, some f) =>
          let s2 := s1.dropFlight id
          match f.cargo with
          | .access a =>
            if s2.refuses i && a.kind != .copy then s2.refusedRow i f f.due
            else s2.arrive i a (Nat.max f.due (s2.cycOf i))
          | _ => s2
        | (s1, none) => s1
    | _ => s

/-- REMOTE_BUFFER_APPLY: the head of the remote buffer is tried in the next cycle in which the port is free. -/
def remoteApply (s : State) (i : Nat) : State :=
  match (s.core i).rbuf with
  | [] => s
  | _ :: _ => s.toCyc i (Nat.max (s.cycOf i) (s.core i).rport + 1)

/-- Rows that the sequencers of a slice have still to apply. -/
def Core.toApply (k : Core) : Nat := (k.wins.map (fun p => p.2.apply.length)).sum

/-- SEQUENCER_APPLY: cycles pass until a sequencer has applied a row (R387). -/
def sequencerApply (s : State) (i : Nat) : State :=
  let n := (s.core i).toApply
  if n = 0 then s else s.await i (fun t => decide ((t.core i).toApply < n)) bankFuel

/-! ### The side port (R241, R242, R257, R261) -/

/-- Whether the copy engine has rows left to read. -/
def Core.copying (k : Core) : Bool := match k.copy with | some y => decide (k.copyFrom y.row ≤ 49151) | none => false

/-- Whether the remote port applies a side-port access to row `r` in the present cycle: nothing that comes before it is there, and
its bank holds no local access. -/
def State.sideFree (i r : Nat) (s : State) : Bool :=
  let k := s.core i
  decide (k.rport ≤ s.cycOf i) && k.rbuf.isEmpty && !k.copying && !k.bankBusy r (s.cycOf i)

/-- A side-port access to row `r` waits for its cycle, and takes the port in it. -/
def State.sideTake (s0 : State) (i r : Nat) : State :=
  let s := (s0.wakeArray i).await i (State.sideFree i r) bankFuel
  s.modCore i (fun k => k.takePort_ (s.cycOf i) (some r))

/-- Reads a row through the side port; none where it holds an uncorrectable word. -/
def State.sideRead (s : State) (i r : Nat) : State × Option Row :=
  let s1 := s.sideTake i r
  if (s1.core i).shares r 1 then (s1, some 0) else s1.readComb i r

/-- Writes `n` bytes at byte `off` of a row through the side port: a read, a merge and a write in one bank cycle. -/
def State.sideWrite (s : State) (i r off n v : Nat) : State × Bool :=
  let s1 := s.sideTake i r
  if (s1.core i).shares r 1 then (s1, true)
  else if off = 0 ∧ n = 512 then (s1.writeComb i r (BitVec.ofNat 4096 v), true)
  else
    match s1.readComb i r with
    | (s2, none) => (s2, false)
    | (s2, some old) => (s2.mergeComb i r (setBits old (8 * (off + n) - 1) (8 * off) (v % 2 ^ (8 * n))), true)

/-! ### Maintenance (R260, R263–R266) -/

/-- ROW_REWRITE: cycles pass until the first queued row has been rewritten, in an idle cycle of its bank. -/
def rowRewrite (s : State) (i : Nat) : State :=
  match (s.core i).rewrites with
  | [] => s
  | p :: _ => if (s.core i).array.isSome then s else s.await i (fun t => (t.core i).rewrites.head? != some p) bankFuel

/-- The first time at or after the present one at which the scrubber begins a step: one every INTERVAL, and none is made up for
(R264). -/
def State.scrubDue (s : State) (i : Nat) : Nat :=
  let k := s.core i
  let ivl := Nat.max 100 (k.fld 0x8048 19 0) * ctPerUs
  let due := k.scrubAt + ivl
  due + nextMultiple ivl (s.ct - due)

/-- Whether the scrub walk goes on: enabled, and not suspended by a repair or a copy; arrays in retention wait. -/
def Core.scrubs (k : Core) : Bool := bit (k.reg 0x8048) 31 && k.repair.isNone && k.copy.isNone && k.array.isNone

/-- SCRUB_STEP: the walk begins its next step when it is due, and reads its physical row in an idle cycle of the bank (R263,
R264).  Disabled, or suspended by a repair or a copy, it does nothing. -/
def scrubStep (s : State) (i : Nat) : State :=
  if (s.core i).scrubs = false then s
  else
    let t := s.scrubDue i
    let s1 := (s.toCt t).modCore i (fun k => { k with scrubAt := t, scrubbing := some (k.fld 0x8050 15 0) })
    s1.await i (fun t => (t.core i).scrubbing.isNone) bankFuel

/-- SPARE_ROW_REPAIR_DONE: cycles pass until the repair in progress has taken effect, in one idle cycle of its bank. -/
def repairDone (s : State) (i : Nat) : State :=
  if (s.core i).repair.isNone || (s.core i).array.isSome then s
  else s.await i (fun t => (t.core i).repair.isNone) bankFuel

/-! ### The copy engine (R268) -/

/-- The row a copy has come to; past every row where none is in progress. -/
def Core.copyRow_ (k : Core) : Nat := match k.copy with | some y => y.row | none => 2 ^ 16

/-- COPY_ROW: cycles pass until the source's remote port has read the next row, which enters its route. -/
def copyRow (s : State) (i : Nat) : State :=
  if (s.core i).copying = false then s
  else s.await i (fun t => (t.core i).copyRow_ != (s.core i).copyRow_) bankFuel

/-- COPY_DONE: the last row has been written into the target. -/
def copyDone (s : State) (i : Nat) : State :=
  match (s.core i).copy with
  | none => s
  | some y =>
    if (s.core i).copying = false ∧ y.flying = 0 then
      (s.modCore i (fun k => { k.setFld 0x8078 16 16 1 with copy := none })).mark (blkCORE i + 0x8078) 16
    else s

end Sys2Proof.Machine
end

