-- ==== Sys2Proof/Machine/UnitEvents.lean ====
section
/-! DEFINITION.
The events of a core's units as commands (spec 04, 05, 07).  Each passes the cycles up to and with the one in which, by the holds
so far, the event comes; the units do the work (`State.unitCycle`).  Where a hold comes in between, the event is still to come. -/

namespace Sys2Proof.Machine

/-- A unit's event at the end of cycle `c`: the core comes to cycle c + 1. -/
def State.through (s : State) (i c : Nat) : State := s.toCyc i (c + 1)

/-! ### Gangs (R118, R121) -/

/-- σ of the accumulating pass where no further hold comes: max(e, σ of the previous pass + 32b) (R121). -/
def Gang.swapCycle (g : Gang) (p : Pass) : Nat :=
  Nat.max (p.first + g.cycles p + p.holds - 1) (match g.swap with | some x => x + 32 * (shapeRC g.shape).2 | none => 0)

/-- The first accumulate cycle of the pending pass: max(t + 3, σ of the previous pass + 1) (R121). -/
def Gang.startCycle (g : Gang) (p : Pass) : Nat :=
  match g.acc with
  | some q => Nat.max (p.issued + 3) (g.swapCycle q + 1)
  | none => p.issued + 3

/-- PASS_ACCUMULATE_START: the pending pass begins. -/
def passStart (s : State) (i b : Nat) : State :=
  match (s.core i).gang b with
  | some g => (match g.pend with | some p => s.toCyc i (g.startCycle p) | none => s)
  | none => s

/-- Accumulate cycles from the present one to the last of the pass's present block of 32 steps. -/
def Gang.blockLeft (g : Gang) (p : Pass) : Nat :=
  stepCycles g.fmtA g.fmtB 32 - p.done % stepCycles g.fmtA g.fmtB 32

/-- BLOCK_ACCUMULATE: the present block of the accumulating pass is accumulated. -/
def passBlock (s : State) (i b : Nat) : State :=
  match (s.core i).gang b with
  | some g => (match g.acc with
    | some p => if g.cycles p ≤ p.done then s else s.toCyc i (Nat.max p.first (s.cycOf i) + g.blockLeft p)
    | none => s)
  | none => s

/-- PASS_RESUME: a pass that holds comes to its next cycle. -/
def passResume (s : State) (i b : Nat) : State :=
  match (s.core i).gang b with
  | some g => (match g.acc with
    | some p => if p.hold then s.toCyc i (s.cycOf i + 1) else s
    | none => s)
  | none => s

/-- PASS_SWAP: the live values of the accumulating pass move to the drain registers. -/
def passSwap (s : State) (i b : Nat) : State :=
  match (s.core i).gang b with
  | some g => (match g.acc with | some p => s.through i (g.swapCycle p) | none => s)
  | none => s

/-- PASS_DRAIN_COMPLETE: the last column of the oldest drain is written. -/
def passDrain (s : State) (i b : Nat) : State :=
  match (s.core i).gang b with
  | some g => (match g.drn with | d :: _ => s.through i (d.swap + 2 + 32 * (shapeRC g.shape).2) | [] => s)
  | none => s

/-! ### Tile moves and the matrix-vector path (R150, R155, R157, R163) -/

/-- TILE_MOVE_COMPLETE. -/
def tileMoveDone (s : State) (i : Nat) : State :=
  match (s.core i).move with
  | some m => s.through i (m.issued + 8 * m.nt + (if m.ld then 3 else 2))
  | none => s

/-- MV_LDV_COMPLETE: the last row of a load is consumed at t plus its rows and its holds. -/
def mvLoadDone (s : State) (i : Nat) : State :=
  let v := (s.core i).mvp
  match v.load with
  | some l => s.through i (l.issued + vecSpan v.fmtV v.k * l.c + l.holds)
  | none => s

/-- MV_BLOCK_WRITE: the next output block of the oldest pass is written. -/
def mvBlock (s : State) (i : Nat) : State :=
  let v := (s.core i).mvp
  match v.passes with
  | p :: _ => s.through i (p.issued + 5 + (p.block + 1) * mvD v.fmtW v.k * mvF v.ports)
  | [] => s

/-- MV_PASS_COMPLETE: the last output block of the oldest pass is written. -/
def mvPassDone (s : State) (i : Nat) : State :=
  let v := (s.core i).mvp
  match v.passes with
  | p :: _ => s.through i (p.issued + 5 + p.nb * mvD v.fmtW v.k * mvF v.ports)
  | [] => s

/-- MVP_CLEAR_COMPLETE. -/
def mvpClearDone (s : State) (i : Nat) : State :=
  match (s.core i).mvp.clearEnd with
  | some e => s.toCyc i e
  | none => s

/-! ### Vector unit and epilogue (R210, R225) -/

/-- The stream of the V.OP with function `func` has been read: its last stream cycle, at t + 1 + C and its holds. -/
def svuRun (s : State) (i func : Nat) : State :=
  match (s.core i).svu with
  | some o => if o.func = func then s.through i (o.issued + 1 + o.cycles + o.holds) else s
  | none => s

/-- V_OP_COMPLETE: the oldest V.OP in progress writes its last result. -/
def svuDone (s : State) (i : Nat) : State :=
  match (s.core i).svuTail ++ (s.core i).svu.toList with
  | o :: _ => s.through i (o.issued + o.holds + o.lastAge)
  | [] => s

/-- EP_RUN_COMPLETE: the oldest EP.RUN in progress writes its last row. -/
def epDone (s : State) (i : Nat) : State :=
  match (s.core i).epTail ++ (s.core i).ep.toList with
  | o :: _ => s.through i (o.issued + o.holds + o.lastAge)
  | [] => s

end Sys2Proof.Machine
end

