-- ==== Sys2Proof/Machine/Transfer.lean ====
section
/-! DEFINITION.
Row transfers, sync flags and waggle queues (spec 11 R335–R361). -/

namespace Sys2Proof.Machine

/-! ### Issuing U.XFER (R335–R342, R359) -/

def xfN (op : W32) : Nat := bits op 29 25 + 1
def xfSig (op : W32) : Bool := bit op 24
def xfSigf (op : W32) : Nat := bits op 23 18
/-- The target address's logical core and row (R22). -/
def xfLogical (b : BC) : Nat := 72 * bits b.b2 33 32 + bits b.b2 31 25
def xfRow (b : BC) : Nat := bits b.b2 24 9
def xfSrow (b : BC) : Nat := bits b.b3 15 0

/-- Operations of a context that await status. -/
def Core.outstanding (k : Core) (n : Nat) : Nat := (k.xfers.filter (fun x => x.ctx == n)).length

/-- Stalls shared by U.XFER and Q.SEND: the core's port, the 16 operations, a pending write to the local rows, and
for what reads local rows a read port free to the Forager. -/
def portStall (b : BC) (srow n : Nat) (reads : Bool) : Bool :=
  decide (b.cyc < b.k.portFree) || decide (16 ≤ b.k.outstanding b.ctx) || b.k.sbHit false srow n ||
    (reads && b.k.portsFree b.cyc == 0)

/-- Causes on the local rows: R233, R318. -/
def localRows (b : BC) (srow n : Nat) : List Nat :=
  illegalIf (decide (49151 < srow + n - 1)) ++ cause (b.k.shares srow n) fSPECLEAK

def xferJudge (code : Nat) (b : BC) : List Nat :=
  illegalIf (bits b.op 31 30 != code || !srcOk (fSrc2 b.op) || !srcOk (fSrc3 b.op) || (code == 2 && xfSig b.op))

def xferJudgeV (b : BC) : List Nat :=
  illegalIf (decide (72 ≤ bits b.b2 31 25) || bits b.b2 8 0 != 0) ++ localRows b (xfSrow b) (xfN b.op) ++
  cause (decide (bits b.b2 31 25 < 72) && !(b.s.inService (xfLogical b))) fXFERNACK

/-- Takes the read port of a transfer (R336) and the core's port (R335): its rows are sent as cycles pass. -/
def Core.takeSend (k : Core) (cyc n srow ctx target : Nat) (o : Origin) (w : Sending) : Core :=
  { k with
    sends := k.sends ++ [⟨if k.portsHeld cyc % 2 = 0 then 1 else 2, cyc, n, srow, ctx, target, o, w⟩]
    portFree := cyc + n }

/-- The cycles after which an operation is lost (R340). -/
def lostAfter : Nat := 4096

/-- PUT and PUT.ADD. -/
def putIssue (kind : AccKind) (code : Nat) (b : BC) (s : State) : State :=
  let n := xfN b.op
  let t := b.cyc
  let target := b.s.physOf (xfLogical b)
  let id := s.nextFlight
  let o : Origin := .core b.core b.ctx id
  let src := (b.s.logicalOf b.core).getD 0
  let sig := if xfSig b.op then some (xfSigf b.op) else none
  let x : XferOp := {
    id := id, ctx := b.ctx, kind := code, n := n, bind := 0, srow := xfSrow b, got := 0,
    deadline := t + 3 + n + lostAfter, entry := none, tcore := target }
  ({ s with nextFlight := s.nextFlight + 1 }).modCore b.core (fun k =>
    { k.takeSend t n (xfSrow b) b.ctx target o (.rows kind (xfRow b) src sig) with xfers := k.xfers ++ [x] })

def putSem (kind : AccKind) (code : Nat) : Sem where
  slots := [.x]
  judge := xferJudge code
  judgeV := xferJudgeV
  reads op := regsRead [fSrc2 op, fSrc3 op]
  stall b := portStall b (xfSrow b) (xfN b.op) true
  eff := putIssue kind code

def semPut : Sem := putSem .write 0
def semPutAdd : Sem := putSem .add 1

/-- GET sends one request for each row (R338). -/
def getIssue (b : BC) (s : State) : State :=
  let n := xfN b.op
  let t := b.cyc
  let target := b.s.physOf (xfLogical b)
  let id := s.nextFlight
  let o : Origin := .core b.core b.ctx id
  let src := (b.s.logicalOf b.core).getD 0
  let x : XferOp := {
    id := id, ctx := b.ctx, kind := 2, n := n, bind := 0, srow := xfSrow b, got := 0,
    deadline := t + 1 + n + lostAfter, entry := some (s.core b.core).nextId, tcore := target }
  ({ s with nextFlight := s.nextFlight + 1 }).modCore b.core (fun k =>
    { k.takeSb false (xfSrow b) n b.ctx .transfer 0 with
      sends := k.sends ++ [(⟨0, t, n, xfSrow b, b.ctx, target, o, .reads (xfRow b) src⟩ : Send)]
      xfers := k.xfers ++ [x], portFree := t + n })

def semGet : Sem where
  slots := [.x]
  judge := xferJudge 2
  judgeV := xferJudgeV
  reads op := regsRead [fSrc2 op, fSrc3 op]
  stall b := portStall b (xfSrow b) (xfN b.op) false || b.k.sbFull
  eff := getIssue

/-! ### Statuses and returning rows (R338–R342, R353) -/

def Core.dropXfer (k : Core) (id : Nat) : Core := { k with xfers := k.xfers.filter (fun x => x.id ≠ id) }

/-- The update of a binding's status word when a send completes (R353). -/
def sstatDone (v : W64) (reason : Nat) : W64 :=
  let v1 := setBits v 63 32 (bits v 63 32 + 1)
  let v2 := if reason = 0 then v1 else plainCount 31 16 1 v1
  setBits v2 15 12 reason

/-- The first status of operation `x` reaches its core (R339, R353). -/
def State.xferDone (s : State) (i : Nat) (x : XferOp) (reason : Nat) : State :=
  let s1 := s.modCore i (fun k => k.dropXfer x.id)
  if x.kind = 3 then s1.modCore i (fun k =>
    k.setReg (offSstat x.ctx x.bind) (sstatDone (k.reg (offSstat x.ctx x.bind)) reason))
  else if reason = 0 ∨ (s1.ctx i x.ctx).faulted then s1
  else if reason = 12 then s1.faultAsync i x.ctx fXFERLOST 6
  else (s1.modCore i (fun k => k.setFld (offXstat x.ctx) 11 8 reason)).faultAsync i x.ctx fXFERNACK 6

/-- A control message of the list arrives at core `i`, once the routers have passed it. -/
def State.ctlArrives (s : State) (i id : Nat) : State × Option Note :=
  match s.ctls.find? (fun f => f.id == id) with
  | none => (s, none)
  | some f =>
    if f.target ≠ i then (s, none)
    else
      match s.ctlLanded i id with
      | (s1, none) => (s1, none)
      | (s1, some _) =>
        let s2 := { s1 with ctls := s1.ctls.filter (fun g => g.id ≠ id) }
        if s2.refuses i then (s2.count48 i 0xB08 1, none) else (s2, some f.note)

/-- The kind of the operation a message answers: 0–2 a transfer, 3 a send. -/
def State.noteKind (s : State) (i id : Nat) : Option Nat :=
  match s.ctls.find? (fun f => f.id == id) with
  | some f => match f.note with
    | .status op _ => ((s.core i).xfers.find? (fun x => x.id == op)).map (·.kind)
    | _ => none
  | none => none

/-- Whether message `id` is a status. -/
def State.isStatus (s : State) (id : Nat) : Bool :=
  match s.ctls.find? (fun f => f.id == id) with
  | some f => match f.note with | .status .. => true | _ => false
  | none => false

/-- A status arrives: the first one completes its operation, a later one is discarded (R339, R340). -/
def statusArrival (s : State) (i id : Nat) : State :=
  match s.ctlArrives i id with
  | (s1, some (.status op reason)) =>
    match (s1.core i).xfers.find? (fun x => x.id == op) with
    | some x => s1.xferDone i x reason
    | none => s1
  | (s1, _) => s1

/-- XFER_STATUS_ARRIVAL: a status of a transfer, or of an operation no longer awaited. -/
def xferStatusArrival (s : State) (i id : Nat) : State :=
  if s.isStatus id && s.noteKind i id != some 3 then statusArrival s i id else s

/-- SEND_STATUS: the status of a Q.SEND. -/
def sendStatusArrival (s : State) (i id : Nat) : State :=
  if s.noteKind i id = some 3 then statusArrival s i id else s

/-- XFER_LOST: the bound of R340 expires for an operation. -/
def xferLost (s : State) (i n id : Nat) : State :=
  match (s.core i).xfers.find? (fun x => x.id == id && x.ctx == n) with
  | none => s
  | some x => (s.toCyc i x.deadline).xferDone i x 12

/-- GET_ROW_RETURN: a returning row, or the error status in its place, reaches the issuing core (R338, R339, R342). -/
def getRowReturn (s : State) (i id : Nat) : State :=
  match s.flights.find? (fun f => f.id == id) with
  | none => s
  | some f0 =>
    match f0.cargo with
    | .ret .. =>
      if f0.target ≠ i then s
      else
        match s.landed i id with
        | (s1, some f) =>
          let s2 := s1.dropFlight id
          if s2.refuses i then s2.sendStatus i f.origin 8 f.due
          else
            match f.cargo, f.origin with
            | .ret m v reason, .core _ n op =>
              match (s2.core i).xfers.find? (fun x => x.id == op) with
              | none => s2
              | some x =>
                if reason ≠ 0 then s2.xferDone i x reason
                else s2.modCore i (fun k =>
                  let rest := k.xfers.filter (fun y => y.id ≠ op)
                  let x1 := { x with got := x.got + 1 }
                  { k with
                    fwrites := k.fwrites ++ [⟨x.srow + m, v, 0, n, none, x.entry⟩]
                    xfers := if x1.got < x1.n then rest ++ [x1] else rest })
            | _, _ => s2
        | (s1, none) => s1
    | _ => s

/-- The 4096 cycles for which a target keeps the record of an operation whose rows did not all arrive (R339). -/
def recordAfter : Nat := 4096

/-- The operation of a row in flight. -/
def Flight.op (f : Flight) : Option Nat := match f.origin with | .core _ _ op => some op | _ => none
def Flight.isMsg (f : Flight) : Bool := match f.cargo with | .msg .. => true | _ => false

/-- OPERATION_RECORD_DISCARD: slice or waggle store `i` discards its record of operation `id`. -/
def recordDiscard (s : State) (i id : Nat) : State :=
  let msgs := s.flights.filter (fun f => f.target == i && f.isMsg && f.op == some id)
  match (s.core i).records.find? (fun r => r.id == id), msgs.getLast? with
  | some r, _ =>
    (s.toCyc i (r.last + recordAfter)).modCore i (fun k => { k with records := k.records.filter (fun x => x.id ≠ id) })
  | none, some f =>
    let s1 := s.toCyc i (f.due + recordAfter)
    { s1 with flights := s1.flights.filter (fun g => !(g.target == i && g.isMsg && g.op == some id)) }
  | none, none => s

/-- The operations a context abandons in the first cycle of its clear (R342). -/
def Core.abandon (k : Core) (n : Nat) : Core :=
  { k with xfers := k.xfers.filter (fun x => x.ctx ≠ n),
           fwrites := k.fwrites.filter (fun w => !(w.ctx == n && w.op.isSome)) }

/-! ### Sync flags (R343–R345) -/

/-- A signal that core `i` sends in cycle `t` to logical core `target` (0x1FF: itself), flag `f`. -/
def State.signal (s : State) (i target f t : Nat) : State :=
  if target = 0x1FF then s.sendCtl i (.signal f) ([], t + 3)
  else if s.inService target = false then s.count48 i 0xB08 1
  else
    let j := s.physOf target
    if j = i then s.sendCtl i (.signal f) ([], t + 3) else s.sendCtl j (.signal f) (ctlHops i j t)

def sigTargetBad (t : Nat) : Bool := decide (287 < t) && t != 0x1FF

def semXSig : Sem where
  slots := [.x]
  judge b := illegalIf (bits b.op 31 31 != 0 || bits b.op 15 0 != 0 || sigTargetBad (bits b.op 30 22))
  eff b s := s.signal b.core (bits b.op 30 22) (bits b.op 21 16) b.cyc

def semXSigr : Sem where
  slots := [.x]
  judge b := illegalIf (bits b.op 31 27 != 0 || bits b.op 17 6 != 0 || !srcOk (fSrc1 b.op))
  judgeV b := illegalIf (sigTargetBad (bits b.a 8 0))
  reads op := regsRead [fSrc1 op]
  eff b s := s.signal b.core (bits b.a 8 0) (bits b.op 5 0) b.cyc

/-- Whether flag `f` is owned by a context in its clear (R344). -/
def Core.flagInClear (k : Core) (f : Nat) : Bool :=
  [0, 1, 2, 3].any (fun n => bit (k.reg (offFlagown n)) f &&
    (match (k.getCtx n).mode with | .opening .. => true | .closing _ => true | _ => false))

/-- SIGNAL_ARRIVAL: flag f of core `i` is set, unless a context that owns it is in its clear. -/
def signalArrival (s : State) (i id : Nat) : State :=
  if s.isStatus id then s
  else
    match s.ctlArrives i id with
    | (s1, some (.signal f)) =>
      if (s1.core i).flagInClear f then s1.count48 i 0xB08 1 else (s1.modCore i (fun k => k.signalFlag f (s1.cycOf i))).wakeSource i 1
    | (s1, _) => s1

/-- A write to CORE.CTXn.FLAGOWN (R343). -/
def flagownWrite (s : State) (i n : Nat) (v : W64) : State :=
  let k := s.core i
  let free := [0, 1, 2, 3].all (fun m => m == n || (k.reg (offFlagown m) &&& v) == 0)
  if k.holdsTask n = false ∧ free then s.modCore i (fun k => k.setReg (offFlagown n) v) else s.coreEvent i (offXstat n) 16

/-! ### Waggle queues (R347–R355) -/

def Core.wq_ (k : Core) (q : Nat) : WaggleQ := Tab.get {} k.waggle q

/-- Whether a queue is open: its owner holds a task and its context clear has ended (R347). -/
def Core.wqOpen (k : Core) (q : Nat) : Bool :=
  match k.wqOwner q with
  | none => false
  | some n => match (k.getCtx n).mode with | .noTask => false | .opening .. => false | .closing _ => false | _ => true

/-- Whether a queue's owner holds a task. -/
def Core.ownerBusy (k : Core) (o : Option Nat) : Bool := match o with | some n => k.holdsTask n | none => false
/-- The owner that CORE.WQOWN's value `v` gives queue `q`. -/
def wqNew (v : W64) (q : Nat) : Option Nat := if bit v (32 + q) then some (bits v (2 * q + 1) (2 * q)) else none

/-- A write to CORE.WQOWN: per queue, a change that touches a context with a task is refused (R347). -/
def wqownWrite (s : State) (i : Nat) (v : W64) : State :=
  let k := s.core i
  let s0 := if bit v 63 then s.coreClear i 0xB18 63 else s
  (List.range 16).foldl (fun s1 q =>
    if k.wqOwner q != wqNew v q && (k.ownerBusy (k.wqOwner q) || k.ownerBusy (wqNew v q)) then s1.coreEvent i 0xB18 63
    else s1.modCore i (fun k1 => (k1.setFld 0xB18 (32 + q) (32 + q) (bits v (32 + q) (32 + q))).setFld 0xB18 (2 * q + 1) (2 * q)
      (bits v (2 * q + 1) (2 * q)))) s0

/-- Whether a context's bindings may be written: it holds no task, or waits for a replay (R349). -/
def CtxMode.bindOpen : CtxMode → Bool
  | .noTask => true
  | .waiting .replay => true
  | _ => false

/-- The sends through binding `j` of context `n` leave its SSTAT (R349). -/
def Core.uncount (k : Core) (n j : Nat) : Core :=
  { k with xfers := k.xfers.map (fun x => if x.ctx = n ∧ x.kind = 3 ∧ x.bind = j then { x with counted := false } else x) }

/-- A write to CORE.CTXn.BINDb (R349, R360); an accepted one zeroes SSTATb. -/
def bindWrite (s : State) (i n j : Nat) (v : W64) : State :=
  if (s.ctx i n).mode.bindOpen then
    let w := v &&& (0xFFFFFFFF80001FFF : W64)
    s.modCore i (fun k => (k.setReg (offBind n j) (if 287 < bits v 8 0 then setBit w 31 false else w)).setReg (offSstat n j) 0 |>.uncount n j)
  else s.coreEvent i (offXstat n) 17

/-- Slots of a queue held in cycle `a`: messages, pad markers, and slots freed in that same cycle. -/
def WaggleQ.heldSlots (w : WaggleQ) (a : Nat) : List Nat :=
  w.msgs.flatMap (fun m => (List.range m.ns).map (fun j => m.at_ + j)) ++
  (w.freed.filter (fun f => decide (a ≤ f.1))).flatMap (fun f => (List.range f.2.2).map (fun j => f.2.1 + j))

/-- The count of free slots from slot `x` up to the first held slot or to slot 63. -/
def freeRun (held : List Nat) (x : Nat) : Nat := (((List.range 64).drop x).takeWhile (fun j => !held.contains j)).length

/-- Judges a message of `ns` slots in cycle `a` (R351): the queue after, and the reason. -/
def WaggleQ.place (w : WaggleQ) (ns data a : Nat) : WaggleQ × Nat :=
  let held := w.heldSlots a
  let free := 64 - held.length
  let tailRun := freeRun held w.tail
  let zeroRun := freeRun held 0
  if free < ns then (w, 10)
  else if ns ≤ tailRun then
    ({ w with tail := (w.tail + ns) % 64, msgs := w.msgs ++ [⟨w.tail, ns, data, false, a + 2⟩] }, 0)
  else if w.tail + tailRun = 64 ∧ ns ≤ zeroRun then
    ({ w with tail := ns % 64, msgs := w.msgs ++ [⟨w.tail, tailRun, 0, true, a + 2⟩, ⟨0, ns, data, false, a + 2⟩] }, 0)
  else (w, 11)

/-- The row a message's flight carries. -/
def Flight.msgRow (f : Flight) : Option Row := match f.cargo with | .msg _ _ _ _ _ d => some d | _ => none

/-- The rows of the message of operation `op` at core `i` that have arrived by cycle `a`, in order. -/
def State.msgRows (s : State) (i : Nat) (op : Option Nat) (a : Nat) : List Flight :=
  s.flights.filter (fun f => f.target == i && f.isMsg && f.op == op && f.hops.isEmpty && decide (f.due ≤ a))

/-- The waggle store judges a message whose rows have all arrived, in cycle `a` (R351); the status goes out in a + 1. -/
def State.judgeMsg (s : State) (i : Nat) (o : Origin) (q : Nat) (epoch : W32) (ns data a : Nat) : State :=
  let w := (s.core i).wq_ q
  if !((s.core i).wqOpen q) || w.epoch != epoch then s.sendStatus i o 9 (a + 1)
  else
    let r := w.place ns data a
    (s.modCore i (fun k => { k with waggle := Tab.put k.waggle q r.1 })).sendStatus i o r.2 (a + 1)

/-- WAGGLE_MESSAGE_JUDGE: a row of a message arrives at the waggle store, in cycle a (R350); with the last one the message is
judged.  A fenced position refuses each row (R334). -/
def waggleJudge (s : State) (i id : Nat) : State :=
  match s.flights.find? (fun f => f.id == id) with
  | none => s
  | some f0 =>
    if f0.target ≠ i then s
    else
      match f0.cargo, s.landed i id with
      | .msg q epoch ns m n _, (s1, some f) =>
        if s1.refuses i then (s1.dropFlight id).sendStatus i f.origin 8 f.due
        else if m + 1 < n then s1
        else
          let rows := s1.msgRows i f.op f.due
          let s2 := { s1 with flights := s1.flights.filter (fun g => !(g.target == i && g.isMsg && g.op == f.op)) }
          if rows.length < n then s2
          else s2.judgeMsg i f.origin q epoch ns (rowsNat (rows.filterMap Flight.msgRow) % 2 ^ (512 * ns)) f.due
      | .msg .., (s1, none) => s1
      | _, _ => s

/-! ### Q.SEND (R348–R350) -/

def qsBind (op : W32) : Nat := bits op 31 28
def qsNs (op : W32) : Nat := bits op 27 24 + 1
def qsRows (op : W32) : Nat := (qsNs op + 7) / 8
/-- Q.SEND's source field: src1 at [17:9]. -/
def qsSrow (b : BC) : Nat := bits b.b2 15 0

def semQSend : Sem where
  slots := [.x]
  judge b := illegalIf (bits b.op 23 18 != 0 || bits b.op 8 0 != 0 || !srcOk (fSrc2 b.op)) ++
    cause (!(bit (b.k.reg (offBind b.ctx (qsBind b.op))) 31)) fWQBIND
  judgeV b := localRows b (qsSrow b) (qsRows b.op)
  reads op := regsRead [fSrc2 op]
  stall b := portStall b (qsSrow b) (qsRows b.op) true
  eff b s :=
    let bd := b.k.reg (offBind b.ctx (qsBind b.op))
    let n := qsRows b.op
    let t := b.cyc
    let l := bits bd 8 0
    let id := s.nextFlight
    let o : Origin := .core b.core b.ctx id
    let target := b.s.physOf l
    let x : XferOp := {
      id := id, ctx := b.ctx, kind := 3, n := n, bind := qsBind b.op, srow := qsSrow b, got := 0,
      deadline := t + 3 + n + lostAfter, entry := none, tcore := target }
    let s1 := ({ s with nextFlight := s.nextFlight + 1 }).modCore b.core (fun k => { k with xfers := k.xfers ++ [x] })
    if b.s.inService l = false then s1.sendCtl b.core (.status id 8) ([], t + 3)
    else
      s1.modCore b.core (fun k => k.takeSend t n (qsSrow b) b.ctx target o
        (.msg (bits bd 12 9) (BitVec.ofNat 32 (bits bd 63 32)) (qsNs b.op)))

/-! ### Receiving (R354) -/

def qQueue (op : W32) : Nat := bits op 26 23

/-- The head message visible in cycle `c`; a pad marker at the head is no message. -/
def WaggleQ.head? (w : WaggleQ) (c : Nat) : Option Msg :=
  match w.msgs.dropWhile (·.pad) with
  | m :: _ => if m.from_ ≤ c then some m else none
  | [] => none

/-- Frees the head message, and the pad markers that then lie at the head, at the end of cycle `c`. -/
def WaggleQ.pop (w : WaggleQ) (c : Nat) : WaggleQ :=
  let lead := w.msgs.takeWhile (·.pad)
  match w.msgs.dropWhile (·.pad) with
  | [] => w
  | m :: rest =>
    let gone := lead ++ m :: rest.takeWhile (·.pad)
    { w with
      cursor := 0, msgs := rest.dropWhile (·.pad)
      freed := w.freed.filter (fun f => decide (c ≤ f.1)) ++ gone.map (fun g => (c, g.at_, g.ns)) }

/-- CORE.WQi.STAT (R360) in cycle `c`. -/
def Core.wqStat (k : Core) (q c : Nat) : W64 :=
  let w := k.wq_ q
  let seen := w.msgs.filter (fun m => decide (m.from_ ≤ c))
  let free := 64 - ((seen.map (·.ns)).sum + ((w.freed.filter (fun f => decide (c ≤ f.1))).map (·.2.2)).sum)
  let headlen := match w.head? c with | some m => m.ns | none => 0
  BitVec.ofNat 64 ((seen.filter (fun m => !m.pad)).length + free * 2 ^ 8 + headlen * 2 ^ 16 + (w.cursor / 2) * 2 ^ 21 +
    ((k.wqOwner q).getD 0) * 2 ^ 29 + (k.wqOpen q).toNat * 2 ^ 31 + w.epoch.toNat * 2 ^ 32)

/-- CORE.CTXn.SSTATb (R360): OUT counts the sends that await status. -/
def Core.sstat (k : Core) (n j : Nat) : W64 :=
  setBits (k.reg (offSstat n j)) 4 0 ((k.xfers.filter (fun x => x.ctx == n && x.kind == 3 && x.bind == j && x.counted)).length)

/-- WQ_OWNER and, for what needs a message, WQ_EMPTY. -/
def wqJudge (b : BC) (needs : Bool) : List Nat :=
  cause (b.k.wqOwner (qQueue b.op) != some b.ctx) fWQOWNER ++
  cause (needs && ((b.k.wq_ (qQueue b.op)).head? b.cyc).isNone) fWQEMPTY

def semQPop : Sem where
  slots := [.x]
  judge b := illegalIf (bits b.op 22 0 != 0) ++ wqJudge b true
  dest op := some (.reg (fRd op))
  eff b s :=
    let q := qQueue b.op
    let w := b.k.wq_ q
    match w.head? b.cyc with
    | none => s
    | some m =>
      let word := BitVec.ofNat 64 (field m.data (64 * w.cursor) 64)
      let w1 := if w.cursor + 1 = 8 * m.ns then w.pop b.cyc else { w with cursor := w.cursor + 1 }
      (s.modCore b.core (fun k => { k with waggle := Tab.put k.waggle q w1 })).writeReg b.core b.ctx (fRd b.op) word 2

def semQSkip : Sem where
  slots := [.x]
  judge b := illegalIf (bits b.op 31 27 != 0 || bits b.op 22 0 != 0) ++ wqJudge b true
  eff b s := s.modCore b.core (fun k =>
    { k with waggle := Tab.put k.waggle (qQueue b.op) ((k.wq_ (qQueue b.op)).pop b.cyc) })

def semQStat : Sem where
  slots := [.x]
  judge b := illegalIf (bits b.op 22 0 != 0) ++ wqJudge b false
  dest op := some (.reg (fRd op))
  eff b s := s.writeReg b.core b.ctx (fRd b.op) (b.k.wqStat (qQueue b.op) b.cyc) 2

def semQSstat : Sem where
  slots := [.x]
  judge b := illegalIf (bits b.op 22 0 != 0)
  dest op := some (.reg (fRd op))
  eff b s := s.writeReg b.core b.ctx (fRd b.op) (b.k.sstat b.ctx (qQueue b.op)) 2

end Sys2Proof.Machine
end

