-- ==== Sys2Proof/Machine/Cellar.lean ====
section
/-! DEFINITION.
The Cellar: placement, check buffers, errors, refresh, tracking, retraining and repair (spec 17). -/

namespace Sys2Proof.Machine

def rShare : Nat := blkCELL
def rCellStat : Nat := blkCELL + 0x8
def rDev (d : Nat) : Nat := blkCELL + 0x1000 + 8 * d
/-- CELL.CHc.CE, UE, LINKCE, LINKUE. -/
def rCh (c w : Nat) : Nat := blkCELL + 0x2000 + 0x20 * c + 8 * w

/-- The slot cycle of the links and check buffers, in ct (R432, R495). -/
def slotCycle : Nat := 114688

/-- The first multiple of `m` at or after now that lies inside a clearing, if one can be told. -/
def State.clearingMultiple (s : State) (m : Nat) : Option Nat :=
  let a := nextMultiple m s.ct
  let b := nextMultiple m (Nat.max s.ct (s.reg rClrBegin).toNat)
  if s.inClearingAt a then some a else if s.inClearingAt b then some b else none

/-! ### Placement (R493) -/

def chanOf (burst : Nat) : Nat := burst % 96
def localOf (burst : Nat) : Nat := burst / 96
def groupOf (burst : Nat) : Nat := localOf burst / 7
def devOf (ch : Nat) : Nat := ch / 8
def rankOf (burst : Nat) : Nat := groupOf burst / 16 % 2
def bankOf (burst : Nat) : Nat := groupOf burst % 16

/-! ### Check buffers (R495) -/

/-- An access of a class (0 READ, 1 WRITE, 2 REMOTE) uses its group's check burst: most recently used, dirty after a
write; of more than 8 the least recently used leaves. -/
def State.touchCheck (s : State) (burst cls : Nat) (dirty : Bool) : State :=
  let key := chanOf burst * 3 + cls
  let g := groupOf burst
  let old := Tab.get [] s.chk key
  let was := old.any (fun e => e.1 == g && e.2)
  { s with chk := Tab.put s.chk key (((g, dirty || was) :: old.filter (fun e => e.1 ≠ g)).take 8) }

/-- CHECK_BUFFER_FLUSH: at a multiple of 114,688 ct dirty copies are written back and every buffer of the channel is
emptied. -/
def checkFlush (s : State) (c : Nat) : State :=
  let t := nextMultiple slotCycle (Nat.max s.ct (Tab.get 0 s.flushAt c))
  let s1 := s.toCt t
  { s1 with
    flushAt := Tab.put s1.flushAt c (t + 1)
    chk := [0, 1, 2].foldl (fun m j => Tab.put m (c * 3 + j) []) s1.chk }

/-! ### Errors (R498–R500) -/

/-- The words of a burst in error, ascending. -/
def State.burstBad (s : State) (burst : Nat) : List (Nat × Bool) :=
  (s.cdef.filter (fun e => e.1 / 8 == burst)).map (fun e => (e.1 % 8, e.2))

/-- Records an error in CELL.ERRAT and CELL.ERRCT. -/
def State.cellErr (s : State) (ch v word : Nat) (ue link : Bool) : State :=
  (s.setReg (blkCELL + 0x10) (BitVec.ofNat 64
    (v + word * 2 ^ 30 + ch * 2 ^ 33 + link.toNat * 2 ^ 40 + ue.toNat * 2 ^ 41))).setReg (blkCELL + 0x18)
      (BitVec.ofNat 64 (s.gladeCt (if ch < 48 then 656 else 661)))

/-- A burst is read and checked: the state with its errors counted, and whether it can be delivered. -/
def State.readBurst (s : State) (burst cls : Nat) : State × Bool :=
  let s0 := s.touchCheck burst cls false
  let bad := s.burstBad burst
  let ces := bad.filter (fun w => !w.2)
  let ues := bad.filter (fun w => w.2)
  let c := chanOf burst
  let s1 := (s0.countMod 32 32 (rCh c 0) ces.length).countMod 32 32 (rCh c 1) ues.length
  let s2 := (ces ++ ues).foldl (fun s w => s.cellErr c (localOf burst) w.1 w.2 false) s1
  let s3 := if ues.isEmpty then s2 else s2.raiseKeep 5
  if s3.linkBad.contains burst then ({ s3 with linkBad := s3.linkBad.filter (· ≠ burst) }, false)
  else (s3, ues.isEmpty)

/-- A burst is written whole with fresh check bytes (R499): `n` bytes at byte `off` new, the others as a read corrected them. -/
def State.writeBurst (s : State) (burst cls : Nat) (n v : Nat) (off : Nat) : State :=
  let s1 := s.touchCheck burst cls true
  { s1 with
    cellar := writeLE s1.cellar (64 * burst + off) n v
    cdef := s1.cdef.filter (fun e => e.1 / 8 != burst) }

/-- Reads Cellar row `r` as class `cls`; none where a burst cannot be delivered. -/
def State.readCellar (s : State) (r cls : Nat) : State × Option Row :=
  let p := (List.range 8).foldl (fun (a : State × Bool) j =>
    let q := a.1.readBurst (8 * r + j) cls
    (q.1, a.2 && q.2)) (s, true)
  (p.1, if p.2 then some (readRow p.1.cellar (512 * r)) else none)

/-- Writes Cellar row `r` (R294, R496). -/
def State.writeCellar (s : State) (r cls : Nat) (v : Row) : State :=
  let s1 := (List.range 8).foldl (fun s j => s.touchCheck (8 * r + j) cls true) s
  { s1 with cellar := writeRow s1.cellar (512 * r) v, cdef := s1.cdef.filter (fun e => e.1 / 64 != r) }

/-- Whether accesses to device `d` hold for a retraining (R506). -/
def State.devHeld (s : State) (d : Nat) : Bool := (Tab.find s.retraining d).isSome

/-- Whether a burst's access must wait: retraining of its device, or repair of its bank (R506, R507). -/
def State.burstHeld (s : State) (burst : Nat) : Bool :=
  s.devHeld (devOf (chanOf burst)) ||
  (match Tab.find s.pprs (devOf (chanOf burst)), Tab.find s.pprBusy (devOf (chanOf burst)) with
    | some p, some _ => p.1 == chanOf burst && p.2.1 == (rankOf burst == 1) && p.2.2.1 == bankOf burst
    | _, _ => false)

/-- The time from which no refresh blocks a burst's bank (R501). -/
def State.bankFreeAt (s : State) (burst : Nat) : Nat :=
  Tab.get 0 s.bankBlk ((2 * chanOf burst + rankOf burst) * 16 + bankOf burst)

/-- Whether a row access must wait. -/
def State.rowHeld (s : State) (r : Nat) : Bool := (List.range 8).any (fun j => s.burstHeld (8 * r + j))

/-- The time from which no refresh blocks the banks of a row (R497, R501). -/
def State.rowFree (s : State) (r : Nat) : Nat := (List.range 8).foldl (fun m j => Nat.max m (s.bankFreeAt (8 * r + j))) 0

/-- Whether the controllers can serve a row's access now. -/
def State.rowOpen (s : State) (r : Nat) : Bool := !(s.rowHeld r) && decide (s.rowFree r ≤ s.ct)

/-- Whether two rows lie on the same channels (R493). -/
def sameChannels (r q : Nat) : Bool := r % 12 == q % 12

/-- LINK_ECC_REREAD: read link ECC found an uncorrectable error and the burst was read again (R500). -/
def linkReread (s : State) (c v : Nat) (clean : Bool) : State :=
  if clean then s.countMod 32 32 (rCh c 2) 1
  else
    let s1 := (s.countMod 32 32 (rCh c 3) 1).countMod 32 32 (rCh c 1) 1
    let s2 := (s1.cellErr c v (Config.linkWord s.free % 8) true true).raiseKeep 5
    { s2 with linkBad := s2.linkBad ++ [96 * v + c], free := s2.free + 1 }

/-! ### Refresh (R501–R504) -/

/-- The pattern in force of a device, and its refresh interval. -/
def State.pattern (s : State) (d : Nat) : Nat := s.fld (rDev d) 1 0
def refInterval (p : Nat) : Nat := match p with | 0 => 1792 | 1 => 896 | _ => 448

/-- A refresh of rank n of channel c at time t: it acts on the next bank, which is blocked for 1,400 ct; at one in every 64 the
oscillator starts, whose count is read 1,000 ct later (R501, R505). -/
def State.refreshOne (s : State) (key t : Nat) : State :=
  let k := Tab.get 0 s.refBank key
  { s with
    refAt := Tab.put s.refAt key (t + 1), refBank := Tab.put s.refBank key (k + 1)
    bankBlk := Tab.put s.bankBlk (key * 16 + k % 16) (t + 1400)
    osc := if k % 64 = 0 then Tab.put s.osc key (t + 1000) else s.osc }

/-- The first refresh of a rank at or after time x (R501). -/
def refreshFrom (key i x : Nat) : Nat := let off := 56 * key % i; x + (off + i - x % i) % i

/-- The refreshes of a rank that have passed since the last one taken into account. -/
def State.refreshPast (s : State) (key : Nat) : State :=
  let i := refInterval (s.pattern (devOf (key / 2)))
  let t0 := refreshFrom key i (Tab.get 0 s.refAt key)
  (List.range ((s.ct + i - 1 - t0) / i)).foldl (fun s j => s.refreshOne key (t0 + i * j)) s

/-- PER_BANK_REFRESH: rank n of channel c receives its next refresh, after those whose time has passed (R501). -/
def bankRefresh (s : State) (c : Nat) (rank : Bool) : State :=
  if s.devHeld (devOf c) then s
  else
    let key := 2 * c + rank.toNat
    let s1 := s.refreshPast key
    let t := refreshFrom key (refInterval (s.pattern (devOf c))) (Nat.max s.ct (Tab.get 0 s1.refAt key))
    (s1.toCt t).refreshOne key t

/-- The refreshes of every rank of device `d` up to now are taken into account. -/
def State.refreshDev (s : State) (d : Nat) : State :=
  (List.range 16).foldl (fun s j => s.refreshPast (16 * d + j)) s

/-- No per-bank refresh of device `d` before now counts. -/
def State.refreshAnew (s : State) (d : Nat) : State :=
  { s with refAt := (List.range 16).foldl (fun m j => Tab.put m (16 * d + j) s.ct) s.refAt }

/-- The pattern a reading requires; a device over its high temperature limit stays at 4x. -/
def required (f : Nat) : Nat := if Config.mr4Hot f then 2 else Nat.min 2 (Config.mr4Pattern f)

/-- The ranks of a device, as keys of `mr4`. -/
def ranksOf (d : Nat) : List Nat := (List.range 16).map (fun j => 16 * d + j)

def mr4Every : Nat := 16 * slotCycle

/-- What a reading `f` of device `d` at time `t` makes of its refresh pattern: a faster one is planned at once, a slower one
after 16 readings of every rank; `first` tells that a rank had not been read (R502, R503, R504). -/
def State.mr4Plan (s2 : State) (d f : Nat) (first : Bool) (t : Nat) : State :=
  let latest := (ranksOf d).filterMap (fun r => (Tab.get [] s2.mr4 r).head?)
  let worst := latest.foldl (fun m x => if required m < required x then x else m) (latest.headD 0)
  let s3 := s2.setFld (rDev d) 39 32 worst
  let s4 := if Config.mr4Hot f then (s3.event (rDev d) 63).raiseKeep 3 else s3
  let cur := s4.pattern d
  let need := required worst
  let full := latest.length == 16
  let all16 := (ranksOf d).all (fun r => (Tab.get [] s4.mr4 r).length == 16)
  let most := ((ranksOf d).flatMap (fun r => Tab.get [] s4.mr4 r)).foldl (fun m x => Nat.max m (required x)) 0
  if cur < need then
    { s4.clrFlag (rDev d) 6 with
      patPend := Tab.put s4.patPend d (need, nextMultiple slotCycle (t + ctPerUs)), slower := Tab.erase s4.slower d }
  else if first && full && decide (need < cur) then
    { s4 with patPend := Tab.put s4.patPend d (need, nextMultiple slotCycle (t + 1)) }
  else if !first && all16 && decide (most < cur) then
    { s4.setFlag (rDev d) 6 with slower := Tab.put s4.slower d most }
  else if (Tab.find s4.slower d).any (fun p => decide (p < need)) then
    { s4.clrFlag (rDev d) 6 with slower := Tab.erase s4.slower d }
  else s4

/-- MR4_POLL: rank n of channel c is read; the device's count of write link errors joins LINKCE (R500, R502, R503,
R504). -/
def mr4Poll (s : State) (c : Nat) (rank : Bool) (f : B8) (linkce : W32) : State :=
  let key := 2 * c + rank.toNat
  let d := devOf c
  let t := nextMultiple mr4Every (Nat.max s.ct (Tab.get 0 s.mr4At key))
  let s1 := (s.toCt t).countMod 32 32 (rCh c 2) linkce.toNat
  let first := (ranksOf d).any (fun r => (Tab.get [] s.mr4 r).isEmpty)
  let s2 := { s1 with
    mr4At := Tab.put s1.mr4At key (t + 1)
    mr4 := Tab.put s1.mr4 key ((f.toNat :: Tab.get [] s1.mr4 key).take 16) }
  s2.mr4Plan d f.toNat first t

/-- REFRESH_PATTERN_CHANGE: a pending change of device d's pattern takes effect; a retraining of the device puts it
off (R503, R504, R506). -/
def patternChange (s : State) (d : Nat) : State :=
  if s.devHeld d then s
  else
    match Tab.find s.patPend d with
    | some (p, due) =>
      let s1 := (s.toCt (if s.ct ≤ due then due else nextMultiple slotCycle s.ct)).refreshDev d
      let faster := decide (s1.pattern d < p)
      let s2 := { s1.setFld (rDev d) 1 0 p with patPend := Tab.erase s1.patPend d }
      if faster then ((s2.event (rDev d) 62).setReg (rDev d) (plainCount 31 16 1 (setBit (s2.reg (rDev d)) 62 true))).raiseKeep 4
      else s2
    | none =>
      match Tab.find s.slower d, s.clearingMultiple slotCycle with
      | some p, some t =>
        let s1 := (s.toCt t).refreshDev d
        { (s1.setFld (rDev d) 1 0 p).clrFlag (rDev d) 6 with slower := Tab.erase s1.slower d }
      | _, _ => s

/-- WCK2DQ_TRACKING: the count of a rank's oscillator is read, 1,000 ct after the refresh that started it, and its timing
moves by at most one delay step (R505). -/
def wckTrack (s : State) (c : Nat) (rank : Bool) (count : W16) : State :=
  let key := 2 * c + rank.toNat
  match Tab.find s.osc key with
  | none => s
  | some t =>
    let s1 := s.toCt t
    let old := Tab.get (0, 0) s1.wck key
    let step : Int := match Config.trackStep s1.free with | 0 => 0 | 1 => 1 | _ => -1
    { s1 with wck := Tab.put s1.wck key (count.toNat, old.2 + step), osc := Tab.erase s1.osc key, free := s1.free + 1 }

/-! ### Shares (R298, R509) -/

/-- A write to CELL.SHARE. -/
def shareWrite (s : State) (v : W64) : State :=
  let r := bits v 3 0
  let w := bits v 7 4
  let m := bits v 11 8
  let s0 := if bit v 63 then s.clear rShare 63 else s
  if bits v 11 0 = s.fld rShare 11 0 then s0
  else if 1 ≤ r ∧ 1 ≤ w ∧ 1 ≤ m ∧ r + w + m = 10 then (s0.setFld rShare 11 0 (bits v 11 0)).setFlag rShare 28
  else s0.event rShare 63

/-- SHARE_CHANGE: the requested shares take effect at the first frame boundary inside a clearing. -/
def shareChange (s : State) : State :=
  if s.flag rShare 28 then
    match s.clearingMultiple 300 with
    | some t =>
      let s1 := s.toCt t
      (s1.setFld rShare 27 16 (s1.fld rShare 11 0)).clrFlag rShare 28
    | none => s
  else s

/-! ### Retraining and repair (R506, R507) -/

/-- A write to CELL.RETRAIN. -/
def retrainWrite (s : State) (v : W64) : State :=
  if bit v 4 = false then s
  else if 11 < bits v 3 0 then s.event rCellStat 7
  else s.setFlag (rDev (bits v 3 0)) 7

/-- Whether a retraining may begin now. -/
def State.mayRetrain (s : State) : Bool :=
  !(s.flag rTstat 3) || (s.inClearing && decide (s.ct + 4000 * ctPerUs ≤ (s.reg rClrEnd).toNat))

/-- FULL_RETRAINING: a pending retraining begins, one device at a time on each Edge die, in ascending order; the training
firmware stored last takes effect (R506, R564). -/
def retrainBegin (s : State) (d : Nat) : State :=
  let mates := (List.range 6).map (fun j => 6 * (d / 6) + j)
  if s.flag (rDev d) 7 && s.mayRetrain && mates.all (fun e => !s.devHeld e) &&
      mates.all (fun e => decide (d ≤ e) || !s.flag (rDev e) 7) then
    { ((s.refreshDev d).clrFlag (rDev d) 7).setFlag rCellStat 0 with
      retraining := Tab.put s.retraining d s.ct, running := Tab.put s.running 4 (s.nv.slot 4 (s.nv.activeHalf 4)) }
  else s

/-- RETRAINING_END: the retraining of device d completes, at most 3 ms after it began. -/
def retrainEnd (s : State) (d : Nat) : State :=
  if s.devHeld d then
    let s1 := ({ s with retraining := Tab.erase s.retraining d } : State).refreshAnew d
    let s2 := s1.event rCellStat 6
    if s2.retraining.isEmpty then s2.clrFlag rCellStat 0 else s2
  else s

/-- A write to CELL.PPR. -/
def pprWrite (s : State) (v : W64) : State :=
  if bit v 63 = false then s
  else
    let c := bits v 47 41
    let d := devOf c
    if decide (95 < c) || s.devHeld d || (Tab.find s.pprs d).isSome || s.fld (rDev d) 55 48 == 0 then s.event rCellStat 4
    else { s with pprs := Tab.put s.pprs d (c, bit v 40, bits v 39 36, bits v 17 0) }

/-- POST_PACKAGE_REPAIR: the first requested repair begins, inside a clearing (R4, R507). -/
def pprBegin (s : State) : State :=
  match s.pprs.find? (fun p => (Tab.find s.pprBusy p.1).isNone && !s.devHeld p.1) with
  | some p =>
    if s.inClearing then { s.setFlag rCellStat 1 with pprBusy := Tab.put s.pprBusy p.1 s.ct } else s
  | none => s

/-- Whether a word in error lies in the DRAM row of a repair. -/
def inDramRow (p : Nat × Bool × Nat × Nat) (word : Nat) : Bool :=
  let b := word / 8
  chanOf b == p.1 && (rankOf b == 1) == p.2.1 && bankOf b == p.2.2.1 &&
    groupOf b / 32 / (Config.groupsPerRow + 1) == p.2.2.2

/-- HPPR_COMPLETE: the repair in progress ends; single-bit errors of the DRAM row are corrected, uncorrectable words
stay raw. -/
def pprEnd (s : State) : State :=
  match s.pprs.find? (fun p => (Tab.find s.pprBusy p.1).isSome) with
  | none => s
  | some p =>
    let raw := s.cdef.any (fun e => inDramRow p.2 e.1 && e.2)
    let s1 := { s with
      pprs := Tab.erase s.pprs p.1, pprBusy := Tab.erase s.pprBusy p.1
      cdef := s.cdef.filter (fun e => !(inDramRow p.2 e.1 && !e.2)) }
    let s2 := (s1.setFld (rDev p.1) 55 48 (s1.fld (rDev p.1) 55 48 - 1)).event rCellStat 3
    let s3 := if raw then s2.event rCellStat 5 else s2
    if s3.pprBusy.isEmpty then s3.clrFlag rCellStat 1 else s3

/-! ### The Cellar aperture (R498, R499) -/

/-- Reads `n` bytes at aperture offset `a`, within one burst. -/
def State.cellRead (s : State) (a n : Nat) : State × Option Nat :=
  let p := s.readBurst (a / 64) 2
  (p.1, if p.2 then some (readLE p.1.cellar a n) else none)

/-- Writes `n` bytes at aperture offset `a`, within one burst; false where an uncorrectable word discards it. -/
def State.cellWrite (s : State) (a n v : Nat) : State × Bool :=
  if n = 64 then (s.writeBurst (a / 64) 2 n v 0, true)
  else
    let p := s.readBurst (a / 64) 2
    if p.2 then (p.1.writeBurst (a / 64) 2 n v (a % 64), true) else (p.1, false)

end Sys2Proof.Machine
end

