-- ==== Sys2Proof/Machine/HostChan.lean ====
section
/-! DEFINITION.
MSI-X and the host stream channels: translation, line requests and responses, halts (spec 09 R299–R305,
18 R515–R523). -/

namespace Sys2Proof.Machine

/-- Changes the stream in a slot, where it still is the one with identity `id`. -/
def Core.modStream (k : Core) (slot id : Nat) (f : Stream → Stream) : Core :=
  match k.stream slot with
  | some x => if x.id = id then k.setStream slot (f x) else k
  | none => k

/-- Takes a read-queue entry out, and the reservation and the operation it stands for. -/
def Core.undoRead (k : Core) (q id : Nat) : Core :=
  let r := k.rqueue q
  let gone := r.entries.filter (fun e => e.id == id)
  let k1 := { k with rq := Tab.put k.rq q { r with entries := r.entries.filter (fun e => e.id ≠ id) } }
  gone.foldl (fun k e =>
    let k1 := match e.dest with
      | .fq d => if e.dead then k else k.unreserve d
      | .home _ => k
    match k1.stream e.stream with
    | some x => k1.setStream e.stream { x with open_ := x.open_ - 1 }
    | none => k1) k1

/-- Takes a row the channel will not move back out of the core's queues. -/
def Core.undoHost (k : Core) (h : HRow) : Core :=
  if h.write then
    ({ k with wq := Tab.put k.wq h.queue ((k.wqueue h.queue).filter (fun e => e.id ≠ h.entry)) }).modStream h.slot h.stream
      (fun x => { x with uncommitted := x.uncommitted - 1 })
  else k.undoRead h.queue h.entry

/-- Every row operation of a stream later than entry `id` that has not completed is given up: its read-queue entries, and its
write-queue rows whose write has not reached memory (R303). -/
def Core.undoLater (k : Core) (slot stream id : Nat) : Core :=
  let k1 := (k.rq.flatMap (fun q => (q.2.entries.filter (fun e => e.stream == slot && decide (id < e.id))).map (fun e => (q.1, e.id)))).foldl
    (fun k e => k.undoRead e.1 e.2) k
  (k1.wq.flatMap (fun q => (q.2.filter (fun e => e.stream == stream && decide (id < e.id) && !e.ready)).map (fun e => (q.1, e.id)))).foldl
    (fun k e => ({ k with wq := Tab.put k.wq e.1 ((k.wqueue e.1).filter (fun y => y.id ≠ e.2)) }).modStream slot stream
      (fun x => { x with uncommitted := x.uncommitted - 1 })) k1

/-- A stream halts at a host row (R303, R520): the position is saved, the core raises STREAM_HALT, and the channel
reports it.  A stream that is stopping goes on stopping; one that has ended no longer halts. -/
def State.haltAt (s : State) (i slot id c reason w : Nat) (write : Bool) (idx : List Nat) (action m : Nat) : State :=
  let s1 := s.modCore i (fun k => k.modStream slot id (fun x =>
    if x.st = 5 then x
    else { x with st := 4, reason := reason, chan := c, hrow := w, idx := idx, action := action, m := m }))
  let v := s1.reg (rHchStat c)
  let kept : W64 := v &&& BitVec.ofNat 64 (3 * 2 ^ 62)
  let s2 := s1.setReg (rHchStat c) (kept ||| BitVec.ofNat 64
    (2 + write.toNat * 4 + posOf i * 2 ^ 16 + dieOf i * 2 ^ 24 + slot * 2 ^ 28 + reason * 2 ^ 32))
  ((s2.setReg (rHchRow c) (BitVec.ofNat 64 w)).raiseCore i 1).msix c

/-- A row of a channel ends as HOST_ERR: it and every later row operation of its stream that has not completed are given up, and
the stream halts at it (R303, R519). -/
def State.hostError (s : State) (c id : Nat) : State :=
  match (s.hrows c).find? (fun h => h.id == id) with
  | none => s
  | some h =>
    let later := fun (x : HRow) => x.core == h.core && x.stream == h.stream && decide (h.id ≤ x.id)
    let gone := (s.hrows c).filter later
    let s1 := s.setHrows c ((s.hrows c).filter (fun x => !(later x)))
    let s2 := (gone.foldl (fun s x => s.modCore x.core (fun k => k.undoHost x)) s1).modCore h.core (fun k =>
      { k.undoLater h.slot h.stream h.entry with hout := k.hout.filter (fun x => !(later x.2.2)) })
    s2.haltAt h.core h.slot h.stream c 3 h.w h.write h.idx h.action h.m

/-- HALTED of a channel clears (R520). -/
def State.unhalt (s : State) (c : Nat) : State := s.clrFlag (rHchStat c) 1

/-- The slot of stream `x` frees: a channel that reported its halt clears HALTED (R520). -/
def State.freeHalt (s : State) (x : Stream) : State := if x.reason = 0 then s else s.unhalt x.chan

/-- Every slot of core `i` frees. -/
def State.freeHalts (s : State) (i : Nat) : State := (s.core i).streams.foldl (fun a p => a.freeHalt p.2) s

/-- HOST_LINE_RESPONSE: line `id mod 8` of row `id / 8` of channel c is answered: 0 completed, else an error (2:
poisoned data, also logged in the RAS capability) (R517, R519). -/
def hostLine (s : State) (c id st : Nat) (data : Line) : State :=
  let rid := id / 8
  match (s.hrows c).find? (fun h => h.id == rid) with
  | none => s
  | some h =>
    if h.lines.contains (id % 8) then s
    else if st ≠ 0 then
      let s1 := if st = 2 then (s.event rRas 0).msix 9 else s
      s1.hostError c rid
    else
      let h1 : HRow := { h with
        lines := id % 8 :: h.lines
        data := if h.write then h.data else setBits h.data (512 * (id % 8) + 511) (512 * (id % 8)) data.toNat }
      if h1.lines.length < 8 then
        s.setHrows c ((s.hrows c).map (fun x => if x.id = rid then h1 else x))
      else
        let s1 := (s.setHrows c ((s.hrows c).filter (fun x => x.id ≠ rid))).countMod 48 63 (rHchRows c) 1
        s1.modCore h.core (fun k =>
          if h.write then
            let l := (k.wqueue h.queue).map (fun e => if e.id = h.entry then { e with ready := true } else e)
            { k with wq := Tab.put k.wq h.queue l }
          else
            let r := k.rqueue h.queue
            let l := r.entries.map (fun e => if e.id = h.entry then { e with row := some h1.data } else e)
            { k with rq := Tab.put k.rq h.queue { r with entries := l } })

/-- HOST_LINE_TIMEOUT: a line has had no response within HCTO.TIMEOUT µs of its request (R519). -/
def hostTimeout (s : State) (c id : Nat) : State :=
  match (s.hrows c).find? (fun h => h.id == id / 8) with
  | none => s
  | some h =>
    if h.lines.contains (id % 8) then s
    else ((s.toCt (h.since + s.fld rHcto 31 0 * ctPerUs)).event (rHchStat c) 62).hostError c h.id

/-- Every host row outstanding ends as HOST_ERR: the oldest row of each stream halts it (R519, R526, R527). -/
def State.hostErrors (s : State) : State :=
  (List.range 8).foldl (fun s c => (s.hrows c).foldl (fun s h => s.hostError c h.id) s) s

/-! ### Streams and channels -/

/-- The host channels a program names: ADDR words with SPACE 2. -/
def Stream.channels (x : Stream) : List Nat :=
  x.words.filterMap (fun w => if bits w 63 60 = 1 ∧ bits w 57 56 = 2 then some (bits w 55 53) else none)

/-- Whether any stream of the module names channel `c` (HCHc.STAT.BUSY, R516). -/
def State.chanBusy (s : State) (c : Nat) : Bool :=
  s.cores.any (fun p => p.2.streams.any (fun q => decide (2 ≤ q.2.st) && q.2.channels.contains c))

/-- Whether channel `c` is bound to context `n` of the logical core on position `i` (R299, R515). -/
def State.chanBound (s : State) (i n c : Nat) : Bool :=
  let b := s.reg (rHchBind c)
  bit b 63 && bits b 10 9 == n && s.logicalOf i == some (bits b 8 0)

/-- A write to CXLP.HCHc.BIND (R516). -/
def hchBindWrite (s : State) (c : Nat) (v : W64) : State :=
  if s.chanBusy c then s.event (rHchStat c) 63
  else
    let w := v &&& (0x8000000000000FFF : W64)
    s.setReg (rHchBind c) (if 287 < bits v 8 0 then setBit w 63 false else w)

/-- A write of GO to CXLP.HTTSYNC clears DONE (R521). -/
def httsync (s : State) : State := { s.clrFlag rHttsync 1 with syncMark := s.nextFlight }

/-- HTTSYNC_DONE: every line request issued before the GO has completed. -/
def httsyncDone (s : State) : State :=
  if (List.range 8).all (fun c => (s.hrows c).all (fun h => decide (s.syncMark ≤ h.id))) then s.setFlag rHttsync 1 else s

/-- A write to CXLP.DBELL (R523): vectors 16 to 63, from inputs 1 to 18; one raised while the link is down is lost (R527). -/
def dbell (s : State) (inp : Nat) (v : W64) : State :=
  if inp ≠ 0 ∧ 16 ≤ bits v 5 0 ∧ s.hostUp then s.msix (bits v 5 0) else s

end Sys2Proof.Machine
end

