-- ==== Sys2Proof/Machine/Forager.lean ====
section
/-! DEFINITION.
The Forager: stream programs, the granting of row operations, the decoupling queues, and the end, halt and resumption
of streams (spec 09). -/

namespace Sys2Proof.Machine

/-- The faults of a program when it is decoded, lowest code first (R280, R290, R299, R319, R343). -/
def State.loadFaults (s : State) (i : Nat) (x : Stream) (badEnd : Bool) : List Nat :=
  let owned := (s.core i).reg (offFlagown x.ctx)
  let illegal := badEnd || badOrder x.words || x.words.any (badWord x) ||
    x.words.any (fun w => wordOp w == 5 && bit w 50 && !(bit owned (bits w 5 0)))
  let leaks := x.tag != 0 && x.words.any (fun w =>
    wordOp w == 6 || (wordOp w == 1 && bits w 57 56 == 2) ||
    (wordOp w == 4 && mvToReg w && x.space (mvDreg w) != 0))
  illegalIf illegal ++
  cause (x.channels.any (fun c => !(s.chanBound i x.ctx c) || s.chanBusy c)) fHOSTCHANNEL ++
  cause leaks fSPECLEAK

/-! ### Starting and stopping (R279–R281, R306) -/

def fStr (op : W32) : Nat := bits op 31 28

def semFStart : Sem where
  slots := [.f]
  judge b := illegalIf (bit b.op 27 || !srcOk (fSrc1 b.op) || !srcOk (fSrc2 b.op) || !srcOk (fSrc3 b.op)) ++
    cause (b.k.stream (fStr b.op)).isSome fSTREAMBUSY
  judgeV b := illegalIf (decide (49151 < bits b.a 15 0))
  reads op := regsRead [fSrc1 op, fSrc2 op, fSrc3 op]
  eff b s := s.modCore b.core (fun k => { k.setStream (fStr b.op) {
    st := 1, ctx := b.ctx, tag := b.tag, prow := bits b.a 15 0, half := bit b.a 16, a0 := b.b2, a1 := b.b3
    from_ := b.cyc + 1, id := k.nextId } with nextId := k.nextId + 1 })

/-- A stream stops at its next row boundary: nothing more of it is granted (R281). -/
def Stream.stop (x : Stream) : Stream := { x with st := 5 }

def semFStop : Sem where
  slots := [.f]
  judge b := illegalIf (bits b.op 27 0 != 0) ++
    (match b.k.stream (fStr b.op) with
      | some x => cause (x.ctx != b.ctx) fSTREAMOWNER ++ cause (b.tag != 0 && x.tag != b.tag) fSPECLEAK
      | none => [])
  eff b s := s.modCore b.core (fun k => match k.stream (fStr b.op) with
    | some x => k.setStream (fStr b.op) x.stop
    | none => k)

def semFTake : Sem where
  slots := [.f]
  judge b := illegalIf (bits b.op 21 0 != 0 || decide (fQsel b.op < 8) || decide (11 < fQsel b.op) ||
    fQn b.op == 0 || decide (16 < fQn b.op))
  stall b := decide ((b.k.rqueue (fQsel b.op - 8)).tokens < fQn b.op)
  eff b s := s.modCore b.core (fun k =>
    let q := fQsel b.op - 8
    let r := k.rqueue q
    { k with rq := Tab.put k.rq q { r with tokens := r.tokens - fQn b.op } })

/-- Every stream of context `n` stops. -/
def Core.stopStreams (k : Core) (n : Nat) : Core :=
  { k with streams := k.streams.map (fun p => (p.1, if p.2.ctx = n then p.2.stop else p.2)) }

/-- A fault of a stream's row operation or program (R302): the context faults, and none of its streams is granted a
further operation. -/
def State.streamFault (s : State) (i slot n code : Nat) : State :=
  (s.faultStream i n code slot).modCore i (fun k => k.stopStreams n)

/-! ### Grants (R279–R286) -/

/-- Whether stream `slot` still stands as it stood before cycles passed: none of its context's faults has stopped it (R302). -/
def State.stands (s : State) (i slot : Nat) (x : Stream) : Bool := decide ((s.core i).stream slot = some x)

/-- STREAM_PROGRAM_READ: the program row is read in the first cycle with a free port, and the program is decoded two cycles later
(R279, R280). -/
def programRead (s : State) (i slot : Nat) : State :=
  match (s.core i).stream slot with
  | none => s
  | some x =>
    if x.st ≠ 1 then s
    else
      let s1 := (s.toCyc i x.from_).await i (fun t => decide (0 < (t.core i).portsLeft (t.cycOf i))) bankFuel
      let r := s1.cycOf i
      if s1.stands i slot x = false then s1
      else if (s1.core i).shares x.prow 1 && !((s1.core i).inExtent x.ctx x.tag x.prow 1) then
        s1.streamFault i slot x.ctx fSPECLEAK
      else
        let s2 := s1.modCore i (fun k => (k.grant r (16 + slot)).noteBank x.prow r)
        match s2.readComb i x.prow with
        | (s3, none) => s3.streamFault i slot x.ctx fCOMBUE
        | (s3, some v) =>
          let p := programWords v x.half
          let x1 := { x with words := p.1, from_ := r + 3 }
          match s3.loadFaults i x1 p.2 with
          | code :: _ => (s3.toCyc i (r + 2)).streamFault i slot x.ctx code
          | [] => s3.modCore i (fun k => k.setStream slot
            { x1 with st := 2, action := x1.actionFrom x1.idx 0 })

/-- The stream after a grant in cycle `c`. -/
def Stream.granted (x : Stream) (c : Nat) : Stream := { x.advance with st := 2, from_ := c + 1 }

/-- Marks the stream as holding in the present cycle. -/
def State.holdStream (s : State) (i slot : Nat) (x : Stream) : State :=
  s.modCore i (fun k => k.setStream slot { x with st := 3, heldAt := s.cycOf i })

/-- The first cycle in which the pending operation of a stream is considered: it may be granted, and has not yet found its resources
wanting. -/
def Stream.next (x : Stream) : Nat := if x.st = 3 then Nat.max x.from_ (x.heldAt + 1) else x.from_

/-- A home-slice read granted in cycle `c` (R285). -/
def State.grantHomeRead (s : State) (i slot : Nat) (x : Stream) (o : MoveOp) (c : Nat) : State :=
  let s1 := s.modCore i (fun k => (k.grant c slot).noteBank o.srow c)
  match s1.readComb i o.srow with
  | (s2, none) => s2.streamFault i slot x.ctx fCOMBUE
  | (s2, some v) =>
    let x1 := { x.granted c with doneAt := c + 2 }
    if o.toReg = false then
      s2.modCore i (fun k =>
        let f := k.queue o.dq
        let f1 := { f with rows := f.rows ++ [{ row := v, tag := x.tag, at_ := c + 1 }], owner := some x.ctx }
        { k.setStream slot x1 with fq := Tab.put k.fq o.dq f1 })
    else
      let id := (s2.core i).nextId
      let put := fun (dest : RqSrc) (k : Core) =>
        { k.setStream slot { x1 with uncommitted := x1.uncommitted + 1 } with
          nextId := k.nextId + 1
          wq := Tab.put k.wq o.cq (k.wqueue o.cq ++ [⟨id, v, dest, slot, x.id, x.ctx, false, c + 1⟩]) }
      if o.dst = 1 then s2.modCore i (put (.cellar o.drow))
      else
        match s2.translate o.drow true with
        | .inr _ => s
        | .inl pa =>
          let h : HRow := {
            id := s2.nextFlight, core := i, slot := slot, stream := x.id, write := true, w := o.drow, pa := pa, queue := o.cq
            entry := id, idx := x.idx, action := x.action, m := x.m, data := v, lines := [], since := s2.ct }
          { s2.modCore i (fun k => { put (.host o.dchan o.drow) k with hout := k.hout ++ [(c + 1, o.dchan, h)] }) with
            nextFlight := s2.nextFlight + 1 }

/-- A Cellar or host read granted in cycle `c`: an entry of its read queue, and the place it is delivered to
(R291). -/
def Core.openRead (k : Core) (slot : Nat) (x : Stream) (o : MoveOp) (c : Nat) (src : RqSrc) : Core :=
  let e : RqEntry := {
    id := k.nextId, src := src, dest := if o.toReg then .home o.drow else .fq o.dq, tok := o.tok, stream := slot
    ctx := x.ctx, tag := x.tag, since := c }
  let r := k.rqueue o.cq
  let x1 := x.granted c
  let k1 := { k.setStream slot { x1 with open_ := x1.open_ + 1 } with
    nextId := k.nextId + 1, rq := Tab.put k.rq o.cq { r with entries := r.entries ++ [e] } }
  if o.toReg then k1
  else
    let f := k1.queue o.dq
    { k1 with fq := Tab.put k1.fq o.dq { f with resv := f.resv + 1, owner := some x.ctx } }

/-- A granted row operation takes effect in the present cycle, unless it faults (R278, R285, R291, R302, R318). -/
def State.rowGiven (s : State) (i slot : Nat) (x : Stream) : State :=
  let o := x.moveOp
  let k := s.core i
  let c := s.cycOf i
  if o.inRange = false then s.streamFault i slot x.ctx fSTREAMRANGE
  else if k.streamLeak x o then s.streamFault i slot x.ctx fSPECLEAK
  else if o.src = 0 then s.grantHomeRead i slot x o c
  else if o.src = 1 then
    (s.modCore i (fun k => (k.grant c grantCellar).openRead slot x o c (.cellar o.srow))).count48 i 0x710 1
  else
    match s.translate o.srow false with
    | .inr _ => s
    | .inl pa =>
      let h : HRow := {
        id := s.nextFlight, core := i, slot := slot, stream := x.id, write := false, w := o.srow, pa := pa, queue := o.cq
        entry := k.nextId, idx := x.idx, action := x.action, m := x.m, data := 0, lines := [], since := s.ct }
      ({ s.modCore i (fun k => (k.grant c grantHost).openRead slot x o c (.host o.schan o.srow)) with
        nextFlight := s.nextFlight + 1 }).issueHost o.schan h

/-- ROW_OPERATION_GRANT: the pending row operation of a stream is granted in the cycle in which it is considered next, where the
order of R284 leaves it its resources, or the stream holds (R282–R285, R291). -/
def rowGrant (s0 : State) (i slot : Nat) : State :=
  match (s0.core i).stream slot with
  | none => s0
  | some x0 =>
    if x0.runs = false ∨ wordOp x0.word ≠ 4 then s0
    else
      let s := s0.toCyc i x0.next
      match (s.core i).stream slot with
      | none => s
      | some x =>
        if x.runs = false ∨ wordOp x.word ≠ 4 then s
        else if (s.grantPlan i (s.cycOf i)).1.contains slot then s.rowGiven i slot x
        else s.holdStream i slot x

/-- FWAIT_GRANT: the wait is granted in a cycle at whose start its flag is set, the flag having been seen set in the cycle
before, in which the stream waited (R286). A flag that is set only now is seen in the present cycle, and the wait granted in
the next. -/
def fwaitGrant (s0 : State) (i slot : Nat) : State :=
  match (s0.core i).stream slot with
  | none => s0
  | some x =>
    let s := s0.toCyc i x.from_
    let f := bits x.word 5 0
    let c := s.cycOf i
    let give := fun (s : State) => s.modCore i (fun k =>
      let k1 := if bit x.word 50 then k.takeFlag f (s.cycOf i) else k
      k1.setStream slot (x.granted (s.cycOf i)))
    if x.runs = false ∨ wordOp x.word ≠ 5 then s0
    else if s.stands i slot x = false then s
    else if x.from_ < c ∧ (s.core i).flagWas f c then give s
    else if (s.core i).flag f then
      let s1 := s.toCyc i (c + 1)
      if s1.stands i slot x = false then s1
      else if (s1.core i).flagWas f (s1.cycOf i) then give s1 else s1.holdStream i slot x
    else s.holdStream i slot x

/-- SIGNAL_GRANT: every earlier operation has completed at its destination; the flag is set 3 cycles on (R283, R286). -/
def signalGrant (s : State) (i slot : Nat) : State :=
  match (s.core i).stream slot with
  | none => s
  | some x =>
    if x.runs = false ∨ wordOp x.word ≠ 6 then s
    else if x.open_ ≠ 0 ∨ x.uncommitted ≠ 0 then s.holdStream i slot x
    else
      let c := Nat.max (s.cycOf i) (Nat.max x.from_ x.doneAt)
      let s1 := s.toCyc i c
      if s1.stands i slot x = false then s1
      else (s1.modCore i (fun k => k.setStream slot (x.granted c))).sendCtl i (.signal (bits x.word 5 0)) ([], c + 3)

/-! ### The queues (R240, R291–R295) -/

/-- One operation of a stream has completed in cycle `c`. -/
def Core.streamDone (k : Core) (slot c : Nat) : Core :=
  match k.stream slot with
  | some x => k.setStream slot { x with open_ := x.open_ - 1, doneAt := Nat.max x.doneAt (c + 1) }
  | none => k

def Core.setEntries (k : Core) (q : Nat) (l : List RqEntry) : Core :=
  { k with rq := Tab.put k.rq q { k.rqueue q with entries := l } }

/-- The head entry of a read queue leaves it in cycle `c`, at whose end it frees. -/
def Core.popEntry (k : Core) (q : Nat) (rest : List RqEntry) (c : Nat) : Core :=
  let r := k.rqueue q
  { k with rq := Tab.put k.rq q { r with entries := rest, gone := (c, 1 + if r.gone.1 = c then r.gone.2 else 0) } }

/-- A Cellar row lands in its entry. -/
def State.landRow (s : State) (i q id r : Nat) : State :=
  match s.readCellar r 0 with
  | (s1, v) => s1.modCore i (fun k => k.setEntries q ((k.rqueue q).entries.map (fun y =>
    if y.id = id then { y with row := v, err := v.isNone } else y)))

/-- The Cellar reads of the module granted before cycle `c` that wait at the channels of row `r`: core, queue, entry, row. -/
def State.readsBefore (s : State) (r c : Nat) : List (Nat × Nat × Nat × Nat) :=
  s.cores.flatMap (fun p => p.2.rq.flatMap (fun q => q.2.entries.filterMap (fun e =>
    match e.src with
    | .cellar x =>
      if e.row.isNone && !e.err && decide (e.since < c) && decide (e.since + 176 ≤ s.cycOf p.1) && sameChannels r x && !(s.mutes p.1)
      then some (p.1, q.1, e.id, x) else none
    | .host .. => none)))

/-- Accesses that the controllers take before a given one: of its class, older, on the same channels, and with a free bank
(R497). -/
def State.serveFirst (s : State) (l : List (Nat × Nat × Nat × Nat)) (serve : State → Nat × Nat × Nat × Nat → State) : State :=
  l.foldl (fun s x => if s.rowOpen x.2.2.2 then serve s x else s) s

/-- CELLAR_ROW_LAND: a Cellar row lands in its entry, no earlier than 176 cycles after its grant and once no refresh blocks
its banks; older reads at the same channels whose banks are free land before it (R291, R497). -/
def cellarLand (s : State) (i q id : Nat) : State :=
  match (s.core i).rqueue q |>.entries.find? (fun e => e.id == id) with
  | none => s
  | some e =>
    match e.src with
    | .host .. => s
    | .cellar r =>
      if e.row.isSome ∨ e.err then s
      else if s.mutes i then s.count32Core i 0xB20 1
      else
        let s0 := s.toCyc i (e.since + 176)
        if s0.rowHeld r then s0
        else
          let s1 := s0.toCt (s0.rowFree r)
          (s1.serveFirst (s1.readsBefore r e.since) (fun s x => s.landRow x.1 x.2.1 x.2.2.1 x.2.2.2)).landRow i q id r

/-- Whether the head row of a read queue is to be delivered through the slice's write port. -/
def Core.homeHead (k : Core) (q : Nat) : Bool :=
  match (k.rqueue q).entries with
  | e :: _ => e.row.isSome && !e.err && !e.dead && (match e.dest with | .home _ => true | .fq _ => false) &&
      !(e.tok && decide (255 ≤ (k.rqueue q).tokens))
  | [] => false

/-- Whether another queue's head comes before that of queue `q` in cycle `c`: ascending from CYCLE.COUNT mod 4 (R292). -/
def Core.homeAhead (k : Core) (q c : Nat) : Bool :=
  (List.range ((q + 4 - c % 4) % 4)).any (fun j => k.homeHead ((c + j) % 4))

/-- A row enters a Forager queue at the end of cycle `c`, before rows that enter later (R287). -/
def FQueue.enter (f : FQueue) (v : Row) (tag c : Nat) : FQueue :=
  let early := f.rows.filter (fun r => decide (r.at_ ≤ c))
  { f with rows := early ++ { row := v, tag := tag, at_ := c } :: f.rows.filter (fun r => decide (c < r.at_)), resv := f.resv - 1 }

/-- READ_QUEUE_DELIVERY: the head row of a read queue is delivered, if it has landed; its entry frees at the end of the cycle (R292,
R293, R302). -/
def queueDelivery (s : State) (i q : Nat) : State :=
  let k := s.core i
  let c := s.cycOf i
  match (k.rqueue q).entries with
  | [] => s
  | e :: rest =>
    let s1 := s.modCore i (fun k => k.popEntry q rest c)
    if e.err then
      let s2 := s1.modCore i (fun k =>
        let k1 := match e.dest with | .fq d => if e.dead then k else k.unreserve d | .home _ => k
        k1.streamDone e.stream c)
      if e.dead then s2 else s2.streamFault i e.stream e.ctx fCELLARUE
    else
      match e.row with
      | none => s
      | some v =>
        if e.dead then s1.modCore i (fun k => k.streamDone e.stream c)
        else if e.tok && decide (255 ≤ (k.rqueue q).tokens) then s
        else
          let s2 := s1.modCore i (fun k =>
            let r := k.rqueue q
            if e.tok then { k with rq := Tab.put k.rq q { r with tokens := r.tokens + 1 } } else k)
          match e.dest with
          | .fq d => s2.modCore i (fun k =>
            ({ k with fq := Tab.put k.fq d ((k.queue d).enter v e.tag c) }).streamDone e.stream c)
          | .home r =>
            if (k.granted c).contains grantHome || k.homeAhead q c then s
            else
              let fw : FWrite := ⟨r, v, e.tag, e.ctx, some e.stream, none⟩
              s2.modCore i (fun k => { k.grant c grantHome with fwrites := k.fwrites ++ [fw] })

/-- Whether the write port has room for a Forager write in the present cycle: none has been made in it, and no holder writes. -/
def State.writeFree (i : Nat) (s : State) : Bool :=
  decide ((s.core i).fwNext ≤ s.cycOf i) && ((s.core i).writesAt (s.cycOf i)).isEmpty

/-- FORAGER_WRITE: the next waiting row is written into the home slice in the first cycle in which no holder writes a row (R240).  A
GET's entry frees with its last row (R338). -/
def foragerWrite (s : State) (i : Nat) : State :=
  match (s.core i).fwrites with
  | [] => s
  | w :: rest =>
    let s0 := s.await i (State.writeFree i) bankFuel
    let c := s0.cycOf i
    let s1 := s0.modCore i (fun k => { k.noteBank w.row c with fwrites := rest, fwNext := c + 1 })
    let s2 := s1.writeOwn i w.ctx w.tag w.row w.data
    let s3 := match w.stream with | some t => s2.modCore i (fun k => k.streamDone t c) | none => s2
    match w.op with
    | some id =>
      let pending := rest.any (fun y => y.op == some id) || (s3.core i).xfers.any (fun x => x.entry == some id)
      if pending then s3 else s3.modCore i (fun k => k.freeSb id)
    | none => s3

/-- A write-queue entry frees, and its stream has one write less to commit. -/
def Core.dropEntry (k : Core) (q : Nat) (e : WqEntry) : Core :=
  ({ k with wq := Tab.put k.wq q ((k.wqueue q).filter (fun y => y.id ≠ e.id)) }).modStream e.slot e.stream
    (fun x => { x with uncommitted := x.uncommitted - 1 })

/-- A Cellar row is written, and its entry frees. -/
def State.commitRow (s : State) (i q id : Nat) : State :=
  match ((s.core i).wqueue q).find? (fun e => e.id == id) with
  | some e => (match e.dest with
    | .cellar r => (s.writeCellar r 1 e.row).modCore i (fun k => k.dropEntry q e)
    | .host .. => s)
  | none => s

/-- The Cellar writes of the module granted before cycle `c` that wait at the channels of row `r`: core, queue, entry, row. -/
def State.writesBefore (s : State) (r c : Nat) : List (Nat × Nat × Nat × Nat) :=
  s.cores.flatMap (fun p => p.2.wq.flatMap (fun q => q.2.filterMap (fun e =>
    match e.dest with
    | .cellar x => if decide (e.at_ < c) && decide (e.at_ + 1 ≤ s.cycOf p.1) && sameChannels r x then some (p.1, q.1, e.id, x) else none
    | .host .. => none)))

/-- WRITE_QUEUE_COMMIT: the Cellar controller commits a row, or the host channel has completed it; the entry frees (R294),
once its row has entered it at the end of the cycle after its grant (R285) and no refresh blocks its banks; older writes at
the same channels whose banks are free commit before it (R497). -/
def queueCommit (s0 : State) (i q id : Nat) : State :=
  match ((s0.core i).wqueue q).find? (fun e => e.id == id) with
  | none => s0
  | some e =>
    let s := s0.toCyc i (e.at_ + 1)
    match e.dest with
    | .cellar r =>
      if s.rowHeld r then s
      else
        let s1 := s.toCt (s.rowFree r)
        (s1.serveFirst (s1.writesBefore r e.at_) (fun s x => s.commitRow x.1 x.2.1 x.2.2.1)).commitRow i q id
    | .host .. => if e.ready then s.modCore i (fun k => k.dropEntry q e) else s

/-! ### The end, the halt and the resumption of a stream (R281, R303–R305) -/

/-- STREAM_END: the last operation has completed at its destination, or the stream has stopped and those granted have
completed; the slot frees (R281). -/
def streamEnd (s : State) (i slot : Nat) : State :=
  match (s.core i).stream slot with
  | none => s
  | some x =>
    if (x.st = 5 ∨ (x.action = 32 ∧ (x.st = 2 ∨ x.st = 3))) ∧ x.open_ = 0 then
      ((s.toCyc i x.doneAt).modCore i (fun k => { k with streams := Tab.erase k.streams slot })).freeHalt x
    else s

/-- STREAM_HALT: a host stream meets an absent entry (1), a permission (2) or an error of the host (3) at its pending
row (R303).  Errors of rows already issued halt through their responses. -/
def streamHalt (s0 : State) (i slot reason : Nat) : State :=
  match (s0.core i).stream slot with
  | none => s0
  | some x =>
    let s := s0.toCyc i x.from_
    let o := x.moveOp
    let write := o.src == 0
    let chan := if write then o.dchan else o.schan
    let w := if write then o.drow else o.srow
    if x.runs = false ∨ wordOp x.word ≠ 4 ∨ o.inRange = false ∨ !(o.src == 2 || (o.toReg && o.dst == 2)) then s0
    else if s.stands i slot x = false then s
    else
      let met := match reason, s.translate w write with
        | 3, _ => !s.lineUp
        | r, .inr q => r == q
        | _, .inl _ => false
      if met then s.haltAt i slot x.id chan reason w write x.idx x.action x.m else s0

/-- Records a refused stream command (R304). -/
def State.cmdRefused (s : State) (i slot : Nat) : State := s.coreEvent i (0x800 + 0x20 * slot) 11

/-- RESUME: a halted stream restarts at its saved row from the following cycle (R304, R520). -/
def resumeStream (s : State) (i slot : Nat) : State :=
  match (s.core i).stream slot with
  | some x =>
    if x.st = 4 then (s.modCore i (fun k => k.setStream slot
      { x with st := 2, reason := 0, from_ := s.cycOf i + 1 })).unhalt x.chan
    else s.cmdRefused i slot
  | none => s.cmdRefused i slot

/-- ABORT: a halted stream's context faults with STREAM_ABORTED (R304). -/
def abortStream (s : State) (i slot : Nat) : State :=
  match (s.core i).stream slot with
  | some x =>
    if x.st = 4 then (s.streamFault i slot x.ctx fSTREAMABORTED).unhalt x.chan else s.cmdRefused i slot
  | none => s.cmdRefused i slot

end Sys2Proof.Machine
end

