-- ==== Sys2Proof/Machine/Spec.lean ====
section
/-! DEFINITION.
Speculation tags, the expert history table, CONFIRM and SQUASH, and what a task end or a squash does to the
operations in progress (spec 10, R54, R111, R154, R342). -/

namespace Sys2Proof.Machine

/-! ### The expert history table (R311, R312) -/

/-- Offset of the entry that key `k` selects. -/
def offEht (k : W32) : Nat := 0x3000 + 8 * (k.toNat % 1024)
def ehtMatch (e : W64) (k : W32) : Bool := bit e 63 && bits e 59 38 == k.toNat / 1024
/-- Whether the entry predicts. -/
def ehtPredicts (e : W64) (k : W32) : Bool := ehtMatch e k && decide (2 ≤ bits e 17 16)
/-- An entry with V = 1. -/
def ehtWord (check conf expert : Nat) : W64 := BitVec.ofNat 64 (2 ^ 63 + check * 2 ^ 38 + conf * 2 ^ 16 + expert)

/-- Resolution of key `k` with actual expert `a` (R311). -/
def Core.resolve (c : Core) (k : W32) (a : Nat) : Core :=
  let e := c.reg (offEht k)
  let conf := if ehtMatch e k && bits e 15 0 == a then Nat.min 3 (bits e 17 16 + 1) else 0
  c.setReg (offEht k) (ehtWord (k.toNat / 1024) conf a)

/-! ### SP.OPEN (R315–R317) -/

def fTag (op : W32) : Nat := bits op 2 0

def exSB (v : W64) : Nat := bits v 15 0
def exTB (v : W64) : Nat := bits v 31 16
def exNR (v : W64) : Nat := bits v 45 32

/-- Whether an extent descriptor breaks R316 or R317 on core `k`. -/
def extentBad (k : Core) (v : W64) : Bool :=
  let sb := exSB v
  let tb := exTB v
  let nr := exNR v
  bits v 63 46 != 0 || sb % 16 != 0 || tb % 16 != 0 || nr % 16 != 0 || decide (nr < 16) || decide (8192 < nr) ||
  decide (sb < k.shadow.1) || decide (k.shadow.1 + k.shadow.2 < sb + nr) ||
  k.ctx.any (fun p => p.2.tags.any (fun t => t.2.st == 1 && overlap sb nr t.2.sb t.2.nr)) ||
  decide (49151 < tb + nr - 1) || k.shares tb nr

def semSpOpen : Sem where
  slots := [.s0]
  judge b := illegalIf (bits b.op 8 3 != 0 || fTag b.op == 0 || !srcOk (fSrc1 b.op) || !srcOk (fSrc2 b.op)) ++
    cause ((b.x.getTag (fTag b.op)).st != 0) fSPECSTATE
  judgeV b := cause (extentBad b.k b.b2) fSPECEXTENT
  reads op := regsRead [fSrc1 op, fSrc2 op]
  dest op := some (.reg (fRd op))
  eff b s :=
    let key : W32 := b.a.setWidth 32
    let e := b.k.reg (offEht key)
    if ehtPredicts e key then
      let g : Tag := {
        st := 1, sb := exSB b.b2, tb := exTB b.b2, nr := exNR b.b2, key := key, pred := BitVec.ofNat 16 (bits e 15 0) }
      (s.modCtx b.core b.ctx (fun x => x.setTag (fTag b.op) g)).writeReg b.core b.ctx (fRd b.op)
        (BitVec.ofNat 64 (bits e 15 0)) 2
    else s.writeReg b.core b.ctx (fRd b.op) (BitVec.allOnes 64) 2

def semSpTrain : Sem where
  slots := [.s0]
  judge b := illegalIf (fRd b.op != 0 || bits b.op 8 0 != 0 || !srcOk (fSrc1 b.op) || !srcOk (fSrc2 b.op))
  reads op := regsRead [fSrc1 op, fSrc2 op]
  eff b s := s.modCore b.core (fun k => k.resolve (b.a.setWidth 32) (bits b.b2 15 0))

/-! ### Rows given up (R288, R322) -/

/-- Rows on their way to a destination are discarded: read-queue entries become dead, releasing their reservation, and
rows waiting for the write port go, their streams' operations complete (R288, R322). -/
def Core.killRows (k : Core) (p : Nat → Nat → Bool) (cyc : Nat) : Core :=
  let dying := fun (e : RqEntry) => p e.ctx e.tag && !e.dead
  let k1 := k.rq.foldl (fun (k : Core) (q : Nat × RQueue) =>
    q.2.entries.foldl (fun (k : Core) (e : RqEntry) => match e.dest with
      | .fq d => if dying e then k.unreserve d else k
      | .home _ => k) k) k
  let k2 := { k1 with rq := k1.rq.map (fun (q : Nat × RQueue) =>
    (q.1, { q.2 with entries := q.2.entries.map (fun (e : RqEntry) => if p e.ctx e.tag then { e with dead := true } else e) })) }
  let gone := k2.fwrites.filter (fun w => w.stream.isSome && p w.ctx w.tag)
  let k3 := { k2 with fwrites := k2.fwrites.filter (fun w => !(w.stream.isSome && p w.ctx w.tag)) }
  gone.foldl (fun k w => match w.stream with | some t => k.streamDone t cyc | none => k) k3

/-! ### SQUASH and CONFIRM (R320–R322) -/

/-- Adds tiles to the background clear, ascending. From cycle `c` on it runs anew, where it was idle, where a context clear
restarts it (R59), or where a tile comes before the one it had begun. -/
def Core.addClear (k : Core) (tiles : List Nat) (c : Nat) (restart : Bool) : Core :=
  let todo := (List.range 512).filter (fun t => k.clear.todo.contains t || tiles.contains t)
  let go := restart || todo.head? != k.clear.todo.head?
  { k with clear := { k.clear with todo := todo, from_ := if go then c else k.clear.from_ } }

/-- The buffers of the epilogue and SVU that carry tag `t` of context `n` are zero and unowned. -/
def Core.zeroBufs (k : Core) (n t : Nat) : Core :=
  { k with bufs := k.bufs.filter (fun b => !(b.2.owner == some n && b.2.tag == t)) }

/-- The scoreboard entry and the write port of a confirmation in its renames are freed. -/
def Core.endConfirm (k : Core) (n : Nat) (g : Tag) : Core :=
  let ids := (k.sb.filter (fun e => e.unit == .confirm && e.ctx == n && e.first == g.tb)).map (·.id)
  if g.st = 2 ∧ g.done ≠ 0 then ids.foldl (fun k id => (k.freePort id).freeSb id) k else k

/-- Tag t of context n is squashed (R322, steps 1 to 8): counted, and everything it produced discarded. -/
def State.squash (s : State) (i n t : Nat) : State :=
  let c := s.cycOf i
  let mine := fun (m g : Nat) => m == n && g == t
  (s.modCore i (fun k =>
    let k1 := k.modCtx n (fun x => x.setTag t { x.getTag t with st := 3, held := 0 })
    let k2 := { k1 with streams := k1.streams.map (fun (p : Nat × Stream) => (p.1, if mine p.2.ctx p.2.tag then p.2.stop else p.2)) }
    let k3 := (k2.killRows mine c).dropOps mine
    let k4 := [0, 1, 2, 3, 4, 5, 6, 7].foldl (fun (k : Core) q =>
      if (k.queue q).owner = some n then k.setQueue q ((k.queue q).rows.filter (fun r => r.tag ≠ t)) else k) k3
    let slots := if k4.mvp.claim = some n then
        k4.mvp.slots.map (fun (p : Nat × VSlot) => (p.1, if p.2.tag = t then { p.2 with loaded := false, tag := 0 } else p.2))
      else k4.mvp.slots
    let k5 := ({ k4 with mvp := { k4.mvp with slots := slots } }).zeroBufs n t
    let tiles := (k5.tilesOf n).filter (fun j => k5.tagOfTile j == t)
    ((k5.tagTiles tiles 0).addClear tiles c false).endConfirm n (k.getCtx n |>.getTag t))).count48 i 0xA18 1

/-- SQUASH_COMPLETE: the stopped streams have ended and the stopped operations are gone: the tag is idle (R322). -/
def squashComplete (s : State) (i n t : Nat) : State :=
  let k := s.core i
  if ((k.getCtx n).getTag t).st ≠ 3 ∨ k.streams.any (fun p => p.2.ctx == n && p.2.tag == t) then s
  else s.modCore i (fun k =>
    { k.modCtx n (fun x => { x with tags := Tab.erase x.tags t }) with
      sb := k.sb.filter (fun e => !(e.ctx == n && e.tag == t)) })

def semSquash : Sem where
  slots := [.s0]
  judge b := illegalIf (fRd b.op != 0 || fSrc1 b.op != 48 || fSrc2 b.op != 48 || bits b.op 8 3 != 0 || fTag b.op == 0)
  eff b s :=
    let st := (b.x.getTag (fTag b.op)).st
    if st = 1 ∨ st = 2 then s.squash b.core b.ctx (fTag b.op) else s

def semConfirm : Sem where
  slots := [.s0]
  judge b := illegalIf (fSrc2 b.op != 48 || bits b.op 8 3 != 0 || fTag b.op == 0 || !srcOk (fSrc1 b.op)) ++
    cause ((b.x.getTag (fTag b.op)).st != 1) fSPECSTATE
  reads op := regsRead [fSrc1 op]
  dest op := some (.reg (fRd op))
  eff b s :=
    let t := fTag b.op
    let g := b.x.getTag t
    let s1 := s.modCore b.core (fun k => k.resolve g.key (bits b.a 15 0))
    if g.pred.toNat ≠ bits b.a 15 0 then
      (s1.squash b.core b.ctx t).writeReg b.core b.ctx (fRd b.op) 0 1
    else
      (s1.modCtx b.core b.ctx (fun x => x.setTag t { x.getTag t with st := 2, rd := fRd b.op })).waitFor b.core b.ctx
        (.confirm t (fRd b.op))

/-- The two conditions of R321: every stream of the tag has ended and every entry taken under it has freed. -/
def Core.tagDone (k : Core) (n t : Nat) : Bool :=
  !(k.streams.any (fun p => p.2.ctx == n && p.2.tag == t)) && !(k.sb.any (fun e => e.ctx == n && e.tag == t))

/-- The tag whose confirmation has not begun, if any. -/
def Ctx.confirmPending (x : Ctx) : Option Nat :=
  (x.tags.find? (fun t => t.2.st == 2 && t.2.done == 0)).map (·.1)

/-- Everything of core `k` that carries tag t of context n becomes untagged (R321), and with it what holds no scoreboard entry
and is still at work: its flags go to the status word (R195). -/
def Core.untag (k : Core) (n t : Nat) : Core :=
  let k1 := k.tagTiles ((k.tilesOf n).filter (fun j => k.tagOfTile j == t)) 0
  let k2 : Core := { k1 with
    bufs := k1.bufs.map (fun (b : Nat × TBuf) => (b.1, if b.2.owner = some n ∧ b.2.tag = t then { b.2 with tag := 0 } else b.2))
    fq := k1.fq.map (fun (q : Nat × FQueue) => (q.1, if q.2.owner = some n then
      { q.2 with rows := q.2.rows.map (fun r => if r.tag = t then { r with tag := 0 } else r) } else q.2)) }
  let free := fun (m g : Nat) => if m = n ∧ g = t then 0 else g
  let k3 : Core := { k2 with
    svu := k2.svu.map (fun o => { o with tag := free o.ctx o.tag }), svuTail := k2.svuTail.map (fun o => { o with tag := free o.ctx o.tag })
    bld := k2.bld.map (fun o => { o with tag := free o.ctx o.tag })
    mvp := { k2.mvp with load := k2.mvp.load.map (fun o => { o with tag := free o.ctx o.tag }) } }
  if k3.mvp.claim = some n then
    { k3 with mvp := { k3.mvp with slots := k3.mvp.slots.map (fun (p : Nat × VSlot) => (p.1, if p.2.tag = t then { p.2 with tag := 0 } else p.2)) } }
  else k3

/-- CONFIRM_RESUME: the context resumes in cycle c, unless the write port or the scoreboard holds it (R321). -/
def confirmResume (s : State) (i n : Nat) : State :=
  let x := s.ctx i n
  match (s.core i).phase, x.confirmPending with
  | .running r, some t =>
    if r ≠ n ∨ x.mode ≠ .running then s
    else
      let s1 := s.toCyc i (s.core i).nextIssue
      let k := s1.core i
      let g := x.getTag t
      let c := s1.cycOf i
      if k.portBusy .confirm || k.sbFull || k.sbHit false g.tb g.nr then
        s1.modCore i (fun k => { k with nextIssue := c + 1 })
      else
        (((s1.modCore i (fun k =>
          let k1 := ((k.takePort .confirm k.nextId).takeSb false g.tb g.nr n .confirm 0).untag n t
          { k1.modCtx n (fun x => x.setTag t { g with done := c + 1 + g.written.length, held := 0 }) with
            nextIssue := c + 1 })).raiseFlags i n 0 g.held).writeReg i n g.rd 1 1)
  | _, _ => s

/-- CONFIRM_COMPLETE: cycles pass until the renames are done, the entry and the port are free and the tag is idle (R321). -/
def confirmComplete (s : State) (i n : Nat) : State :=
  match (s.ctx i n).tags.find? (fun t => t.2.st == 2 && t.2.done != 0) with
  | none => s
  | some (_, g) => s.toCyc i (g.done + 1)

/-- CLEAR: a write to CORE.SPEC.CTL clears the table while no context holds a task (R314). -/
def ehtClear (s : State) (i : Nat) : State :=
  if (s.core i).anyTask then s.coreEvent i 0xA08 63
  else s.modCore i (fun k => { k with regs := k.regs.filter (fun p => ¬ (0x3000 ≤ p.1 ∧ p.1 < 0x5000)) })

end Sys2Proof.Machine
end

