-- ==== Sys2Proof/Machine/CtxEvents.lean ====
section
/-! DEFINITION.
Events and commands of a core's contexts: switching, waking from clock gating, waits met, the instruction cache's
misses and fills, START, END, GO and parameter writes, the context clear and the background tile clear
(spec 02 R37–R67, 03 R90). -/

namespace Sys2Proof.Machine

/-! ### Selecting a context (R37, R44) -/

/-- Whether context `n` is ready in cycle `c`. -/
def Core.readyIn (k : Core) (n c : Nat) : Bool := match (k.getCtx n).mode with | .ready t => decide (t ≤ c) | _ => false

/-- The first ready context in the order n + 1, n + 2, n + 3, n. -/
def Core.nextReady (k : Core) (n c : Nat) : Option Nat :=
  [(n + 1) % 4, (n + 2) % 4, (n + 3) % 4, n % 4].find? (fun m => k.readyIn m c)

/-- The cycle from which context `n` is ready, if it is or becomes so. -/
def Core.readyFrom (k : Core) (n : Nat) : Option Nat := match (k.getCtx n).mode with | .ready t => some t | _ => none

/-- Where a core goes whose sample found no ready context: it gates (R42), and where a wait was met in the cycle of the sample
or later, the wake of R44 for that wait is under way (DEDUCED, log entry 51). -/
def Core.rest (k : Core) : Phase :=
  match [0, 1, 2, 3].filterMap k.readyFrom with
  | [] => .gated
  | t :: l => .waking (l.foldl Nat.min t + 2)

/-- The sample of cycle `c`: the first ready context after `n` issues in c + 1; none ready, the core gates (R42). -/
def Core.select (k : Core) (n c : Nat) : Core :=
  match k.nextReady n c with
  | some m =>
    { k.modCtx m (fun x => { x with mode := .running }) with phase := .running m, nextIssue := c + 1, lastRun := m }
  | none => { k with phase := k.rest, lastRun := n, nextIssue := c + 1 }

/-- CONTEXT_SWITCH: the second switch cycle samples the ready contexts (R37). -/
def contextSwitch (s : State) (i : Nat) : State :=
  match (s.core i).phase with
  | .switching n c => (s.toCyc i c).modCore i (fun k => k.select n c)
  | _ => s

/-- GATED_WAKE: three cycles after the met wait the core samples, and issues in the fourth (R44). -/
def gatedWake (s : State) (i : Nat) : State :=
  match (s.core i).phase with
  | .waking c => (s.toCyc i c).modCore i (fun k => k.select k.lastRun c)
  | _ => s

/-! ### Waits met (R40, R45, R90) -/

/-- A switch whose sample falls in cycle `c` or earlier: a context that becomes ready after `c` has no part in it. -/
def Core.sampleBy (k : Core) (c : Nat) : Core :=
  match k.phase with
  | .switching n x => if x ≤ c then k.select n x else k
  | _ => k

/-- WAIT_AT_TARGET_REACHED: the first core cycle whose edge falls at or after the target.  On a gated or idle core the
next bundle issues in it, or where the core gates at the end of that cycle in the next (R42, R45; DEDUCED, log entry 51);
elsewhere the context is ready from the next cycle (R40).  A context that a loss of QUAL has faulted meanwhile waits
no more (R94, `lossCycle`). -/
def waitAtReached (s : State) (i n : Nat) : State :=
  match (s.ctx i n).mode with
  | .waiting (.at target) =>
    let s1 := s.toCt target
    let c := if target ≤ s1.edgeCt i then s1.cycOf i else s1.cycOf i + 1
    let s2 := s1.toCyc i c
    if (s2.ctx i n).mode ≠ .waiting (.at target) then s2
    else
      let s3 := s2.modCore i (fun k => k.sampleBy c)
      match (s3.core i).power, (s3.core i).phase with
      | .run, .gated | .run, .idle => s3.modCore i (fun k =>
        { k.modCtx n (fun x => { x with mode := .running }) with
          phase := .running n, nextIssue := Nat.max c k.nextIssue, lastRun := n })
      | _, _ => s3.makeReady i n c
  | _ => s

/-- Whether the condition of a wait holds now. -/
def Core.waitMet (k : Core) (n cyc : Nat) : Wait → Bool
  | .queue q m => decide (m ≤ k.tokens q cyc)
  | .flag _ f => k.flag f
  | .region tiles first len => !(k.sbHit tiles first len)
  | .confirm t _ => k.tagDone n t
  | _ => false

/-- The cycle in which a wait is met that is seen to hold at the start of cycle `c`: what entries and streams leave free at the end
of a cycle has met it in that cycle (R61, R62). -/
def Wait.metIn (w : Wait) (c : Nat) : Nat := match w with | .region .. => c - 1 | .confirm .. => c - 1 | _ => c

/-- WAIT_CONDITION_MET: a descheduled context's condition is met in the present cycle t; the context is ready from
t + 1, and a WAIT.F with CLR clears its flag in t + 1 (R40, R90). -/
def waitMetEvent (s : State) (i n : Nat) : State :=
  match (s.ctx i n).mode with
  | .waiting w =>
    let t := s.cycOf i
    if (s.core i).waitMet n t w then
      let s1 := s.makeReady i n (w.metIn t)
      match w with
      | .flag true f => (s1.toCyc i (t + 1)).modCore i (fun k => k.takeFlag f (t + 1))
      | _ => s1
    else s
  | _ => s

/-! ### The instruction cache (R63, R64, R67, R99, R374) -/

/-- ICACHE_MISS: the running context's next bundle lies in a line that is not present (R63, R64). -/
def icacheMiss (s : State) (i n : Nat) : State :=
  let x := s.ctx i n
  let line := x.pc.toNat / 8
  match (s.core i).phase with
  | .running r =>
    if r ≠ n ∨ x.mode ≠ .running ∨ (s.core i).present line then s
    else
      let s1 := s.toCyc i (s.core i).nextIssue
      let s2 := (s1.count48 i 0x10 1).modCore i (fun k =>
        (k.setReg 0x18 (BitVec.ofNat 64 (s1.edgeCt i))).setReg 0x20
          (BitVec.ofNat 64 (x.pc.toNat + n * 2 ^ 32 + x.timed.toNat * 2 ^ 34)))
      let s3 := if x.timed then s2.raiseCore i 2 else s2
      if lastCellarRow < (s3.core i).lineRow line then s3.faultAsync i n fILLEGAL 0
      else
        let s4 := if (s3.core i).filling line then s3 else s3.startFill i line n false
        s4.deschedule i n (s4.cycOf i) (.waiting (.miss line (s4.cycOf i)))
  | _ => s

/-- Contexts that wait for a line, as a miss or within an ICACHE.LOCK. -/
def Core.lineWaiters (k : Core) (line : Nat) : List Nat :=
  [0, 1, 2, 3].filter (fun n => match (k.getCtx n).mode with
    | .waiting (.miss l _) => l == line
    | .waiting (.lock ls) => ls.contains line
    | _ => false)

/-- Whether a context waits within an ICACHE.LOCK that names the line. -/
def Core.lockWaits (k : Core) (line : Nat) : Bool :=
  (k.lineWaiters line).any (fun n => match (k.getCtx n).mode with | .waiting (.lock _) => true | _ => false)

/-- The line has been filled: its waiters go on.  A missing context's bundle issues at least 180 cycles after the miss
(R63). -/
def State.lineFilled (s : State) (i line : Nat) : State :=
  let t := s.cycOf i
  ((s.core i).lineWaiters line).foldl (fun s n =>
    match (s.ctx i n).mode with
    | .waiting (.miss _ since) => (s.makeReady i n t).modCtx i n (fun x => { x with mode := .ready (Nat.max (t + 1) (since + 179)) })
    | .waiting (.lock ls) =>
      let rest := ls.filter (· ≠ line)
      if rest.isEmpty then s.makeReady i n t
      else s.modCtx i n (fun x => { x with mode := .waiting (.lock rest) })
    | _ => s) s

/-- The four bursts of the half row that holds a line are read. -/
def State.lineFree (s : State) (row half : Nat) : Nat :=
  (List.range 4).foldl (fun m j => Nat.max m (s.bankFreeAt (8 * row + 4 * half + j))) 0
def State.readLine (s : State) (row half : Nat) : State × Bool :=
  [0, 1, 2, 3].foldl (fun (a : State × Bool) j =>
    let q := a.1.readBurst (8 * row + 4 * half + j) 0
    (q.1, a.2 && q.2)) (s, true)

/-- ICACHE_FILL_COMPLETE: a line lands 176 cycles or more after its request; a fill without a request credit takes one
first.  An uncorrectable line faults its waiters (R63, R296, R498). -/
def icacheFill (s : State) (i line : Nat) : State :=
  match (s.core i).fills.find? (fun f => f.line == line) with
  | none => s
  | some f =>
    if f.credit = false then
      if 16 ≤ (s.core i).creditsUsed then s
      else (s.modCore i (fun k => { k with
        fills := k.fills.map (fun g => if g.line = line then { g with credit := true, since := s.cycOf i } else g) })).count48 i 0x710 1
    else
      if s.mutes i then s.count32Core i 0xB20 1
      else
      let s1 := s.toCyc i (f.since + 176)
      let row := (s1.core i).lineRow line
      if s1.rowHeld row then s1
      else
        let s0 := s1.toCt (s1.lineFree row (line % 2))
        let p := s0.readLine row (line % 2)
        let s2 := p.1.modCore i (fun k => { k with fills := k.fills.filter (fun g => g.line ≠ line) })
        if p.2 = false then ((s2.core i).lineWaiters line).foldl (fun s n => s.faultAsync i n fCELLARUE 0) s2
        else
          let locks := f.lock || (s2.core i).lockWaits line
          let s3 := s2.modCore i (fun k => k.fillLine line)
          let s4 := if locks then s3.lockLine i line else s3
          s4.lineFilled i line

/-! ### Task commands (R47–R54, R576) -/

/-- Whether a core's logic is powered off: Deep, its entry or a wake from it. -/
def Core.off (k : Core) : Bool :=
  match k.power with | .deep => true | .deepEntry _ => true | .waking d _ _ => d | _ => false

/-- START: a task starts, or is refused where the context holds one, the core is in its reset or bring-up has not ended; in
Deep it is held and wakes the core (R53, R576, R579, R621). No rule says what a START written to a spare does (R17): the model
holds it and wakes the spare, as any core in Deep (DESIGN CHOICE, log entry 120). -/
def startCmd (s : State) (i n : Nat) (entry : W32) : State :=
  let s0 := s.wakeSource i 4
  if s.bootReady = false ∨ s.lcOpen = false then
    if (s.core i).off then s else s.coreEvent i (offStat n) 11
  else if (s0.core i).off then
    if (s0.core i).fuse = .off then s
    else s0.modCore i (fun k => { k with heldStart := k.heldStart.filter (fun h => h.1 ≠ n) ++ [(n, entry)] })
  else if (s0.core i).holdsTask n ∨ s0.ct < (s0.core i).resetEnd then s0.coreEvent i (offStat n) 11
  else s0.startTask i n entry

/-- END: the task stops issuing; its operations stop and are discarded at the clear (R54). -/
def endTask (s : State) (i n : Nat) : State :=
  if (s.core i).off then s
  else
    match (s.ctx i n).mode with
    | .noTask => s
    | .opening u _ => s.modCtx i n (fun x => { x with mode := .opening u true })
    | .closing _ => s
    | .ending _ => s.modCtx i n (fun x => { x with mode := .ending true })
    | _ => s.stopTask i n true

/-- GO: a context at the replay gate is released and its replay counter advances, or the command is refused (R49, R52). -/
def goCmd (s : State) (i n : Nat) : State :=
  if (s.core i).off then s
  else
    match (s.ctx i n).mode with
    | .waiting .replay =>
      let s0 := s.wakeSource i 4
      let v := (s0.core i).fld (offReplay n) 31 0
      let s1 := s0.modCore i (fun k => k.setReg (offReplay n) (BitVec.ofNat 64 ((v + 1) % 2 ^ 32)))
      let s2 := (s1.modCtx i n (fun x => { x with arrived := false })).makeReady i n (s.cycOf i)
      if v + 1 = 2 ^ 32 then (s2.coreEvent i (offStat n) 8).raiseCore i 4 else s2
    | _ => s.coreEvent i (offStat n) 10

/-- A write to a parameter register: accepted at the replay gate or with no task (R47). -/
def paramWrite (s : State) (i n j : Nat) (v : W64) : State :=
  if (s.core i).off then s.event (rPwrStat i) 63
  else
    match (s.ctx i n).mode with
    | .noTask => s.modCore i (fun k => k.setReg (offParam n j) v)
    | .waiting .replay => s.modCore i (fun k => k.setReg (offParam n j) v)
    | _ => s.coreEvent i (offStat n) 9

/-! ### The context clear (R54–R59) -/

/-- The gangs of context `n` dissolve, and its claim of the MVP ends (R111, R154). -/
def Core.freeUnits (k : Core) (n cyc : Nat) : Core :=
  let k1 := { k with gangs := k.gangs.filter (fun g => g.2.ctx ≠ n) }
  if k1.mvp.claim = some n then k1.endClaim cyc else k1

/-- Rows of the context's streams that go to Forager queues are discarded; those toward the home slice still land, for no
context (R288). -/
def Core.orphan (k : Core) (n : Nat) : Core :=
  let orphaned := fun (e : RqEntry) => if e.ctx = n then
      { e with ctx := 4, tag := 0, dead := e.dead || (match e.dest with | .fq _ => true | .home _ => false) } else e
  { k with
    rq := k.rq.map (fun (q : Nat × RQueue) => (q.1, { q.2 with entries := q.2.entries.map orphaned }))
    fwrites := k.fwrites.map (fun w => if w.ctx = n then { w with ctx := 4, tag := 0 } else w) }

/-- The first cycle of the clear that closes a task, in the present cycle. -/
def State.beginClear (s : State) (i n : Nat) : State :=
  let c := s.cycOf i
  let s1 := s.modCore i (fun k =>
    let k1 := ((k.dropOps (fun m _ => m == n)).freeUnits n c).stopStreams n
    let k2 := (((k1.abandon n).orphan n).zeroCtx n).unlist n c
    (k2.closeQueues n true).modCtx n (fun x => { x with mode := .closing (c + 256) }))
  s1.closeWindows i n

/-- Whether step 2 of R54 is done for a TASK.END: entries freed, statuses arrived (R342), and no V.OP of the context in
progress, one into a buffer included (R215). -/
def Core.stepTwo (k : Core) (n : Nat) : Bool :=
  k.sb.all (fun e => e.ctx ≠ n) && k.outstanding n == 0 && (k.svuTail ++ k.svu.toList).all (fun o => o.ctx ≠ n)

/-- CONTEXT_CLEAR_BEGIN: the task has stopped, its entries have freed or its operations are given up, and its streams are
stopped at their row boundary; the clear begins (R54, R55, R56).  A core in Nap has no cycle for it before it wakes (R413). -/
def clearBegin (s : State) (i n : Nat) : State :=
  match (s.ctx i n).mode with
  | .ending abort => if (s.core i).power == .run && (abort || (s.core i).stepTwo n) then s.beginClear i n else s
  | _ => s

/-- CONTEXT_CLEAR_END: after 256 cycles the register clear ends and the background tile clear starts or restarts.  An
opening clear makes the context ready, unless an END came during it; then the closing clear follows at once
(R54, R56, R57, R59). -/
def clearEnd (s : State) (i n : Nat) : State :=
  match (s.core i).power, (s.ctx i n).mode with
  | .run, .opening u stop =>
    let s1 := s.toCyc i u
    if stop then s1.beginClear i n
    else s1.modCore i (fun k =>
      let k1 := (k.sampleBy (u - 1)).addClear (k.tilesOf n) u true
      match k1.phase with
      | .gated | .idle =>
        { k1.modCtx n (fun x => { x with mode := .running }) with
          phase := .running n, nextIssue := Nat.max u k1.nextIssue, lastRun := n }
      | _ => k1.modCtx n (fun x => { x with mode := .ready u }))
  | .run, .closing u => (s.toCyc i u).modCore i (fun k =>
    (k.addClear (k.tilesOf n) u true).modCtx n (fun x => { x with mode := .noTask, faulted := false }))
  | _, _ => s

/-! ### The background tile clear (R57, R58) -/

/-- BACKGROUND_TILE_CLEAR: the lowest tile to be cleared is clear 4 cycles after the clear came to it; a rush that began
meanwhile abandons it. -/
def tileClear (s : State) (i : Nat) : State :=
  let c := (s.core i).clear
  match (s.core i).power, c.todo with
  | .run, t :: rest =>
    let due := c.from_ + 4
    if c.rush.any (fun r => decide (r.2 < due)) then s
    else (s.toCyc i due).modCore i (fun k =>
      { k.zeroTile t with clear := { c with todo := rest, from_ := due, rush := c.rush.filter (fun r => r.1 ≠ t) } })
  | _, _ => s

/-- TILE_RUSH_COMPLETE: the first rushed tile is clear 8 cycles after its stall began, or after the rush before it, and the
interrupted order resumes. -/
def tileRushDone (s : State) (i : Nat) : State :=
  let c := (s.core i).clear
  match c.rush with
  | [] => s
  | (t, b) :: rest =>
    let due := Nat.max b c.from_ + 8
    (s.toCyc i due).modCore i (fun k =>
      { k.zeroTile t with clear := { c with todo := c.todo.filter (· ≠ t), from_ := due, rush := rest } })

end Sys2Proof.Machine
end

