-- ==== Sys2Proof/Machine/Issue.lean ====
section
/-! DEFINITION.
The issue of a bundle: its slots gathered, judged for faults, stalled, charged and issued (spec 03 R70–R77, R95–R97,
10 R310, R319, 12 R364–R366, R376, R640, R641). -/

namespace Sys2Proof.Machine

/-! ### CMT.ARRIVE (R376) -/

def semCmtArrive : Sem where
  slots := [.x]
  judge b := illegalIf (bits b.op 31 1 != 0) ++ cause b.x.arrived fCOMMITDUP
  stall b := b.k.sb.any (fun e => e.ctx == b.ctx) || b.k.streams.any (fun p => p.2.ctx == b.ctx) ||
    b.k.outstanding b.ctx != 0
  eff b s :=
    let a := (b.core, b.ctx, bit b.op 0, b.cyc)
    let s1 := s.modCtx b.core b.ctx (fun x => { x with arrived := true })
    { s1 with cmt := { s1.cmt with arrivals := s1.cmt.arrivals ++ [a] } }

/-- An instruction that no slot of a bundle holds: those of the Adsiem-S profile (R103). -/
def semAbsent : Sem where
  slots := []

/-- Where a slot instruction is issued, its operand word, and its meaning in a bundle; none for other commands. -/
def slotInstr (i : Instr) : Option (Iss × W32 × Sem) :=
  match i with
  | .nop w op => some (w, op, semNop)
  | .sAdd w op => some (w, op, semSAdd)
  | .sSub w op => some (w, op, semSSub)
  | .sAnd w op => some (w, op, semSAnd)
  | .sOr w op => some (w, op, semSOr)
  | .sXor w op => some (w, op, semSXor)
  | .sShl w op => some (w, op, semSShl)
  | .sShr w op => some (w, op, semSShr)
  | .sSra w op => some (w, op, semSSra)
  | .sMul w op => some (w, op, semSMul)
  | .sMulh w op => some (w, op, semSMulh)
  | .sMin w op => some (w, op, semSMin)
  | .sMax w op => some (w, op, semSMax)
  | .sMinu w op => some (w, op, semSMinu)
  | .sMaxu w op => some (w, op, semSMaxu)
  | .sAddi w op => some (w, op, semSAddi)
  | .sAndi w op => some (w, op, semSAndi)
  | .sOri w op => some (w, op, semSOri)
  | .sXori w op => some (w, op, semSXori)
  | .sShli w op => some (w, op, semSShli)
  | .sShri w op => some (w, op, semSShri)
  | .sSrai w op => some (w, op, semSSrai)
  | .sMuli w op => some (w, op, semSMuli)
  | .sLi w op => some (w, op, semSLi)
  | .sLix w op => some (w, op, semSLix)
  | .sRdct w op => some (w, op, semSRdct)
  | .sRdjt w op => some (w, op, semSRdjt)
  | .sRdcyc w op => some (w, op, semSRdcyc)
  | .sRdrep w op => some (w, op, semSRdrep)
  | .sRdns w op => some (w, op, semSRdns)
  | .sClrns w op => some (w, op, semSClrns)
  | .sRdctx w op => some (w, op, semSRdctx)
  | .cSet w op => some (w, op, semCSet)
  | .cSeti w op => some (w, op, semCSeti)
  | .cStep w op => some (w, op, semCStep)
  | .cRd w op => some (w, op, semCRd)
  | .br w op => some (w, op, semBr)
  | .brC w op => some (w, op, semBrC)
  | .brNc w op => some (w, op, semBrNc)
  | .brR w op => some (w, op, semBrR)
  | .call w op => some (w, op, semCall)
  | .loop w op => some (w, op, semLoop)
  | .waitAt w op => some (w, op, semWaitAt)
  | .waitQ w op => some (w, op, semWaitQ)
  | .waitF w op => some (w, op, semWaitF)
  | .waitSb w op => some (w, op, semWaitSb)
  | .taskStart w op => some (w, op, semTaskStart)
  | .taskEnd w op => some (w, op, semTaskEnd)
  | .replayWait w op => some (w, op, semReplayWait)
  | .icachePreload w op => some (w, op, semIcachePreload)
  | .icacheLock w op => some (w, op, semIcacheLock)
  | .icacheUnlock w op => some (w, op, semIcacheUnlock)
  | .mGang w op => some (w, op, semMGang)
  | .mMask w op => some (w, op, semMMask)
  | .mPass w op => some (w, op, semMPass)
  | .mPassr w op => some (w, op, semMPassr)
  | .mFree w op => some (w, op, semMFree)
  | .tmLd w op => some (w, op, semTmLd)
  | .tmSt w op => some (w, op, semTmSt)
  | .mvCfg w op => some (w, op, semMvCfg)
  | .mvLdv w op => some (w, op, semMvLdv)
  | .mvPass w op => some (w, op, semMvPass)
  | .mvFree w op => some (w, op, semMvFree)
  | .vOp w op => some (w, op, semVOp)
  | .vBld w op => some (w, op, semVBld)
  | .vExt w op => some (w, op, semVExt)
  | .vSeed w op => some (w, op, semVSeed)
  | .epRun w op => some (w, op, semEpRun)
  | .wOpen w op => some (w, op, semWOpen)
  | .wClose w op => some (w, op, semWClose)
  | .fStart w op => some (w, op, semFStart)
  | .fStop w op => some (w, op, semFStop)
  | .fTake w op => some (w, op, semFTake)
  | .spOpen w op => some (w, op, semSpOpen)
  | .confirm w op => some (w, op, semConfirm)
  | .squash w op => some (w, op, semSquash)
  | .spTrain w op => some (w, op, semSpTrain)
  | .put w op => some (w, op, semPut)
  | .putAdd w op => some (w, op, semPutAdd)
  | .get w op => some (w, op, semGet)
  | .xSig w op => some (w, op, semXSig)
  | .xSigr w op => some (w, op, semXSigr)
  | .qSend w op => some (w, op, semQSend)
  | .qPop w op => some (w, op, semQPop)
  | .qSkip w op => some (w, op, semQSkip)
  | .qStat w op => some (w, op, semQStat)
  | .qSstat w op => some (w, op, semQSstat)
  | .cmtArrive w op => some (w, op, semCmtArrive)
  | .sLd8 w op => some (w, op, semAbsent)
  | .sLd16 w op => some (w, op, semAbsent)
  | .sLd32 w op => some (w, op, semAbsent)
  | .sLd64 w op => some (w, op, semAbsent)
  | .sSt8 w op => some (w, op, semAbsent)
  | .sSt16 w op => some (w, op, semAbsent)
  | .sSt32 w op => some (w, op, semAbsent)
  | .sSt64 w op => some (w, op, semAbsent)
  | .sWfe w op => some (w, op, semAbsent)
  | .sRdcsr w op => some (w, op, semAbsent)
  | .sWrcsr w op => some (w, op, semAbsent)
  | .sEret w op => some (w, op, semAbsent)
  | _ => none

/-! ### The bundle -/

/-- One slot of a bundle. -/
structure Part where
  ins : Instr
  slot : Slot
  op : W32
  sem : Sem

/-- The slots gathered for a bundle, the last one given standing where two name one slot, in ascending slot order. -/
def parts (l : List Instr) : List Part :=
  let all := l.filterMap (fun i => match slotInstr i with
    | some (.slot _ _ sl _ _, op, m) => some (⟨i, sl, op, m⟩ : Part)
    | _ => none)
  [Slot.s0, .s1, .m, .v, .f, .x].filterMap (fun sl => (all.filter (fun p => p.slot == sl)).getLast?)

def Part.at (p : Part) (s : State) (i n : Nat) (hdr : W16) : BC := ⟨s, i, n, p.slot, hdr, p.op⟩

def isNop : Instr → Bool
  | .nop .. => true
  | _ => false
def isWaitAt : Instr → Bool
  | .waitAt .. => true
  | _ => false
def isWait : Instr → Bool
  | .waitAt .. | .waitQ .. | .waitF .. | .waitSb .. => true
  | _ => false
def isReplayWait : Instr → Bool
  | .replayWait .. => true
  | _ => false
/-- Instructions of S0 that a bundle with SPEC not zero may not hold (R319). -/
def specClosed : Instr → Bool
  | .taskStart .. | .taskEnd .. | .replayWait .. | .icachePreload .. | .icacheLock .. | .icacheUnlock .. => true
  | .spOpen .. | .confirm .. | .squash .. | .spTrain .. => true
  | _ => false

/-- Registers of a slot that are still pending in cycle `c` (R80). -/
def Part.pendingRegs (p : Part) (x : Ctx) (c : Nat) : List Nat :=
  ((p.sem.reads p.op).filter (· < 32)).filter (fun r => decide (c < Tab.get 0 x.late r))

def Part.destReg (p : Part) : Option Nat := match p.sem.dest p.op with | some (.reg r) => some r | _ => none

/-- The cycle from which a bundle's registers are all written. -/
def lateUntil (x : Ctx) (ps : List Part) : Nat :=
  (ps.flatMap (fun p => ((p.sem.reads p.op).filter (· < 32)) ++ p.destReg.toList)).foldl
    (fun m r => Nat.max m (Tab.get 0 x.late r)) 0

/-- The fault causes of one slot. -/
def Part.causes (p : Part) (b : BC) : List Nat :=
  if p.sem.slots.contains p.slot = false then [fILLEGAL]
  else p.sem.judge b ++ (if (p.pendingRegs b.x b.cyc).isEmpty then p.sem.judgeV b else []) ++
    cause (b.tag != 0 && ((p.slot == .x && !isNop p.ins) || specClosed p.ins)) fSPECLEAK

/-- Whether two slots name the same destination. -/
def sameDest (ps : List Part) (a b : Slot) : Bool :=
  match ps.find? (fun p => p.slot == a), ps.find? (fun p => p.slot == b) with
  | some p, some q => match p.sem.dest p.op, q.sem.dest q.op with
    | some d, some e => d == e
    | _, _ => false
  | _, _ => false

/-- Causes of the header and of pairs of slots, with the slot R641 names. -/
def bundleCauses (x : Ctx) (hdr : W16) (ps : List Part) : List (Nat × Nat) :=
  let tag := bits hdr 12 10
  let timed := bit hdr 14
  (cause (bit hdr 13) fILLEGAL ++
    cause (timed && (x.fresh || !x.timed) && !(ps.any (fun p => p.slot == .x && isWaitAt p.ins))) fTIMEDENTRY ++
    cause (tag != 0 && (x.getTag tag).st != 1) fSPECSTATE ++ cause (tag != 0 && timed) fSPECLEAK).map (·, 0) ++
  (cause (sameDest ps .s0 .s1) fILLEGAL).map (·, 2) ++
  (cause (sameDest ps .s0 .x || sameDest ps .s1 .x ||
    (ps.any (fun p => isReplayWait p.ins) && ps.any (fun p => p.slot == .x && isWait p.ins))) fILLEGAL).map (·, 6)

/-- Every cause of a bundle. -/
def allCauses (s : State) (i n : Nat) (hdr : W16) (ps : List Part) : List (Nat × Nat) :=
  bundleCauses (s.ctx i n) hdr ps ++ ps.flatMap (fun p => (p.causes (p.at s i n hdr)).map (·, p.slot.number))

/-- The recorded cause (R371, R641): the lowest code, then the lowest slot. -/
def recorded (l : List (Nat × Nat)) : Option (Nat × Nat) :=
  l.foldl (fun best c => match best with
    | none => some c
    | some b => if c.1 < b.1 ∨ (c.1 = b.1 ∧ c.2 < b.2) then some c else some b) none

/-! ### Heavy-unit tokens (R72, R364–R366) -/

/-- Tokens a bundle charges: the bits set in PCLASS. -/
def tokensOf (hdr : W16) : Nat := ((List.range 10).filter (fun j => bit hdr j)).length

/-- B_d in force. -/
def State.budget (s : State) (d : Nat) : Nat := s.fld (blkPWR + 0x100 + 0x20 * d) 49 32
/-- Tokens charged on die d in window w. -/
def State.charged (s : State) (d w : Nat) : Nat := Tab.get 0 s.charges (4 * w + d)

/-- A bundle of die d stalls in window w: the window is an overrun, counted once (R366). -/
def State.overrun (s : State) (d w : Nat) : State :=
  let at_ := blkPWR + 0x110 + 0x20 * d
  if Tab.find s.overruns d = some w then s
  else
    let s1 := { s with overruns := Tab.put s.overruns d w }
    ((s1.countMod 48 63 (at_ - 8) 1).setReg at_ (BitVec.ofNat 64 w)).raiseKeep 10

/-! ### Issue -/

/-- The active loop whose body ends at `pc` (R84). -/
def Ctx.loopAt (x : Ctx) (pc : W32) : Option Nat :=
  (List.range 8).find? (fun j => x.creg j ≠ 0 && (Tab.get ⟨0, 0⟩ x.loops j).last == pc)

/-- The program counter after a bundle at `pc`: the branch taken, a loop's end action, or the next bundle (R83–R87). -/
def Ctx.follow (x : Ctx) (pc : W32) (jump : Option (W32 × Nat)) : Ctx :=
  match jump with
  | some (t, _) => { x with pc := t }
  | none =>
    match x.loopAt pc with
    | none => { x with pc := pc + 1 }
    | some j =>
      if x.creg j = 1 then { x.setCreg j 0 with pc := pc + 1 }
      else { x.setCreg j (x.creg j - 1) with pc := (Tab.get ⟨0, 0⟩ x.loops j).start }

/-- The start of an issue in the present cycle: the tokens are charged (R365), the bundle's line counts as used, and the bundle
has become the context's last. -/
def State.bundleBegin (s : State) (i n : Nat) (hdr : W16) : State :=
  let c := s.cycOf i
  let pc := (s.ctx i n).pc
  let t := tokensOf hdr
  let key := 4 * (c / 256) + dieOf i
  let s1 := if t = 0 then s else { s with charges := Tab.put s.charges key (s.charged (dieOf i) (c / 256) + t) }
  s1.modCore i (fun k =>
    let k1 := (k.useLine (pc.toNat / 8)).modCtx n (fun x =>
      { x with last := pc, timed := bit hdr 14, fresh := false, gather := [], gone := [] })
    { k1 with nextIssue := c + 1 })

/-- The end of the issue of the bundle at `pc` in cycle `c`: the program counter goes on, a taken branch costs its bubble, and
the next line is prefetched unless STOP forbids it (R63, R83). -/
def State.bundleEnd (s : State) (i n : Nat) (hdr : W16) (c : Nat) (pc : W32) (jump : Option (W32 × Nat)) : State :=
  let s4 := s.modCore i (fun k =>
    let k1 := k.modCtx n (fun x => x.follow pc jump)
    { k1 with nextIssue := Nat.max k1.nextIssue (c + 1 + (match jump with | some (_, b) => b | none => 0)) })
  let line := pc.toNat / 8 + 1
  let k := s4.core i
  if bit hdr 15 || k.present line || k.filling line || decide (lastCellarRow < k.lineRow line) then s4
  else s4.startFill i line 4 false

/-- A bundle issues in the present cycle: its slots take effect, and the context goes on. -/
def State.issueBundle (s : State) (i n : Nat) (hdr : W16) (ps : List Part) : State :=
  let s3 := ps.foldl (fun a p => p.sem.eff (p.at s i n hdr) a) (s.bundleBegin i n hdr)
  let jump := ps.findSome? (fun p => if p.slot = .s0 then p.sem.jump (p.at s i n hdr) else none)
  s3.bundleEnd i n hdr (s.cycOf i) (s.ctx i n).pc jump

/-- The slots of a bundle that go ahead: of its M, V, F and X slots in that order, those before the first that what they take
in this cycle makes stall; none where all can issue together (R62, R144, R237; log entry 114). -/
def goAhead (s : State) (i n : Nat) (hdr : W16) : List Part → State → List Slot → Option (State × List Slot)
  | [], _, _ => none
  | p :: r, a, done =>
    if p.sem.stall (p.at a i n hdr) then some (a, done)
    else goAhead s i n hdr r (p.sem.eff (p.at s i n hdr) a) (done ++ [p.slot])

/-- The slots that hold units. -/
def Part.unit (p : Part) : Bool := p.slot == .m || p.slot == .v || p.slot == .f || p.slot == .x

/-- The bundle stalls in the present cycle, and is presented again in the next (R640). -/
def State.stallOn (s : State) (i : Nat) : State := s.modCore i (fun k => { k with nextIssue := s.cycOf i + 1 })

/-- A fault of the bundle that is presented: nothing of it issues (R77). -/
def State.bundleFault (s : State) (i n : Nat) (q : Nat × Nat) : State :=
  let s1 := if q.1 = fXFERNACK then s.modCore i (fun k => k.setFld (offXstat n) 11 8 8) else s
  (s1.modCtx i n (fun y => { y with gather := [], gone := [] })).faultCtx i n q.1 (faultAt (s.ctx i n).pc q.2 false false 0)

/-- The parts of a bundle that have not issued ahead. -/
def Ctx.left (x : Ctx) (ps : List Part) : List Part := ps.filter (fun p => !x.gone.contains p.slot)

/-- Whether a bundle waits in the present cycle: for a register (R80), or for what a slot needs. -/
def State.waits (s : State) (i n : Nat) (hdr : W16) (ps : List Part) : Bool :=
  decide (s.cycOf i < lateUntil (s.ctx i n) ps) || ps.any (fun p => p.sem.stall (p.at s i n hdr))

/-- Whether the context's next bundle can be presented: it runs, its line is present, and no confirmation of it waits to
begin. -/
def State.canIssue (s : State) (i n : Nat) : Bool :=
  let k := s.core i
  let x := k.getCtx n
  k.runningCtx == some n && x.mode == .running && k.power == .run && k.present (x.pc.toNat / 8) && x.confirmPending.isNone

/-- The bundle that the queue gives core `j` next, before any command that is no slot of a bundle: its context, header and slots. -/
def State.queued (s : State) (j : Nat) : Option (Nat × W16 × List Part) :=
  let slots := s.pending.map (fun ins => (ins, match slotInstr ins with
    | some (.slot k n _ hdr more, _, _) => some (k.val, n.val, hdr, more)
    | _ => none))
  let mine := (slots.takeWhile (fun p => p.2.isSome)).filterMap (fun p => match p.2 with
    | some (k, n, hdr, more) => if k = j then some (p.1, n, hdr, more) else none
    | none => none)
  match mine.find? (fun q => !q.2.2.2) with
  | some (last, n, hdr, _) =>
    let before := (mine.takeWhile (fun q => q.2.2.2)).map (·.1)
    let x := s.ctx j n
    some (n, hdr, x.left (parts (x.gather ++ before ++ [last])))
  | none => none

/-- The tokens that core `j`, about to issue in its present cycle the bundle that the queue gives it, asks of the power unit: none
where its bundle does not issue in this cycle (R365). -/
def State.asksTokens (s : State) (j : Nat) : Nat :=
  match s.queued j with
  | some (n, hdr, ps) =>
    if s.canIssue j n && decide ((s.core j).nextIssue ≤ s.cycOf j) && (allCauses s j n hdr ps).isEmpty && !(s.waits j n hdr ps) &&
      (match (s.core j).budStall with | some e => decide (e ≤ s.cycOf j) | none => true) then tokensOf hdr else 0
  | none => 0

/-- Whether a bundle of `t` tokens on core `i` is charged in the present cycle: the cores of the die that are about to issue with it
are considered in ascending position (R365). -/
def State.charges_ (s : State) (i t : Nat) : Bool :=
  let b := s.budget (dieOf i)
  let before := ((List.range 80).map (fun p => 80 * dieOf i + p)).filter (fun j => decide (j < i))
  let sum := before.foldl (fun m j => let a := s.asksTokens j; if m + a ≤ b then m + a else m)
    (s.charged (dieOf i) (s.cycOf i / 256))
  decide (sum + t ≤ b)

/-- The first cycle of the window after that of cycle `c`. -/
def nextWindow (c : Nat) : Nat := 256 * (c / 256 + 1)

/-- Whether a bundle with tokens still waits for the window in which it is considered again. -/
def Core.budgetWaits (k : Core) (c : Nat) : Bool := match k.budStall with | some e => decide (c < e) | none => false

/-- A bundle that waits for nothing else is presented to the power unit, and where it is charged it issues (R365, R366). -/
def State.presentPower (s : State) (i n : Nat) (hdr : W16) (ps : List Part) : State :=
  let c := s.cycOf i
  let t := tokensOf hdr
  if t ≠ 0 ∧ (s.core i).budgetWaits c = true then s.stallOn i
  else if t ≠ 0 ∧ s.charges_ i t = false then
    ((s.overrun (dieOf i) (c / 256)).modCore i (fun k => { k with budStall := some (nextWindow c) })).stallOn i
  else
    match goAhead s i n hdr (ps.filter Part.unit) s [] with
    | some (s1, done) => (s1.modCtx i n (fun y => { y with gone := y.gone ++ done })).stallOn i
    | none => s.issueBundle i n hdr ps

/-- The bundle of context n of core i is presented to issue in the present cycle. Fault causes come before every stall (R640).
WAIT.AT's WAIT_LATE leaves the bundle's other slots their effect where the bundle would issue in this cycle; it takes no token
(R93). -/
def State.present (s : State) (i n : Nat) (hdr : W16) (all : List Part) : State :=
  let x := s.ctx i n
  let ps := x.left all
  let causes := allCauses s i n hdr ps
  let waits := s.waits i n hdr ps
  match recorded causes with
  | some q =>
    if waits || causes.any (fun r => r.1 ≠ fWAITLATE) then s.bundleFault i n q
    else (s.issueBundle i n (hdr &&& 0xFC00) ps).faultCtx i n q.1 (faultAt x.pc q.2 false false 0)
  | none =>
    if waits then (ps.filter (fun p => p.sem.stall (p.at s i n hdr))).foldl (fun a p => p.sem.onStall (p.at s i n hdr) a) (s.stallOn i)
    else s.presentPower i n hdr ps

/-- A slot instruction of a bundle: gathered while more slots of the bundle follow, and with the last one the bundle is
presented to issue in the first cycle in which it may be.  A bundle that stalls stays gathered, and its last slot is
given again. -/
def State.issueSlot (s : State) (i n : Nat) (hdr : W16) (more : Bool) (ins : Instr) : State :=
  if more then s.modCtx i n (fun x => { x with gather := x.gather ++ [ins] })
  else if s.canIssue i n then
    let x := s.ctx i n
    (s.toCyc i (s.core i).nextIssue).present i n hdr (parts (x.gather ++ [ins]))
  else s

end Sys2Proof.Machine
end

