-- ==== Sys2Proof/Machine/Power.lean ====
section
/-! DEFINITION.
Power states of the cores, wakes, the cap, die budgets and the emergency throttle (spec 21). -/

namespace Sys2Proof.Machine

def rPwrStatM : Nat := blkPWR + 0x8
def rThrat : Nat := blkPWR + 0x10
def rBudget (d : Nat) : Nat := blkPWR + 0x100 + 0x20 * d
def rLastWake (d : Nat) : Nat := blkPWR + 0x118 + 0x20 * d
def rTimer (i : Nat) : Nat := blkPWR + 0x20000 + 8 * i

/-! ### Entering Nap and Deep (R574–R578) -/

/-- Whether no unit of the core has work in flight. -/
def Core.unitsIdle (k : Core) : Bool :=
  k.gangs.all (fun g => !g.2.busy) && k.move.isNone && k.mvp.load.isNone && k.mvp.passes.isEmpty && k.mvp.clearEnd.isNone &&
  k.svu.isNone && k.svuTail.isEmpty && k.bld.isNone && k.ep.isNone && k.epTail.isEmpty && k.wport.isNone && k.fwrites.isEmpty &&
  k.sends.isEmpty && k.hout.isEmpty

/-- Whether a context with a task waits where Nap allows it, at canopy time `t` (R574). -/
def napWait (t : Nat) : CtxMode → Bool
  | .noTask => true
  | .waiting (.flag ..) => true
  | .waiting .replay => true
  | .waiting (.at target) => decide (t + 30000 < target)
  | _ => false

/-- The conditions of R574 for NAP. -/
def State.napOk (s : State) (i : Nat) : Bool :=
  let k := s.core i
  k.power == .run && k.phase == .gated && k.unitsIdle && k.streams.isEmpty && k.sb.isEmpty && k.creditsUsed == 0 &&
  k.xfers.isEmpty && [0, 1, 2, 3].all (fun n => napWait s.ct (k.getCtx n).mode)

/-- The conditions for DEEP. -/
def State.deepOk (s : State) (i : Nat) : Bool :=
  s.napOk i && !(s.core i).anyTask && (s.core i).clear.todo.isEmpty

/-- Whether a CORE register is on the service-bus side, in the wake block or at the router, and keeps its value in Deep:
TILES, the router's counters, the sync flags, WQOWN, GHOST, FENCE, FLAGOWN, IMAGE and the slice registers (R573). -/
def keepsInDeep (off : Nat) : Bool :=
  (decide (0x118 ≤ off) && decide (off < 0x180) && off % 0x20 == 0x18) || off == 0xB00 || off == 0xB08 || off == 0xB10 ||
  off == 0xB18 || off == 0xB20 || off == 0xB28 || (decide (0xB40 ≤ off) && decide (off < 0xB60)) || off == 0xD48 || decide (0x8000 ≤ off)

/-- Whether a CORE register is served in Deep: it keeps its value, or is one of those of sync flags, transfers and waggle queues,
which stay accessible on a fenced or spare position (R361; log entry 121). -/
def servedInDeep (off : Nat) : Bool :=
  keepsInDeep off || (decide (0xB60 ≤ off) && decide (off < 0xB80)) || (decide (0xC00 ≤ off) && decide (off < 0xC80)) ||
  (decide (0x5000 ≤ off) && decide (off < 0x5400))

/-- The registers of a core as Deep leaves them (R573). -/
def Core.lostRegs (k : Core) : Tab W64 := k.regs.filter (fun p => keepsInDeep p.1)

/-- The state a core keeps through Deep (R573): its slice, its waggle store, its router and the registers of
`keepsInDeep`. -/
def Core.deepZero (k : Core) : Core :=
  { regs := k.lostRegs, phase := .gated, nextIssue := k.nextIssue, nextId := k.nextId
    rbuf := k.rbuf, records := k.records, wins := k.wins, hold := k.hold, waggle := k.waggle, rowMap := k.rowMap
    spareUsed := k.spareUsed, dead := k.dead, defects := k.defects, rewrites := k.rewrites, scrubAt := k.scrubAt
    repair := k.repair, copy := k.copy, fuse := k.fuse, power := k.power, array := k.array, wakeDue := k.wakeDue
    wakeAt := k.wakeAt, heldStart := k.heldStart, wcount := k.wcount, rport := k.rport, wq := k.wq
    portBank := k.portBank, winsWas := k.winsWas, seqNext := k.seqNext, scrubbing := k.scrubbing, flagMark := k.flagMark, resetEnd := k.resetEnd }

/-- An entry begins: its arrays go into retention, its ready signals fall, and CORE.CYCLE keeps the number of the last edge
(R413, R575, R578, R580). -/
def State.enter (s : State) (i : Nat) (deep : Bool) : State :=
  let s0 := s.setFld (rPwrStat i) 12 8 (if deep then 0 else s.fld (rPwrStat i) 12 8 &&& 17)
  s0.modCore i (fun k =>
    let k1 := { k.setReg 0x8 (BitVec.ofNat 64 (s.cycOf i)) with array := some 0, wakeDue := none }
    if deep then { k1.deepZero with power := .deepEntry (s.ct + 50000) } else { k1 with power := .napEntry (s.ct + 10000) })

/-- A write to PWR.COREi.CTL (R574, R579): from inputs 1 to 18. -/
def pwrCtl (s : State) (inp i : Nat) (v : W64) : State :=
  if inp = 0 then s
  else
    let s1 := s.setReg (rPwrCtl i) (v &&& 0xFF78)
    match bits v 1 0 with
    | 1 => if s1.napOk i then s1.enter i false else s1.event (rPwrStat i) 63
    | 2 => if s1.deepOk i then s1.enter i true else s1.event (rPwrStat i) 63
    | 3 => if (s1.core i).fuse = .off then s1 else s1.wakeSource i 4
    | _ => s1

/-- ENTRY_COMPLETE: the entry into Nap or Deep ends (R575, R583). -/
def entryComplete (s : State) (i : Nat) : State :=
  match (s.core i).power with
  | .napEntry t => (s.toCt t).modCore i (fun k => { k with
      power := .nap, wakeDue := k.wakeDue.map (fun w => (w.1, Nat.max w.2 t)) })
  | .deepEntry t => (s.toCt t).modCore i (fun k => { k with
      power := .deep, wakeDue := k.wakeDue.map (fun w => (w.1, Nat.max w.2 t)) })
  | _ => s

/-! ### Waking (R579–R585) -/

/-- CORE_WAKE: the wake of a core in Nap or Deep begins, at the instant its source arrived or its entry ended. -/
def coreWake (s : State) (i source : Nat) : State :=
  let k := s.core i
  match k.power, k.wakeDue with
  | .nap, some (c, t) =>
    if c = source then s.setCore i { k with power := .waking false 1 c, wakeAt := t, wakeDue := none } else s
  | .deep, some (c, t) =>
    if c = source then s.setCore i { k with power := .waking true 1 c, wakeAt := t, wakeDue := none } else s
  | _, _ => s

/-- The instants at which a timer wakes core i: TIMER, and in Nap the lead of R582 before each WAIT.AT. -/
def State.timers (s : State) (i : Nat) : List Nat :=
  let t := (s.reg (rTimer i)).toNat
  let k := s.core i
  let own := if t = 0 then [] else [t]
  match k.power with
  | .nap | .napEntry _ => own ++ [0, 1, 2, 3].filterMap (fun n => match (k.getCtx n).mode with
      | .waiting (.at target) => some (target - (20000 + 8 * s.period))
      | _ => none)
  | _ => own

/-- TIMER_WAKE: canopy time reaches the earliest timer of the core, a wake source (R579 code 5, R582). -/
def timerWake (s : State) (i : Nat) : State :=
  match s.timers i with
  | [] => s
  | t :: r => (s.toCt (r.foldl Nat.min t)).wakeSource i 5

/-- The nominal time of a wake step, in ct, and the ready signals it asserts in STAT.READY (R580). -/
def wakeStep (deep : Bool) (step : Nat) : Nat × Nat :=
  match deep, step with
  | false, 1 => (15000, 6)
  | false, _ => (5000, 8)
  | true, 1 => (60000, 1)
  | true, 2 => (30000, 8)
  | true, 3 => (40000, 4)
  | true, _ => (20000, 16)

def wakeSteps (deep : Bool) : Nat := if deep then 4 else 2

/-- A completed wake is counted and recorded; of two cores of a die that wake at one edge the higher position is kept (R585). -/
def State.countWake (s : State) (i source : Nat) : State :=
  let v := s.reg (rPwrStat i)
  let s1 := s.setReg (rPwrStat i) (setBits (plainCount 47 32 1 v) 18 16 source)
  let d := rLastWake (dieOf i)
  let w := plainCount 63 32 1 (s1.reg d)
  let last := if Tab.find s.wokeAt (dieOf i) = some s.ct ∧ posOf i < bits w 6 0 then bits w 10 0 else source * 2 ^ 8 + posOf i
  { s1.setReg d (BitVec.ofNat 64 (bits w 63 32 * 2 ^ 32 + last)) with wokeAt := Tab.put s.wokeAt (dieOf i) s.ct }

/-- A context clear that began while the core placed no edges runs from cycle `c` on (R56). -/
def Ctx.clearFrom (x : Ctx) (c : Nat) : Ctx :=
  { x with mode := match x.mode with | .opening _ e => .opening (c + 256) e | .closing _ => .closing (c + 256) | m => m }

/-- The first edge of a core that has woken falls on the present target edge (R413, R581): after Nap a context whose wait
is met issues 4 cycles on, and clears go on that stood still; after Deep what Deep loses is zero and a held START is performed. -/
def State.firstEdge (s : State) (i source : Nat) (deep : Bool) : State :=
  let s0 := if s.ct = s.lastEdge then s else s.toCt s.nextEdge
  let c := s0.cyc
  let g0 : Glade := Tab.get {} s0.glades i
  let g1 : Glade := { g0 with lam := 0, str := g0.alarm, run := 0, now := false, slow := true, behind := 0 }
  let s0 := { s0 with glades := Tab.put s0.glades i g1 }
  let s1 := (s0.countWake i source).modCore i (fun k =>
    let any := [0, 1, 2, 3].any (fun n => match (k.getCtx n).mode with | .ready _ => true | _ => false)
    let done := (k.reg 0x8).toNat - k.clear.from_
    { k with
      power := .run, phase := if any then .waking (c + 3) else .gated, nextIssue := c
      regs := if deep then k.lostRegs else k.regs
      clear := { k.clear with from_ := c - done }, ctx := k.ctx.map (fun x => (x.1, x.2.clearFrom c)) })
  if deep then
    let held := (s1.core i).heldStart
    held.foldl (fun s h =>
      if (s.core i).holdsTask h.1 then s.coreEvent i (offStat h.1) 11 else s.startTask i h.1 h.2)
      (s1.modCore i (fun k => { k with heldStart := [] }))
  else s1

/-- WAKE_STEP_READY: the ready signals of a wake's present step assert, and the next step begins; with the last one the
core places its first edge, unless the throttle holds it (R580, R581, R592). -/
def wakeReady (s : State) (i : Nat) : State :=
  match (s.core i).power with
  | .waking deep step source =>
    let p := wakeStep deep step
    let t := (s.core i).wakeAt + p.1
    let s1 := s.toCt t
    let s2 := s1.setReg (rPwrStat i) (s1.reg (rPwrStat i) ||| BitVec.ofNat 64 (p.2 * 2 ^ 8))
    let s3 := s2.modCore i (fun k => { k with
      array := if p.2 &&& 4 ≠ 0 then none else k.array, power := .waking deep (step + 1) source, wakeAt := t })
    if step < wakeSteps deep then s3
    else if s3.flag rPwrStatM 0 then s3
    else s3.firstEdge i source deep
  | _ => s

/-- WAKEFAIL: a ready signal has not asserted within twice its nominal time; the core stays in its low state and its
contexts go on waiting, so that a running step is not ready at its deadline (R584, R482). -/
def wakeFail (s : State) (i : Nat) : State :=
  match (s.core i).power with
  | .waking deep step _ =>
    if wakeSteps deep < step then s
    else
      let s1 := (s.toCt ((s.core i).wakeAt + 2 * (wakeStep deep step).1)).event (rPwrStat i) 62
      s1.modCore i (fun k => { k with power := if deep then .deep else .nap })
  | _ => s

/-- ARRAY_READY: the arrays of a slice in retention are active, 1.5 µs after the access that woke them (R578). -/
def arrayReady (s : State) (i : Nat) : State :=
  match (s.core i).array with
  | some (t + 1) => (s.toCt (t + 1)).modCore i (fun k => { k with array := none })
  | _ => s

/-! ### The cap, budgets and windows (R364–R367, R586, R587) -/

/-- A write to PWR.CAP (R586): from the active Keeper, stored within 32 to 64 steps. -/
def capWrite (s : State) (v : W64) : State :=
  s.setReg blkPWR (BitVec.ofNat 64 (Nat.max 32 (Nat.min 64 (bits v 6 0))))

/-- A write to PWR.DIEd.BUDGET (R587): clamped, and pending. -/
def budgetWrite (s : State) (d : Nat) (v : W64) : State :=
  let b := Nat.max 720 (Nat.min 184320 (bits v 17 0))
  (s.setFld (rBudget d) 17 0 b).setFld (rBudget d) 31 31 1

/-- BUDGET_TAKES_EFFECT: the pending budget is in force from the first window that begins inside a clearing (R367). -/
def budgetEffect (s : State) (d : Nat) : State :=
  if s.flag (rBudget d) 31 = false then s
  else
    let w := s.cyc / 256 + 1
    let t := s.edgeOf (256 * w)
    let begin_ := (s.reg rClrBegin).toNat
    let w2 := if begin_ ≤ t ∨ s.flag rTstat 3 = false then w else (s.cyc + s.edgesTo (begin_ - 1) + 256) / 256
    let t2 := s.edgeOf (256 * w2)
    if s.inClearingAt t2 then
      let s1 := s.toCt t2
      (s1.setFld (rBudget d) 49 32 (s1.fld (rBudget d) 17 0)).setFld (rBudget d) 31 31 0
    else s

/-- BUDGET_WINDOW: the die's next window of 256 cycles begins; the counts of windows gone by are dropped (R364). -/
def budgetWindow (s : State) (d : Nat) : State :=
  let w := s.cyc / 256 + 1
  let s1 := s.toCt (s.edgeOf (256 * w))
  { s1 with charges := s1.charges.filter (fun p => p.1 % 4 ≠ d || decide (w ≤ p.1 / 4 + 1)) }

/-! ### The emergency throttle (R589–R592) -/

/-- CAP in watts. -/
def State.cap (s : State) : Nat := 50 * s.fld blkPWR 6 0

/-- POWER_AVERAGE: the monitor's average of 1 µs of canopy time; consecutive averages above 1.05 × CAP and at or below CAP
are counted (R589, R591). -/
def powerAverage (s : State) (w : Nat) : State :=
  let s1 := (s.toCt (nextMultiple ctPerUs (s.ct + 1))).setFld rPwrStatM 31 16 w
  { s1 with
    monOver := if 105 * s.cap < 100 * w then s1.monOver + 1 else 0
    monUnder := if w ≤ s.cap then s1.monUnder + 1 else 0 }

/-- THROTTLE_TRIP: the 11th consecutive average above 1.05 × CAP (R589). -/
def throttleTrip (s : State) : State :=
  if s.monOver < 11 ∨ s.flag rPwrStatM 0 then s
  else
    let v := plainCount 47 32 1 (s.reg rPwrStatM)
    let s1 := (s.setReg rPwrStatM (setBit (setBit v 0 true) 63 true)).mark rPwrStatM 63
    ((s1.setReg rThrat (BitVec.ofNat 64 s.ct)).raiseKeep 11).failStep 12

/-- A compute glade raises LAG (R407, R414). -/
def State.raiseLag (s : State) (g : Nat) : State :=
  let off := blkCLK + 0x10000 + 8 * g
  let v := setBit (plainCount 47 32 1 (s.reg off)) 63 true
  let x : Glade := Tab.get {} s.glades g
  let s1 := { (s.setReg off v).mark off 63 with glades := Tab.put s.glades g { x with now := true, due := false } }
  if g < 320 then s1.raiseCore g 6
  else if g < 640 then s1.raiseCore (g - 320) 6
  else if g < 644 then s1.raise (g - 640) 640
  else if g < 652 then s1.raise ((g - 644) / 2) (641 + (g - 644) % 2)
  else s1.raiseKeep 9

/-- The compute glades of R400: cores, slices and fabrics. -/
def computeGlades : List Nat := List.range 644

/-- THROTTLE_START: from the first multiple of 240 ct after the trip every compute glade runs at twice its period and raises
LAG (R590, R414). -/
def throttleStart (s : State) : State :=
  if s.flag rPwrStatM 0 = false ∨ s.throttled then s
  else
    let t := nextMultiple 240 ((s.reg rThrat).toNat + 1)
    let s1 := s.toCt t
    let s2 := { s1 with throttled := true, thrBase := (s1.lastEdge, s1.cyc), nextEdge := s1.lastEdge + 2 * s1.period }
    (computeGlades.filter s2.gladeRuns).foldl (fun s g => s.raiseLag g) s2

/-- THROTTLE_END: 100 consecutive averages at or below CAP; the end's time is noted (R591). -/
def throttleEnd (s : State) : State :=
  if s.flag rPwrStatM 0 ∧ 100 ≤ s.monUnder then { s.clrFlag rPwrStatM 0 with thrEnd := s.ct } else s

/-- The edge at which the compute glades resume stands at `e` and carries cycle number `c`; λ becomes 0 in those that run (R414,
R417, R430). -/
def State.regrid (s : State) (e c : Nat) : State :=
  { s with
    cyc := c - 1, nextEdge := e, glades := s.glades.map (fun p =>
      (p.1, if p.1 < 644 ∧ s.gladeRuns p.1 then { p.2 with lam := 0, str := p.2.alarm, run := 0, now := false, due := false, behind := 0 } else p.2)) }

/-- A core whose wake has had its last step places its first edge once the throttle ends (R592). -/
def State.resumeWake (s : State) (i : Nat) (p : Power) : State :=
  match p with
  | .waking deep step src => if wakeSteps deep < step then s.firstEdge i src deep else s
  | _ => s

/-- GLADE_RESUME: after a throttle the compute glades hold from the first multiple of 240 ct to the next target edge at
least 640 ct later, and resume there; cores whose wake waited place their edge with them (R414, R592). -/
def gladeResume (s : State) : State :=
  if s.throttled = false ∨ s.flag rPwrStatM 0 then s
  else
    let h := nextMultiple 240 s.thrEnd
    let s1 := s.toCt h
    let p := periodOf s1.point
    let e := nextMultiple p (h + 640)
    let s2 := (({ s1 with throttled := false }).regrid e (s1.thrBase.2 + (e - s1.thrBase.1) / p)).toCt e
    s2.cores.foldl (fun s q => s.resumeWake q.1 q.2.power) s2

end Sys2Proof.Machine
end

