-- ==== Sys2Proof/Machine/Clock.lean ====
section
/-! DEFINITION.
Glades, operating points and the time unit (spec 14), with the registers a program writes to them. -/

namespace Sys2Proof.Machine

def rTctl : Nat := blkCLK + 0x10
def rTseed : Nat := blkCLK + 0x18
def rToffset : Nat := blkCLK + 0x20
def rJobEpoch : Nat := blkCLK + 0x28
def rOpreq : Nat := blkCLK + 0x30
def rOptime : Nat := blkCLK + 0x38
def rGctl : Nat := blkCLK + 0x50

def State.modGlade (s : State) (g : Nat) (f : Glade → Glade) : State :=
  { s with glades := Tab.put s.glades g (f (Tab.get {} s.glades g)) }

/-! ### Stretch, repay and lag (R404–R408) -/

/-- DROOP_ALARM: the level of the alarm covering glade g, 0 where it is withdrawn (R404). -/
def droopAlarm (s : State) (g level : Nat) : State := s.modGlade g (fun x => { x with alarm := level })

/-- REPAY: glade g's next actual edge; the period before it stretches or repays as `State.toCt` has it (R405).  A glade whose
generator stands has none. -/
def repayEdge (s : State) (g : Nat) : State :=
  if s.gladeRuns g then s.toCt (s.gladeEdgeAt g (Tab.get {} s.glades g)) else s

/-- LAG: the condition of R407 has arisen in glade g and has not been raised. -/
def lagRaise (s : State) (g : Nat) : State :=
  let x : Glade := Tab.get {} s.glades g
  if x.due && !x.now then (s.raiseLag g).modGlade g (fun y => { y with now := decide (y.lam ≠ 0) }) else s

/-- A write to CLK.GCTL (R428): a written 0 is stored as 1 and a written 3 as 2, and it ends the limit of R408. -/
def gctlWrite (s : State) (v : W64) : State :=
  let s1 := s.setReg rGctl (match bits v 1 0 with | 0 => 1 | 1 => 1 | _ => 2)
  { s1 with glades := s1.glades.map (fun p => (p.1, { p.2 with slow := false })) }

/-- CLK.GSTATg as it reads. -/
def gstatRead (s : State) (g : Nat) : W64 :=
  let x : Glade := Tab.get {} s.glades g
  setBits (setBit (s.reg (blkCLK + 0x10000 + 8 * g)) 62 x.now) 15 0 (Nat.min 0xFFFF x.lam)

/-! ### Operating points (R415–R417) -/

/-- OPREQ_WRITE: a write of POINT arms the change, or is refused where it names the point in force with nothing pending;
a 1 in REFUSED clears it (R416). -/
def opreqWrite (s : State) (v : W64) : State :=
  let s0 := if bit v 63 then s.clear rOpreq 63 else s
  if s0.flag rOpreq 8 = false ∧ bits v 1 0 = s0.point then s0.event rOpreq 63
  else
    let s1 := (s0.setFld rOpreq 1 0 (bits v 1 0)).setFlag rOpreq 8
    { s1 with tu := { s1.tu with opAt := s.ct } }

/-- Whether the operating point may change at `t` (R416). -/
def State.opOk (s : State) (t : Nat) : Bool :=
  s.inClearingAt t && (!(s.flag rTstat 3) || decide (t + 648 < (s.reg rClrEnd).toNat))

/-- T_c of R416, if the registers as they stand give one: a time still to come, since the edge of the present one is placed. -/
def State.opTime (s : State) : Option Nat :=
  let t := nextMultiple 240 (Nat.max (Nat.max (s.ct + 1) (s.reg rOptime).toNat) (s.tu.opAt + ctPerUs))
  let u := nextMultiple 240 (s.reg rClrBegin).toNat
  if s.opOk t then some t else if t ≤ u ∧ s.opOk u then some u else none

/-- OPERATING_POINT_CHANGE: at T_c every compute glade leaves out its edge and resumes on the first edge of the new grid at
least 640 ct later (R417).  None takes place while an emergency throttle lasts. -/
def opChange (s : State) : State :=
  match s.opTime with
  | none => s
  | some t =>
    if s.flag rOpreq 8 = false ∨ s.throttled ∨ s.flag rPwrStatM 0 then s
    else
      let s1 := s.toCt (t - 1)
      let p := s1.fld rOpreq 1 0
      let s2 := { s1.clrFlag rOpreq 8 with point := p, ct := t, marks := [] }
      s2.regrid (nextMultiple (periodOf p) (t + 640)) (s2.cyc + 1)

/-- JOBEPOCH_WRITE: only while no context of the module holds a task (R419). -/
def jobEpochWrite (s : State) (v : W64) : State :=
  if s.anyTask then s.event rTstat 59 else s.setReg rJobEpoch v

/-! ### The time unit (R420–R427) -/

def State.timeState (s : State) : Nat := s.fld rTstat 2 0
def State.ppsSource (s : State) : Bool := s.flag rTctl 32
def State.majority (s : State) : Bool := s.flag rTstat 4
def State.setTu (s : State) (f : TimeUnit → TimeUnit) : State := { s with tu := f s.tu }

/-- TCTL_WRITE: only in FREE, ACQUIRE and LOST (R429). -/
def tctlWrite (s : State) (v : W64) : State :=
  if s.timeState ≤ 1 ∨ s.timeState = 5 then s.setReg rTctl (v &&& 0x1FFFFFFFF) else s.event rTstat 58

/-- A link in SCHED or DEGRADED leaves for UNSCHED; outside a clearing the module fails the step (R454). -/
def State.unschedule (s : State) (k : Nat) : State :=
  if 3 ≤ s.linkState k then
    let s1 := s.setFld (blkCANO k + 8) 2 0 2
    if s1.inClearing then s1 else s1.failCanopy k 0 (s1.ct / 28)
  else s

/-- QUAL is lost: the links leave their schedules.  Contexts at WAIT.AT fault as the loss reaches their cores (`lossCycle`). -/
def State.unqualify (s : State) : State := (List.range 24).foldl (fun s k => s.unschedule k) s

/-- The time unit enters state `st`.  A change of QUAL raises TIME_QUAL to the Keeper and every event controller (R427). -/
def State.enterTime (s : State) (st : Nat) : State :=
  let q := decide (2 ≤ st) && decide (st ≤ 4)
  let was := s.flag rTstat 3
  let s1 := (s.setFld rTstat 2 0 st).setFld rTstat 3 3 q.toNat
  let s2 := s1.setTu (fun u =>
    if st = 1 then { u with offset := none, stepped := false, inBand := none, ppsRun := 0 }
    else if st = 4 then { u with holdAt := s.ct } else u)
  if q = was then s2
  else
    let s3 := ((s2.setTu (fun u => { u with qualAt := s.ct, qualNo := u.qualNo + 1 })).raiseKeep 7).raiseAll 648
    if q then s3 else s3.unqualify

/-- Where the time unit goes when a source comes or goes (R424). -/
def State.timeSource (s : State) : State :=
  let nb := s.majority && !s.ppsSource
  match s.timeState with
  | 0 | 5 => if s.tu.refGood || s.majority then s.enterTime 1 else s
  | 2 => if s.tu.refGood then s else s.enterTime (if nb then 3 else 4)
  | 3 => if s.tu.refGood then s.enterTime 2 else if nb then s else s.enterTime 4
  | 4 => if s.tu.refGood then s.enterTime 2 else if nb then s.enterTime 3 else s
  | _ => s

/-- HALL_REF_LOSS and HALL_REF_GOOD (R426). -/
def hallRefLoss (s : State) : State :=
  if s.tu.refGood then ((s.setTu (fun u => { u with refGood := false })).event rTstat 60).timeSource else s
def hallRefGood (s : State) : State := (s.setTu (fun u => { u with refGood := true })).timeSource

/-- Distance, in edge steps, from the present to the nearest time that is a multiple of 10^10 ct plus PPSDELAY (R422). -/
def State.ppsOffset (s : State) : Int :=
  let d : Int := signed 32 (bits (s.reg rTctl) 31 0)
  let period : Int := 40000000000
  let r := (4 * (s.ct : Int) - d) % period
  if 2 * r ≤ period then -r else period - r

/-- Records the offset of the phase reference: known, and in band since when (R425, CLK.TOFFSET). -/
def State.setOffset (s : State) (o : Int) : State :=
  let inb := decide (o.natAbs ≤ 8)
  (s.setReg rToffset (BitVec.ofNat 64 (wrap 32 o))).setTu (fun u => { u with
    offset := some o, inBand := if inb then some (u.inBand.getD s.ct) else none })

/-- HALL_PPS_EDGE (R422, R425): a PPS source takes its phase, and in ACQUIRE first its step from TSEED, from the edge;
any other module compares.  Every module notes when the edge came (R426). -/
def hallPps (s0 : State) : State :=
  let s := s0.setTu (fun u => { u with ppsAt := s0.ct })
  let o := s.ppsOffset
  if s.ppsSource then
    let first := decide (s.timeState = 1) && !s.tu.stepped
    let want : Int := 40000000000 * ((s.reg rTseed).toNat : Int) + signed 32 (bits (s.reg rTctl) 31 0)
    let o1 := if first then want - 4 * (s.ct : Int) else o
    (s.setOffset o1).setTu (fun u => { u with ppsRun := if o1.natAbs ≤ 8 then u.ppsRun + 1 else 0 })
  else if 256 < o.natAbs then (s.event rTstat 62).raiseKeep 6 else s

/-- PPS_LOST: no HALL_PPS edge has reached a PPS source for 1.1 s (R426). -/
def ppsLost (s : State) : State :=
  if s.ppsSource then (s.toCt (s.tu.ppsAt + 11000000000)).event rTstat 61 else s

/-- Half the mean of a quantity over the last control words of a link. -/
def Link.mean2 (l : Link) (f : TimeWord → Int) : Int := (l.times.map f).foldl (· + ·) 0 / (2 * (l.times.length : Int))

/-- Estimates of the links with qualified neighbours, each the mean of θ in edge steps (R420). -/
def State.estimates (s : State) : List (Nat × Int) :=
  (List.range 24).filterMap (fun k =>
    if s.flag (blkCANO k + 8) 14 && !(s.link k).times.isEmpty then some (k, (s.link k).mean2 (·.theta2)) else none)

def insertInt (x : Int) : List Int → List Int
  | [] => [x]
  | y :: r => if x ≤ y then x :: y :: r else y :: insertInt x r

/-- The median; between the two middle values, their mean. -/
def median (l : List Int) : Int :=
  let t := l.foldr insertInt []
  let n := t.length
  if n % 2 = 1 then t.getD (n / 2) 0 else (t.getD (n / 2 - 1) 0 + t.getD (n / 2) 0) / 2

/-- How often the links' estimates are complete: every 65,536 slots (R426). -/
def estEvery : Nat := 65536 * 28

/-- The delays of both directions of link k and its loop, from the same control words as its estimate: δ is the mean of t2 − t1 − θ,
and of t4 − t3 + θ in the reverse direction (R435); a link whose delay no longer meets R442 leaves SCHED (R454). -/
def State.closeDelay (s : State) (k : Nat) : State :=
  if (s.link k).times.isEmpty then s
  else
    let d := ((s.link k).mean2 (fun w => 2 * w.fwd - w.theta2)).toNat
    let r := ((s.link k).mean2 (fun w => 2 * w.rev + w.theta2)).toNat
    let loop := 4 + (d + 111) / 112 + (r + 111) / 112
    let s1 := ((s.setFld (blkCANO k + 0x10) 15 0 d).setFld (blkCANO k + 0x10) 63 48 r).setFld (blkCANO k + 0x10) 47 40 loop
    if 4 * 448 < d ∨ 4 * 448 < r then s1.unschedule k else s1

/-- LINK_ESTIMATE: a new set of estimates: the neighbour majority, the offset it gives, the links it finds suspect, and the
delay and loop of each link (R421, R426, R435). -/
def linkEstimate (s : State) : State :=
  let s0 := s.toCt (nextMultiple estEvery (s.ct + 1))
  let es := s0.estimates
  let m := median (es.map (·.2))
  let good := es.filter (fun e => decide ((e.2 - m).natAbs ≤ 12))
  let bad := es.filter (fun e => decide (12 < (e.2 - m).natAbs))
  let maj := decide (3 ≤ good.length) && decide (es.length < 2 * good.length)
  let s1 := bad.foldl (fun s e => s.countMod 32 32 (blkCANO e.1 + 0x40) 1) s0
  let s2 := ((s1.setFld rTstat 47 40 (if maj then good.length else 0)).setFld rTstat 39 32 es.length).setFld rTstat 4 4 maj.toNat
  let s3 := if maj && !s2.ppsSource then s2.setOffset ((good.foldl (fun a e => a + e.2) 0) / (good.length : Int)) else s2
  ((List.range 24).foldl (fun s k => s.closeDelay k) s3).timeSource

/-- An instant moved by a step of canopy time. -/
def shiftCt (d : Int) (t : Nat) : Nat := ((t : Int) + d).toNat

/-- The instants a core has noted, moved by a step. -/
def Core.shift (k : Core) (d : Int) : Core :=
  { k with
    power := match k.power with
      | .napEntry t => .napEntry (shiftCt d t)
      | .deepEntry t => .deepEntry (shiftCt d t)
      | p => p
    wakeAt := shiftCt d k.wakeAt, scrubAt := shiftCt d k.scrubAt, resetEnd := shiftCt d k.resetEnd
    array := k.array.map (fun t => if t = 0 then 0 else shiftCt d t), gateAt := k.gateAt.map (shiftCt d)
    wakeDue := k.wakeDue.map (fun w => (w.1, shiftCt d w.2)) }

/-- TIME_STEP: in ACQUIRE, the part of the offset that is a multiple of 240 ct is corrected by one step at a canopy time
that is a multiple of 240 ct; every glade takes it at once and no grid moves (R425). -/
def timeStep (s : State) : State :=
  match s.tu.offset with
  | none => s
  | some o =>
    if s.timeState ≠ 1 ∨ s.tu.stepped then s
    else
      let d : Int := 240 * (o.tdiv 960)
      let s0 := s.toCt (nextMultiple 240 s.ct)
      let s1 := s0.setOffset (o - 4 * d)
      let s2 := s1.setTu (fun u => { u with
        stepped := true, qualAt := shiftCt d u.qualAt, ppsAt := shiftCt d u.ppsAt, opAt := shiftCt d u.opAt
        inBand := u.inBand.map (shiftCt d) })
      if d = 0 then s2
      else
        { s2.event rTstat 63 with
          ct := shiftCt d s2.ct, root := s2.root + ((shiftCt d s2.ct : Nat) : Int) - s2.ct, nextEdge := shiftCt d s2.nextEdge, prevEdge := shiftCt d s2.prevEdge
          thrBase := (shiftCt d s2.thrBase.1, s2.thrBase.2), thrEnd := shiftCt d s2.thrEnd, cores := s2.cores.map (fun p => (p.1, p.2.shift d))
          refAt := s2.refAt.map (fun p => (p.1, shiftCt d p.2)), mr4At := s2.mr4At.map (fun p => (p.1, shiftCt d p.2))
          bankBlk := s2.bankBlk.map (fun p => (p.1, shiftCt d p.2)), osc := s2.osc.map (fun p => (p.1, shiftCt d p.2))
          wokeAt := []
          retraining := s2.retraining.map (fun p => (p.1, shiftCt d p.2)), pprBusy := s2.pprBusy.map (fun p => (p.1, shiftCt d p.2))
          flushAt := s2.flushAt.map (fun p => (p.1, shiftCt d p.2))
          hch := s2.hch.map (fun p => (p.1, p.2.map (fun h => { h with since := shiftCt d h.since }))) }

/-- ACQUIRE_COMPLETE: the conditions of R425 hold: LOCKED with HALL_REF good, HOLD_NB without. -/
def acquireComplete (s : State) : State :=
  if s.timeState ≠ 1 ∨ s.tu.stepped = false then s
  else
    let go (s : State) : State := s.enterTime (if s.tu.refGood then 2 else 3)
    if s.ppsSource then (if 3 ≤ s.tu.ppsRun then go s else s)
    else match s.tu.inBand with
      | some t => if s.majority then go (s.toCt (t + 100000000)) else s
      | none => s

/-- HOLDOVER_EXPIRY: HOLD_FREE ends 1 s after it was entered, and QUAL becomes 0 (R424). -/
def holdoverExpiry (s : State) : State :=
  if s.timeState = 4 then (s.toCt (s.tu.holdAt + 10000000000)).enterTime 5 else s

/-- CLK.TSTAT as it reads: with INCLR and, in HOLD_FREE, HOLD_MS. -/
def tstatRead (s : State) : W64 :=
  let v := setBit (s.reg rTstat) 5 s.inClearing
  if s.timeState = 4 then setBits v 17 8 (Nat.min 1000 ((s.ct - s.tu.holdAt) / 10000000)) else v

end Sys2Proof.Machine
end

