-- ==== Sys2Proof/Machine/Links.lean ====
section
/-! DEFINITION.
What the Canopy links and the reduction units share: slot tables, the route table, transmit FIFOs, DMA registers, and
access to slices from the Edge dies (spec 15, 16). -/

namespace Sys2Proof.Machine

def rCanoCtl (k : Nat) : Nat := blkCANO k
def rCanoStat (k : Nat) : Nat := blkCANO k + 0x8
def rCanoCal (k : Nat) : Nat := blkCANO k + 0x10
/-- The counters of a link (R457): 0 FECCORR, 1 FECFAIL, 2 RETRY, 3 LATE, 4 TSUSPECT, 5 RXREFUSE, 6 UNDERRUN. -/
def rCanoCnt (k j : Nat) : Nat := blkCANO k + 0x20 + 8 * j
def rSideSeq (k : Nat) : Nat := blkCANO k + 0x58
def rBank : Nat := blkCANO 0 + 0xF08
def rMargin : Nat := blkCANO 0 + 0xF10
/-- CANO.TXc of Edge die e: 0 SRC, 1 DST, 2 CTL, 3 NB. -/
def rTx (e c j : Nat) : Nat := blkCANO (12 * e) + 0x1000 + 0x20 * c + 8 * j

def State.countLink (s : State) (k j : Nat) : State := s.countMod 32 32 (rCanoCnt k j) 1

/-- The Edge die of a link. -/
def edgeOfLink (k : Nat) : Nat := k / 12

/-- Length of a slot, in ct (R432). -/
def slotCt : Nat := 28

/-- The entry of link k's active slot table for slot n (R436). -/
def State.entry (s : State) (k n : Nat) : Nat :=
  let i := n % 4096
  let r := s.reg (blkCANO k + 0x8000 + s.fld rBank 0 0 * 0x2000 + i / 4 * 8)
  bits r (16 * (i % 4) + 15) (16 * (i % 4))

/-- Whether link k sends in slot n: a direction on one lane uses even slots only (R455). -/
def State.usesSlot (s : State) (k n : Nat) : Bool := !((s.link k).single && n % 2 == 1)

/-- The number of flits a transmit FIFO holds, and those flits. -/
def State.fifo (s : State) (e f : Nat) : List FifoFlit := Tab.get [] s.fifos (16 * e + f)
def State.setFifo (s : State) (e f : Nat) (l : List FifoFlit) : State := { s with fifos := Tab.put s.fifos (16 * e + f) l }
/-- CANO.TXc.CTL.CRU: the FIFO is fed by the CRU of its die. -/
def State.cruFed (s : State) (e f : Nat) : Bool := s.flag (rTx e f 2) 17

/-- The route-table entry of a module (R452, R457). -/
def State.route (s : State) (dest : Nat) : Nat :=
  let r := s.reg (blkCANO (dest / 8192) + 0xC000 + dest % 8192 / 4 * 8)
  bits r (16 * (dest % 4) + 15) (16 * (dest % 4))

/-- The link a side flit for a module leaves by: the primary one where up, else the alternate (R452). -/
def State.routeLink (s : State) (dest : Nat) : Option Nat :=
  let e := s.route dest
  let p := e % 32
  let a := e / 256 % 32
  if e.testBit 5 && decide (p < 24) && s.linkUp p then some p
  else if e.testBit 13 && decide (a < 24) && s.linkUp a then some a
  else none

/-- The commit unit sends a SIDE flit to a module. -/
def State.sendSide (s : State) (dest : Nat) (body : BitVec 2048) : State :=
  match s.routeLink dest with
  | some k => s.queueSide (fromUnit 0) k ⟨false, dest, 0, body⟩
  | none => s

/-! ### The Edge dies at the slices (R246, R440, R441, R463) -/

/-- The slice and row of a 34-bit Comb address with logical position; none where no program could issue it (R22). -/
def combTarget (a : Nat) : Option (Nat × Nat) :=
  if a % 512 = 0 ∧ a / 2 ^ 25 % 128 < 72 ∧ a / 512 % 65536 < 49152 then
    some (72 * (a / 2 ^ 33 % 4) + a / 2 ^ 25 % 128, a / 512 % 65536)
  else none

/-- A row that a unit of an Edge die asks for: of logical core `core`. -/
structure EdgeAsk where
  kind : AccKind
  core : Nat
  row : Nat
  data : Row
  deriving DecidableEq, Repr

/-- The cycle in which a row that Edge die `e` sends now to position `i` is presented to the mesh: at the second edge of the fabric
after this one (R412). -/
def State.edgeCycle (s : State) (i : Nat) : Nat := s.fabricCyc i + 2

/-- Ask `m` of job `job` of Edge die `e`, with source code `src`, enters its route; to a core that is not in service it answers as
refused at once (R18, R334). -/
def State.edgeSend (s : State) (e src job m n : Nat) (a : EdgeAsk) : State :=
  if s.inService a.core = false then { s with edgeGot := s.edgeGot ++ [(job, m, 8, 0)] }
  else
    let i := s.physOf a.core
    s.launch i (.die e job) (.access ⟨a.kind, a.row, a.data, src, .die e job, m, n, none⟩)
      (edgeHops e i (s.edgeCycle i + m) outRemote)

/-- The answer to ask `m` of a job, where it has come: the reason, 0 where it was admitted, and the row read. -/
def State.edgeAnswer (s : State) (job m : Nat) : Option (Nat × Row) :=
  (s.edgeGot.find? (fun a => a.1 == job && a.2.1 == m)).map (·.2.2)

/-- Whether every ask of a job of `n` has its answer. -/
def State.edgeDone (s : State) (job n : Nat) : Bool := (List.range n).all (fun m => (s.edgeAnswer job m).isSome)

/-- Whether a row in flight belongs to a job of an Edge die. -/
def Flight.ofJob (f : Flight) (job : Nat) : Bool := match f.origin with | .die _ j => j == job | _ => false

/-- The row of a job that is due first. -/
def State.edgeNext (s : State) (job : Nat) : Option Flight :=
  (s.flights.filter (fun f => f.ofJob job)).foldl (fun o f => match o with
    | some g => if f.due < g.due then some f else some g
    | none => some f) none

/-- The slice in whose remote buffer an access of a job waits. -/
def State.edgeHeld (s : State) (job : Nat) : Option Nat :=
  (s.cores.find? (fun p => p.2.rbuf.any (fun a => match a.origin with | .die _ j => j == job | _ => false))).map (·.1)

/-- A returning row reaches Edge die `e`: its router has passed it, and it is presented at the second edge of the Edge clock
after that (R412). -/
def State.edgeReturn (s : State) (e id : Nat) : State :=
  match s.landed (640 + e) id with
  | (s1, some f) =>
    let s2 := s1.toCt ((s1.ct / 8 + 2) * 8)
    match f.origin, f.cargo with
    | .die _ job, .ret m v reason => { s2.dropFlight id with edgeGot := s2.edgeGot ++ [(job, m, reason, v)] }
    | _, _ => s2.dropFlight id
  | (s1, none) => s1

/-- Time goes on until every ask of a job has its answer. -/
def State.edgeWait (e job n : Nat) : Nat → State → State
  | 0, s => s
  | f + 1, s =>
    if s.edgeDone job n then s
    else
      match s.edgeNext job with
      | some x =>
        (match x.cargo with
         | .ret .. => State.edgeWait e job n f (s.edgeReturn e x.id)
         | _ => State.edgeWait e job n f (remoteArrival s x.target x.id))
      | none =>
        match s.edgeHeld job with
        | some i => State.edgeWait e job n f (s.toCyc i (s.cycOf i + 1))
        | none => s

/-- The accesses of one job of Edge die `e`'s units, with source code `src`: each row travels to its slice, is judged there
under R252, and a row read travels back (R245, R252, R331). Gives the answers in order; a row that a router dropped answers as
lost, 7. -/
def State.edgeJob (s : State) (e src : Nat) (asks : List EdgeAsk) : State × List (Nat × Row) :=
  let job := s.nextFlight
  let s1 := asks.zipIdx.foldl (fun s p => s.edgeSend e src job p.2 asks.length p.1) { s with nextFlight := job + 1 }
  let s2 := State.edgeWait e job asks.length bankFuel s1
  ({ s2 with edgeGot := s2.edgeGot.filter (fun a => a.1 ≠ job) }, (List.range asks.length).map (fun m => (s2.edgeAnswer job m).getD (7, 0)))

/-- An Edge die reads rows (logical core, row) through windows: the rows, and whether every one was admitted. -/
def State.edgeRead (s : State) (e src : Nat) (rows : List (Nat × Nat)) : State × List (Option Row) :=
  let r := s.edgeJob e src (rows.map (fun p => ⟨.read, p.1, p.2, 0⟩))
  (r.1, r.2.map (fun a => if a.1 = 0 then some a.2 else none))

/-- Parts of rows (logical core, row, bit, length, bits) that an Edge die writes through windows; false where one is refused. -/
def State.edgeWrite (s : State) (e src : Nat) (parts : List (Nat × Nat × Nat × Nat × Nat)) : State × Bool :=
  let r := s.edgeJob e src (parts.map (fun p => ⟨.part p.2.2.1 p.2.2.2.1, p.1, p.2.1, BitVec.ofNat 4096 p.2.2.2.2⟩))
  (r.1, r.2.all (fun a => a.1 == 0))

/-- A row that a link of an Edge die has received goes to its slice. -/
def State.edgeRow (s : State) (e k i row : Nat) (v : Row) (sig : Option Nat) : State :=
  s.launch i (.edge (0x1F2 + e) k) (.access ⟨.write, row, v, 0x1F2 + e, .edge (0x1F2 + e) k, 0, 1, sig⟩)
    (edgeHops e i (s.edgeCycle i) outRemote)

end Sys2Proof.Machine
end

