-- ==== Sys2Proof/Machine/Reduce.lean ====
section
/-! DEFINITION.
Buckets, reduction flits and the stages of the two chain reduction units (spec 16, R459–R479). -/

namespace Sys2Proof.Machine

/-! ### Buckets (R459–R462) -/

namespace Bucket
def lfirst (b : W64) : Nat := bits b 8 0
def llast (b : W64) : Nat := bits b 17 9
def row (b : W64) : Nat := bits b 33 18
def rows (b : W64) : Nat := bits b 49 34 + 1
def bf (b : W64) : Bool := bit b 54
def outBf (b : W64) : Bool := bit b 55
def wide (b : W64) : Bool := bit b 56
/-- Elements per row P. -/
def per (b : W64) : Nat := if bf b then 256 else 128
def total (b : W64) : Nat := (llast b + 1 - lfirst b) * rows b * per b
end Bucket

def bucketMask (word : Nat) : W64 :=
  match word with
  | 0 => BitVec.ofNat 64 (2 ^ 63 + (2 ^ 60 - 2 ^ 54) + (2 ^ 50 - 1))
  | 3 => BitVec.ofNat 64 (2 ^ 40 - 1)
  | _ => BitVec.ofNat 64 (2 ^ 50 - 1)

/-- Whether two ranges of cores, each with its rows, share a row. -/
def Bucket.meets (a b : W64) : Bool :=
  decide (lfirst a ≤ llast b) && decide (lfirst b ≤ llast a) && decide (row a < row b + rows b) && decide (row b < row a + rows a)

/-- The conditions of R460 under which bucket j may become valid. -/
def State.bucketOk (s : State) (j : Nat) (b : W64) : Bool :=
  let others := s.bucketsHeld.filter (fun x => decide (x ≠ j))
  let n := (Bucket.llast b + 1 - Bucket.lfirst b) * Bucket.rows b
  decide (Bucket.lfirst b ≤ Bucket.llast b) && decide (Bucket.llast b ≤ 287) && decide (Bucket.row b + Bucket.rows b ≤ 49152) &&
  decide (2048 ≤ n) && decide (n ≤ 65536) && others.all (fun x => !(Bucket.meets (s.reg (rBkt x 0)) b)) &&
  ((List.range (Bucket.llast b + 1)).drop (Bucket.lfirst b)).all (fun c =>
    decide ((others.filter (fun x =>
      let y := s.reg (rBkt x 0)
      decide (Bucket.lfirst y ≤ c) && decide (c ≤ Bucket.llast y))).length < 8))

/-- BUCKET_WRITE: a write to a word of CRU.BKTj. -/
def bucketWrite (s : State) (j word : Nat) (v : W64) : State :=
  let w := v &&& bucketMask word
  let valid := bit (s.reg (rBkt j 0)) 63
  let fine := s.phase == 0 &&
    (if valid then word == 0 && !(bit w 63) else word != 0 || !(bit w 63) || s.bucketOk j w)
  if fine then
    s.setReg (rBkt j word) (if word = 3 then w ||| (s.reg (rBkt j 3) &&& BitVec.ofNat 64 (2 ^ 63)) else w)
  else s.event rCmtStat 62

/-- The positions that hold rows of a bucket. -/
def State.bucketCores (s : State) (j : Nat) : List Nat :=
  let b := s.reg (rBkt j 0)
  ((List.range (Bucket.llast b + 1)).drop (Bucket.lfirst b)).map s.physOf

/-- BUCKET_PART_FULL: a slice whose count has reached its part reports; with the last part the bucket is full (R461). -/
def bucketPart (s : State) (j i : Nat) : State :=
  if bit (s.reg (rBkt j 0)) 63 = false ∨ (s.bucketCores j).contains i = false ∨
      Tab.get 0 (s.core i).wcount j < s.partSize j ∨ s.released = false then s
  else
    let s1 := if s.cmt.parts.contains (j, i) then s else { s with cmt := { s.cmt with parts := (j, i) :: s.cmt.parts } }
    if (s1.bucketCores j).all (fun x => s1.cmt.parts.contains (j, x)) then s1.setFlag (rBkt j 3) 63 else s1

/-- BUCKET_DEADLINE: a valid bucket that is not full at T_r + DEADLINE fails the current step (R462). -/
def bucketDeadline (s : State) (j : Nat) : State :=
  if bit (s.reg (rBkt j 0)) 63 = false ∨ s.phase < 2 then s
  else
    let s1 := s.toCt ((s.reg rCmtRel).toNat + bits (s.reg (rBkt j 3)) 39 0)
    if s1.flag (rBkt j 3) 63 then s1 else s1.failRel (s1.reg rCmtRelno).toNat 1

/-! ### Exponent words and aligned integers (R464–R468) -/

/-- The exponent word of a block's elements. -/
def expWord (l : List Num) : Nat :=
  let any (p : Num → Bool) : Nat := (l.any p).toNat
  let es := l.filterMap (fun x => match x with
    | .fin _ n d => if n = 0 then none else some (floorLog2 n d + 150).toNat
    | _ => none)
  any Num.isNan * 2 ^ 15 + any (fun x => x.isInf && !x.neg?) * 2 ^ 14 + any (fun x => x.isInf && x.neg?) * 2 ^ 13 +
    (if es.isEmpty then 0 else 2 ^ 12 + es.foldl Nat.max 0)

/-- Two exponent words combined (R465). -/
def expMax (a b : Nat) : Nat := ((a ||| b) &&& 0xF000) + Nat.max (a % 512) (b % 512)

def scaleBits (wide : Bool) : Int := if wide then 45 else 29

/-- The aligned integer of an element under its block's final word (R466). -/
def alignInt (wide : Bool) (word : Nat) (x : Num) : Int :=
  match x with
  | .fin neg n d =>
    if n = 0 ∨ word.testBit 12 = false then 0
    else
      let eb : Int := (word % 512 : Nat) - 150
      let u := inUnits n d (eb - scaleBits wide)
      let k := roundNat .nearest 0 u.1 u.2
      if neg then -(k : Int) else k
  | _ => 0

/-- Flags of CRU.FLAGS: 1 NAN, 2 INF, 4 OVF, 8 UFZ. -/
def cruFlags (x : Num) (out : Num) : Nat :=
  (if out.isNan then 1 else 0) + (if out.isInf then 2 else 0) + (if out.isInf && !x.isInf && !x.isNan then 4 else 0) +
  (if out.isZero && !x.isZero then 8 else 0)

/-- A lane converted to the result format under its block's final word, with the flags it sets (R468). -/
def laneResult (bf wide : Bool) (word : Nat) (x : Int) : Nat × Nat :=
  let f := if bf then bf16 else fp32
  let v : Num :=
    if word.testBit 15 || (word.testBit 14 && word.testBit 13) then .nan
    else if word.testBit 14 then .inf false
    else if word.testBit 13 then .inf true
    else if x = 0 then .fin false 0 1
    else scaled (decide (x < 0)) x.natAbs ((word % 512 : Nat) - 150 - scaleBits wide)
  let p := f.encode .rne 0 v
  (p.1, cruFlags v (f.decode p.1))

/-! ### Payloads and residues (R470–R472) -/

/-- Lanes per group, groups, bits per lane and bytes per group of a kind. -/
def redShape (kind : Nat) : Nat × Nat × Nat × Nat :=
  match kind with
  | 0 => (15, 8, 16, 32)
  | 1 => (8, 5, 48, 50)
  | _ => (8, 3, 64, 66)

/-- Elements or blocks a flit covers. -/
def redSpan (kind : Nat) : Nat := (redShape kind).1 * (redShape kind).2.1

/-- The lanes of a payload, as patterns, and its check words. -/
def redLanes (kind : Nat) (body : Nat) : List Nat × List Nat :=
  let p := redShape kind
  ((List.range p.2.1).flatMap (fun g => (List.range p.1).map (fun k => field body (8 * p.2.2.2 * g + p.2.2.1 * k) p.2.2.1)),
   (List.range p.2.1).map (fun g => field body (8 * p.2.2.2 * g + p.2.2.1 * p.1) 16))

/-- ρ(v) of a lane's pattern (R471); an exponent word stands for itself. -/
def rho (kind v : Nat) : Nat :=
  if kind = 0 then v % 65535 else (signed (redShape kind).2.2.1 v % 65535).toNat

/-- The residues of the groups of a list of lanes. -/
def residues (kind : Nat) (lanes : List Nat) : List Nat :=
  let p := redShape kind
  (List.range p.2.1).map (fun g => (((lanes.drop (p.1 * g)).take p.1).map (rho kind)).foldl (· + ·) 0 % 65535)

/-- Packs lanes and check words into a payload. -/
def redBody (kind : Nat) (lanes check : List Nat) : BitVec 2048 :=
  let p := redShape kind
  BitVec.ofNat 2048 ((List.range p.2.1).foldl (fun a g =>
    let ls := (lanes.drop (p.1 * g)).take p.1
    let v := (ls.zipIdx.foldl (fun (x : Nat) (q : Nat × Nat) => x + q.1 * 2 ^ (p.2.2.1 * q.2)) 0) +
      check.getD g 0 * 2 ^ (p.2.2.1 * p.1)
    a + v * 2 ^ (8 * p.2.2.2 * g)) 0)

/-! ### Stages (R474–R477) -/

def rCruStat (e : Nat) : Nat := blkCRU + 0x80000 * e
def rCruFlags (e : Nat) : Nat := blkCRU + 0x80000 * e + 0x8
def rResmis (e : Nat) : Nat := blkCRU + 0x80000 * e + 0x10
def rLres (k : Nat) : Nat := blkCRU + 0x100 + 8 * k
def rStg (e k w : Nat) : Nat := blkCRU + 0x80000 * e + 0x10000 + 0x10 * k + 8 * w

namespace Stage
def op (w : W64) : Nat := bits w 62 61
def isrc (w : W64) : Nat := bits w 60 56
def lsrc (w : W64) : Nat := bits w 55 54
def dst (w : W64) : Nat := bits w 53 52
def fifo (w : W64) : Nat := bits w 51 48
def job (w : W64) : Nat := bits w 47 36
def first (w : W64) : Nat := bits w 35 14
def nflits (w : W64) : Nat := bits w 13 0 + 1
def toFifo (w : W64) : Bool := dst w == 0 || dst w == 3
def toScratch (w : W64) : Bool := dst w == 1 || dst w == 3
/-- The table of permitted stages. -/
def permitted (w : W64) : Bool :=
  let link := decide (isrc w < 24)
  let src := link || isrc w == 31
  let loc := lsrc w == 1 || lsrc w == 2 || (lsrc w == 0 && link)
  match op w with
  | 0 => src && loc && dst w != 2
  | 1 => link && lsrc w == 0 && dst w != 2
  | 2 => src && loc && dst w != 3
  | _ => false
end Stage

/-- STAGE_WRITE: a write to a word of CRU.STGk (R475). -/
def stageWrite (s : State) (e k : Nat) (word : Bool) (v : W64) : State :=
  if word = false ∧ bit v 63 then
    if s.phase = 0 ∧ bit (s.reg (rBkt (Stage.job v) 0)) 63 ∧ Stage.permitted v ∧ s.cruFed e (Stage.fifo v) then
      s.setReg (rStg e k 0) v
    else s.event (rCruStat e) 16
  else s.setReg (rStg e k word.toNat) v

/-- The valid stages of a CRU: number and word 0. -/
def State.stagesOf (s : State) (e : Nat) : List (Nat × W64) :=
  (s.regs.filter (fun p => decide (rStg e 0 0 ≤ p.1) && decide (p.1 < rStg e 4096 0) && (p.1 % 0x10 == 0) && bit p.2 63)).map
    (fun p => ((p.1 - rStg e 0 0) / 0x10, p.2))

/-- Flits stage k of a CRU has processed. -/
def State.progress (s : State) (e k : Nat) : Nat := Tab.get 0 s.stages (4096 * e + k)

/-- CRU.STAT as it reads: ACTIVE counts the stages with flits still to process. -/
def cruStatRead (s : State) (e : Nat) : W64 :=
  setBits (s.reg (rCruStat e)) 12 0
    (if s.phase < 2 then 0 else ((s.stagesOf e).filter (fun p => decide (s.progress e p.1 < Stage.nflits p.2))).length)

/-! ### Arriving flits (R469, R472, R473, R476, R479) -/

/-- KIND an integer or exponent stage takes. -/
def State.stageKind (s : State) (w : W64) : Nat :=
  if Stage.op w = 2 then (if Bucket.wide (s.reg (rBkt (Stage.job w) 0)) then 2 else 1) else 0

/-- A residue or check mismatch at a CRU, on arrival from a link or before a write (R472, R473). -/
def State.mismatch (s : State) (e : Nat) (link : Option Nat) : State :=
  let s1 := s.countMod 32 32 (rResmis e) 1
  let s2 := match link with
    | none => s1
    | some k =>
      let t := s1.countMod 16 17 (rLres k) 1
      if t.fld (rLres k) 15 0 = 2 then (t.event (rLres k) 16).raiseKeep 2 else t
  s2.failStep 4

/-- The stage that takes a RED flit of a link: its CRU, its number and its word 0 (R476). -/
def State.redStage (s : State) (link job index kind : Nat) : Option (Nat × Nat × W64) :=
  ([0, 1].flatMap (fun e => (s.stagesOf e).map (fun p => (e, p.1, p.2)))).find? (fun c =>
    Stage.isrc c.2.2 == link && Stage.job c.2.2 == job && decide (Stage.first c.2.2 ≤ index) &&
    decide (index < Stage.first c.2.2 + Stage.nflits c.2.2) && s.stageKind c.2.2 == kind)

/-- RED_FLIT_ACCEPT: the oldest RED flit of a link goes to its stage's input buffer, or the step fails. -/
def redAccept (s : State) (link : Nat) : State :=
  match s.redIn.find? (fun p => p.1 == link) with
  | none => s
  | some (_, f) =>
    let s0 := { s with redIn := s.redIn.erase (link, f) }
    let addr := bits f.hdr 65 32
    let index := addr % 2 ^ 22
    let kind := addr / 2 ^ 22 % 4
    let job := bits f.hdr 77 66
    if kind = 3 ∨ s.phase < 2 then s0
    else
      match s.redStage link job index kind with
      | none => s0.failStep 5
      | some (e, k, _) =>
        let p := redLanes kind f.body.toNat
        if residues kind p.1 ≠ p.2 then s0.mismatch e (some link)
        else if s0.redSeen.contains (4096 * e + k, index) then s0
        else if 64 ≤ (s0.inbuf.filter (fun x => x.cru == e && x.link == link)).length then s0.failStep 6
        else
          { s0 with
            redSeen := (4096 * e + k, index) :: s0.redSeen
            inbuf := s0.inbuf ++ [⟨e, link, job, index, kind, f.body⟩] }

/-! ### Forming a flit -/

/-- The logical core and the row that hold row `q` of a region; none outside the region or the slice. -/
def regionRow (region : W64) (q : Nat) : Option (Nat × Nat) :=
  match combTarget (bits region 33 0) with
  | none => none
  | some (n, r) => if bits region 49 34 < q ∨ 49151 < r + q then none else some (n, r + q)

/-- Reads the flits of 256 bytes of a region that a list names; none where one was not admitted (R463, R474). -/
def State.readFlits (s : State) (e : Nat) (region : W64) (fs : List Nat) : State × Option (List Nat) :=
  let at_ := fs.map (fun f => regionRow region (f / 2))
  if at_.any (·.isNone) then (s, none)
  else
    let r := s.edgeRead e (0x1F0 + e) (at_.filterMap id)
    if r.2.any (·.isNone) then (r.1, none)
    else (r.1, some (List.zipWith (fun f v => field v.toNat (2048 * (f % 2)) 2048) fs (r.2.filterMap id)))

/-- The parts of rows that `n` bits from bit `pos` of a region fill: row, first bit, length, bits of `v`. -/
def rowParts (pos n v : Nat) : List (Nat × Nat × Nat × Nat) :=
  ((List.range ((n + 8190) / 4096)).map (fun d => pos / 4096 + d)).filterMap (fun q =>
    let lo := Nat.max pos (4096 * q)
    let hi := Nat.min (pos + n) (4096 * (q + 1))
    if lo < hi then some (q, lo - 4096 * q, hi - lo, field v (lo - pos) (hi - lo)) else none)

/-- Writes `n` bits at bit `pos` of a region; false where an access was not admitted, or a row lies outside it. -/
def State.writeBits (s : State) (e : Nat) (region : W64) (pos n v : Nat) : State × Bool :=
  let parts := (rowParts pos n v).map (fun q => (regionRow region q.1).map (fun a => (a.1, a.2, q.2)))
  if parts.any (·.isNone) then (s, false) else s.edgeWrite e (0x1F0 + e) (parts.filterMap id)

/-- Elements `lo … lo + n − 1` of a bucket, and whether every read was admitted; those beyond its end are none. -/
def State.bucketElems (s : State) (e j lo n : Nat) : State × Bool × List (Option Num) :=
  let b := s.reg (rBkt j 0)
  let p := Bucket.per b
  let end_ := Nat.min (lo + n) (Bucket.total b)
  let need := (List.range ((end_ + p - 1) / p)).drop (lo / p)
  let rd := s.edgeRead e (0x1F0 + e) (need.map (fun q => (Bucket.lfirst b + q / Bucket.rows b, Bucket.row b + q % Bucket.rows b)))
  let rows : Tab Row := need.zip (rd.2.map (fun v => v.getD 0))
  let w := if Bucket.bf b then 16 else 32
  let f := if Bucket.bf b then bf16 else fp32
  (rd.1, rd.2.all (·.isSome), (List.range n).map (fun k =>
    let x := lo + k
    if x < Bucket.total b then some (f.decode (field (Tab.get 0 rows (x / p)).toNat (w * (x % p)) w)) else none))

/-- The final exponent words of the blocks that elements `x … x + n − 1` of a bucket lie in, by block, from the exponent flits in
scratch that hold them; none where a read was not admitted. -/
def State.blockWords (s : State) (e j x n : Nat) : State × Option (Tab Nat) :=
  let end_ := Nat.min (x + n) (Bucket.total (s.reg (rBkt j 0)))
  let blocks := (List.range ((end_ + 31) / 32)).drop (x / 32)
  let flits := (blocks.map (· / 120)).eraseDups
  match s.readFlits e (s.reg (rBkt j 1)) flits with
  | (s1, none) => (s1, none)
  | (s1, some l) =>
    let words : Tab (List Nat) := (flits.zip (l.map (fun v => (redLanes 0 v).1)))
    (s1, some (blocks.map (fun b => (b, (Tab.get [] words (b / 120)).getD (b % 120) 0))))

/-- A stage's local operand for flit `index`: lanes as patterns with their residues; none where the stage has none. -/
def State.localOperand (s : State) (e : Nat) (w w1 : W64) (kind index : Nat) : State × Bool × Option (List Nat × List Nat) :=
  let j := Stage.job w
  let span := redSpan kind
  match Stage.lsrc w with
  | 1 =>
    if kind = 0 then
      let r := s.bucketElems e j (3840 * index) 3840
      let words := (List.range 120).map (fun q => expWord (((r.2.2.drop (32 * q)).take 32).filterMap id))
      (r.1, r.2.1, some (words, residues 0 words))
    else
      let r := s.bucketElems e j (span * index) span
      let width := (redShape kind).2.2.1
      match r.1.blockWords e j (span * index) span with
      | (s1, none) => (s1, false, none)
      | (s1, some t) =>
        let lanes := r.2.2.zipIdx.map (fun q => match q.1 with
          | some x => wrap width (alignInt (kind == 2) (Tab.get 0 t ((span * index + q.2) / 32)) x)
          | none => 0)
        (s1, r.2.1, some (lanes, residues kind lanes))
  | 2 =>
    let f := if kind = 0 then index else bits w1 63 42 + index - Stage.first w
    match s.readFlits e (s.reg (rBkt j 1)) [f] with
    | (s1, some (v :: _)) => (s1, true, some (redLanes kind v))
    | (s1, _) => (s1, false, none)
  | _ => (s, true, none)

/-- Combines the input with the local operand: lanes, and the residues the stage formed; the check words of exponent flits are
computed afresh (R471, R472). -/
def combineLanes (kind : Nat) (a b : Option (List Nat × List Nat)) : List Nat × List Nat :=
  match a, b with
  | some x, none => (x.1, if kind = 0 then residues 0 x.1 else x.2)
  | none, some y => (y.1, if kind = 0 then residues 0 y.1 else y.2)
  | none, none => (List.replicate (redSpan kind) 0, List.replicate (redShape kind).2.1 0)
  | some x, some y =>
    if kind = 0 then
      let l := List.zipWith expMax x.1 y.1
      (l, residues 0 l)
    else
      (List.zipWith (fun p q => (p + q) % 2 ^ (redShape kind).2.2.1) x.1 y.1,
       List.zipWith (fun p q => (p + q) % 65535) x.2 y.2)

/-- The slot of a FIFO at or after `from_`: a SEND entry of an active table of the die's links names it. -/
def State.nextSend (s : State) (e f : Nat) : Nat → Nat → Option Nat
  | 0, _ => none
  | fuel + 1, n =>
    if (List.range 12).any (fun k => let x := s.entry (12 * e + k) n; x / 8192 == 1 && x % 16 == f && s.usesSlot (12 * e + k) n) then some n
    else s.nextSend e f fuel (n + 1)

/-- The header of a RED flit formed here (R469). -/
def redHeader (dest job index kind sched : Nat) : BitVec 128 :=
  BitVec.ofNat 128 (2 + dest * 2 ^ 8 + (index + kind * 2 ^ 22) * 2 ^ 32 + job * 2 ^ 66 + sched % 2 ^ 24 * 2 ^ 90)

/-- A CRU sets its sticky flags. -/
def State.setCruFlags (s : State) (e f : Nat) : State :=
  ([0, 1, 2, 3].filter f.testBit).foldl (fun s b => s.event (rCruFlags e) b) s

/-- Writes the lanes of a flit that lie within the bucket as result elements, at their place under R200 (R468, R474).  Where an
exponent word could not be read nothing is written. -/
def State.writeResult (s : State) (e : Nat) (w w1 : W64) (kind index : Nat) (lanes : List Nat) : State × Bool :=
  let j := Stage.job w
  let b := s.reg (rBkt j 0)
  let span := redSpan kind
  let width := if Bucket.outBf b then 16 else 32
  match s.blockWords e j (span * index) span with
  | (s1, none) => (s1, false)
  | (s1, some t) =>
    let m := Nat.min span (Bucket.total b - span * index)
    let res := (lanes.take m).zipIdx.map (fun q =>
      laneResult (Bucket.outBf b) (kind == 2) (Tab.get 0 t ((span * index + q.2) / 32)) (signed (redShape kind).2.2.1 q.1))
    let v := res.zipIdx.foldl (fun a q => a + q.1.1 * 2 ^ (width * q.2)) 0
    let s2 := s1.setCruFlags e (res.foldl (fun a q => a ||| q.2) 0)
    s2.writeBits e (s2.reg (rBkt j 2)) ((bits w1 63 42 + index - Stage.first w) * span * width) (m * width) v

/-- A stage's flit is sent: to its FIFO, to scratch or to the result.  A refused access fails the step (R463); a residue that
does not match before a write fails it too (R472). -/
def State.stageOut (s : State) (e : Nat) (w w1 : W64) (kind index due : Nat) (lanes check : List Nat) : State :=
  let body := redBody kind lanes check
  let good := kind == 0 || Stage.dst w == 0 || residues kind lanes == check
  if !good then s.mismatch e none
  else
    let s1 := if Stage.toFifo w then
        s.setFifo e (Stage.fifo w) (s.fifo e (Stage.fifo w) ++
          [⟨⟨redHeader (bits w1 41 25) (Stage.job w) index kind due, body⟩, 1, due⟩])
      else s
    if Stage.toScratch w then
      let f := if kind = 0 then index else bits w1 63 42 + index - Stage.first w
      let p := s1.writeBits e (s1.reg (rBkt (Stage.job w) 1)) (2048 * f) 2048 body.toNat
      if p.2 then p.1 else p.1.failStep 3
    else if Stage.dst w = 2 then
      let p := s1.writeResult e w w1 kind index lanes
      if p.2 then p.1 else p.1.failStep 3
    else s1

/-- Puts FILL in a slot of a FIFO (R477). -/
def State.stageFill (s : State) (e : Nat) (w : W64) (due : Nat) : State :=
  if Stage.toFifo w then
    s.setFifo e (Stage.fifo w) (s.fifo e (Stage.fifo w) ++ [⟨⟨redHeader 0 0 0 3 due, 0⟩, 1, due⟩])
  else s

/-- Whether another stage of the same FIFO comes first: an earlier START, or an equal one with a lower number, with flits
still to process. -/
def State.stageWaits (s : State) (e k : Nat) (w : W64) : Bool :=
  let me := bits (s.reg (rStg e k 1)) 24 0
  (s.stagesOf e).any (fun p =>
    let t := bits (s.reg (rStg e p.1 1)) 24 0
    decide (p.1 ≠ k) && Stage.toFifo p.2 && Stage.fifo p.2 == Stage.fifo w && decide (s.progress e p.1 < Stage.nflits p.2) &&
      (decide (t < me) || (t == me && decide (p.1 < k))))

/-- Stage k of a CRU has processed one flit more; its slot is taken and its input leaves the buffer. -/
def State.stageMark (s : State) (e k due : Nat) (w : W64) (inp : Option RedFlit) : State :=
  { s with
    stages := Tab.put s.stages (4096 * e + k) (s.progress e k + 1)
    fifoDue := if Stage.toFifo w then Tab.put s.fifoDue (16 * e + Stage.fifo w) due else s.fifoDue
    inbuf := match inp with | some x => s.inbuf.erase x | none => s.inbuf }

/-- The slot in which a stage's next flit leaves: the first one that names its FIFO, from its start and after the last (R477). -/
def State.stageSlot (s : State) (e k : Nat) : Option Nat :=
  let w := s.reg (rStg e k 0)
  let start := (s.reg rCmtRel).toNat / slotCt + bits (s.reg (rStg e k 1)) 24 0
  let from_ := Nat.max (if s.progress e k = 0 then start else 0) (Tab.get 0 s.fifoDue (16 * e + Stage.fifo w) + 1)
  if Stage.toFifo w then s.nextSend e (Stage.fifo w) 8192 from_ else some 0

/-- The flit in the input buffer that a stage processes next. -/
def State.stageInput (s : State) (e k : Nat) : Option RedFlit :=
  let w := s.reg (rStg e k 0)
  s.inbuf.find? (fun x => x.cru == e && x.link == Stage.isrc w && x.job == Stage.job w &&
    x.index == Stage.first w + s.progress e k && x.kind == s.stageKind w)

/-- A CRU forms at most four flits in a slot, over all its stages: the next one waits for a slot with room, and counts in it
(R478). -/
def State.formTurn (s : State) (e : Nat) : State :=
  let full := Tab.get (0, 0) s.formed e == (s.ct / slotCt, 4)
  let s1 := if full then s.toCt (slotCt * (s.ct / slotCt + 1)) else s
  let n := s1.ct / slotCt
  let was := Tab.get (0, 0) s1.formed e
  { s1 with formed := Tab.put s1.formed e (n, if was.1 = n then was.2 + 1 else 1) }

/-- A stage with a FIFO output that is not ready in time: FILL takes its slot and the step fails (R477). -/
def State.stageMissed (s : State) (e k due : Nat) (w : W64) (inp : Option RedFlit) : State :=
  (((s.toCt (slotCt * due - 112)).stageMark e k due w inp).stageFill e w due).failStep 7

/-- The stage of a CRU whose flit is due in slot n of FIFO f. -/
def State.stageDue (s : State) (e f n : Nat) : Option (Nat × W64) :=
  if s.phase < 2 then none
  else (s.stagesOf e).find? (fun p => Stage.toFifo p.2 && Stage.fifo p.2 == f && decide (s.progress e p.1 < Stage.nflits p.2) &&
    !(s.stageWaits e p.1 p.2) && s.stageSlot e p.1 == some n)

/-- Slot n of a FIFO that a CRU feeds, with nothing in it: FILL; a stage whose flit is due in it is not ready (R477). -/
def State.fillSlot (s : State) (e f n : Nat) : State :=
  match s.stageDue e f n with
  | some (k, w) => (s.stageMark e k n w (s.stageInput e k)).failStep 7
  | none => s

/-- STAGE_FLIT_FORM: stage k of a CRU forms its next flit, or fills its slot where it is not ready 112 ct before. Where it has
a FIFO output its local rows are read within the 448 ct before its slot (R463, R477). -/
def stageForm (s : State) (e k : Nat) : State :=
  let w := s.reg (rStg e k 0)
  let w1 := s.reg (rStg e k 1)
  let done := s.progress e k
  if s.phase < 2 ∨ bit w 63 = false ∨ Stage.nflits w ≤ done ∨ (Stage.toFifo w ∧ s.stageWaits e k w) then s
  else
    let index := Stage.first w + done
    let kind := s.stageKind w
    match s.stageSlot e k with
    | none => s
    | some due =>
      let late (t : State) : Bool := Stage.toFifo w && decide (slotCt * due - 112 < t.ct)
      let inp := s.stageInput e k
      let missing := decide (Stage.isrc w < 24) && inp.isNone
      if late s || (Stage.toFifo w && missing) then s.stageMissed e k due w inp
      else if missing then s
      else
        match (if Stage.toFifo w then s.toCt (slotCt * due - 448) else s).localOperand e w w1 kind index with
        | (s1, false, _) => (((s1.stageMark e k due w inp).stageFill e w due).failStep 3)
        | (s1, true, loc) =>
          let s2 := s1.formTurn e
          if late s2 then s2.stageMissed e k due w inp
          else
            let c := combineLanes kind (inp.map (fun x => redLanes kind x.body.toNat)) loc
            (s2.stageMark e k due w inp).stageOut e w w1 kind index due c.1 c.2

end Sys2Proof.Machine
end

