-- ==== Sys2Proof/Machine/Swarm.lean ====
section
/-! DEFINITION.
The commit unit: the swarm barrier, readiness and the commit agreement (spec 12 R376, R377, 16 R480–R491). -/

namespace Sys2Proof.Machine

def State.modCmt (s : State) (f : Cmt → Cmt) : State := { s with cmt := f s.cmt }
def State.relno (s : State) : Nat := (s.reg rCmtRelno).toNat
def State.isRoot (s : State) : Bool := s.flag rCmtTree 17
/-- The links that lead to children. -/
def State.children (s : State) : List Nat := (List.range 24).filter (fun k => s.flag rCmtTree (24 + k))
def w32 (n : Nat) : W32 := BitVec.ofNat 32 n

/-! ### What an agreement message does (R482–R486) -/

/-- RELEASE for release `rel` at T_r (R486): the first copy sets CMT.REL and raises STEP_RELEASE; one later than LEAD before
T_r fails the release. -/
def release (s : State) (rel : W32) (t : Nat) : State :=
  if rel ≠ w32 (s.relno + 1) ∨ s.cmt.release.isSome then s
  else
    let s1 := (s.setReg rCmtRel (BitVec.ofNat 64 t)).modCmt (fun c => { c with release := some t })
    let s2 := (List.range 320).foldl (fun s i => s.wakeSource i 2) ((s1.raiseAll 649).msix 11)
    if t < s.ct + bits (s.reg rCmtT0) 63 32 then s2.failRel (s.relno + 1) 10 else s2

/-- ALLREADY for a release: held; after a decision of FAIL for it, the module finds a split (R484). -/
def State.split (s : State) : State := ((s.event rCmtStat 63).raiseKeep 8).raiseAll 651
/-- The module's decision on a release, named by its low 32 bits: true COMMIT, false FAIL (R480, R483). -/
def State.decision (s : State) (rel : W32) : Option Bool :=
  (s.cmt.decided.find? (fun d => w32 d.1 == rel && decide (s.relno < d.1 + 2 ^ 31))).map (·.2)
def allready (s : State) (rel : W32) : State :=
  if s.decision rel = some false then s.split
  else s.modCmt (fun c => { c with allready := rel :: c.allready })

/-- Sends ARRIVED, or releases at the root, once the module and every child have arrived (R485, R486). -/
def State.tryArrived (s : State) : State :=
  if s.phase ≠ 1 ∨ s.cmt.arrSent ∨ !(s.children.all (fun k => s.cmt.arrKids.contains k)) then s
  else
    let s1 := s.modCmt (fun c => { c with arrSent := true })
    let next := s.relno + 1
    if s.isRoot then
      let t := nextMultiple slotCycle (s.cmt.arrMax + bits (s.reg rCmtT0) 31 0)
      release (s1.flood 0 (agreeFid next 2) (agreeBody 2 0 next t)) (w32 next) t
    else s1.sendSide (bits (s.reg rCmtTree) 16 0) (agreeBody 1 0 next s.cmt.arrMax)

/-- ARRIVE written to CMT.CTL (R485, R621). -/
def arrive (s : State) : State :=
  if s.phase ≠ 0 ∨ s.bootReady = false then s.event rCmtStat 61
  else ((s.setFld rCmtStat 1 0 1).modCmt (fun c => { c with arrMax := Nat.max c.arrMax s.ct })).tryArrived

/-- FAIL written to CMT.CTL. -/
def runtimeFail (s : State) : State := s.failStep 14

/-- A child's ARRIVED for the next release, with the latest arrival of its subtree. -/
def arrived (s : State) (link : Nat) (rel : W32) (t : Nat) : State :=
  if rel ≠ w32 (s.relno + 1) ∨ s.children.contains link = false then s
  else (s.modCmt (fun c => { c with
    arrKids := if c.arrKids.contains link then c.arrKids else link :: c.arrKids, arrMax := Nat.max c.arrMax t })).tryArrived

/-! ### Readiness (R377, R482) -/

/-- Every stage of the valid buckets has processed its last flit. -/
def State.delivered (s : State) : Bool :=
  [0, 1].all (fun e => (s.stagesOf e).all (fun p =>
    !(bit (s.reg (rBkt (Stage.job p.2) 0)) 63) || decide (Stage.nflits p.2 ≤ s.progress e p.1)))

/-- The module becomes ready once R377 holds, and acts on its place in the tree once every child is ready. -/
def State.tryReady (s : State) : State :=
  let s1 :=
    if s.phase = 2 ∧ s.fld rCmtStat 26 16 = s.fld rCmtExpect 10 0 ∧ !(s.cmt.ctxFail.contains (w32 s.relno)) ∧ s.delivered then
      s.setFld rCmtStat 1 0 3
    else s
  if s1.phase ≠ 3 ∨ s1.cmt.readySent ∨ !(s1.children.all (fun k => s1.cmt.readyKids.contains k)) then s1
  else
    let s2 := s1.modCmt (fun c => { c with readySent := true })
    let rel := s2.relno
    if s2.isRoot then allready (s2.flood 0 (agreeFid rel 4) (agreeBody 4 0 rel 0)) (w32 rel)
    else s2.sendSide (bits (s2.reg rCmtTree) 16 0) (agreeBody 3 0 rel 0)

/-- The bucket entries whose FULL is set. -/
def State.bucketsFull (s : State) : List Nat :=
  (s.regs.filter (fun p => decide (rBkt 0 3 ≤ p.1) && decide (p.1 < rBkt 4096 0) && (p.1 - rBkt 0 3) % 0x20 == 0 && bit p.2 63)).map
    (fun p => (p.1 - rBkt 0 3) / 0x20)

/-- STEP_RELEASE: at T_r the release begins: RELNO advances, PHASE becomes RUNNING, counts and FULL return to zero and every
stage restarts (R461, R479, R486).  A module that expects no arrival and has no reduction is ready at once (R377). -/
def stepRelease (s : State) : State :=
  match s.cmt.release with
  | none => s
  | some t =>
    let s1 := s.toCt t
    let s2 := (s1.setReg rCmtRelno (s1.reg rCmtRelno + 1)).setFld rCmtStat 1 0 2
    let s3 := s2.setFld rCmtStat 26 16 0
    let s4 := s3.bucketsFull.foldl (fun s j => s.clrFlag (rBkt j 3) 63) s3
    ({ s4 with
      cores := s4.cores.map (fun p => (p.1, { p.2 with wcount := [] }))
      stages := [], fifoDue := [], redSeen := [], inbuf := [], redIn := [], formed := []
      cmt := { s4.cmt with
        release := none, parts := [], arrKids := [], arrMax := 0, arrSent := false, readyKids := [], readySent := false } } : State).tryReady

/-- STAGE_FLIT_FORM: a stage forms its next flit; with the last one of its release the module may be ready (R482). -/
def stageFlit (s : State) (e k : Nat) : State := (stageForm s e k).tryReady

/-- COMMIT_ARRIVAL: the oldest arrival on its way reaches the commit unit, at most 60 cyc after its issue (R376). -/
def commitArrival (s : State) : State :=
  match s.cmt.arrivals with
  | [] => s
  | (_, _, fail, _) :: rest =>
    let s0 := s.modCmt (fun c => { c with arrivals := rest })
    let s1 := s0.setReg rCmtStat (plainCount 26 16 1 (s0.reg rCmtStat))
    (if fail then s1.failStep 8 else s1).tryReady

/-- READY of a child for the present release. -/
def ready (s : State) (link : Nat) (rel : W32) : State :=
  if rel ≠ w32 s.relno ∨ s.children.contains link = false then s
  else (s.modCmt (fun c => { c with
    readyKids := if c.readyKids.contains link then c.readyKids else link :: c.readyKids })).tryReady

/-! ### Failure tokens and the decision (R481, R483, R484) -/

/-- FAIL: a token from another module, recorded where the module has recorded no cause for that release. -/
def failToken (s : State) (rel : W32) : State :=
  let s1 := if s.cmt.failed.contains rel || s.failRecorded rel.toNat then s else s.recordFail rel.toNat 13
  match s.decision rel with
  | some true => s1.split
  | some false => s1
  | none => if s.cmt.failed.contains rel then s else s1.modCmt (fun c => { c with failed := rel :: c.failed })

/-- D of the present release. -/
def State.deadline (s : State) : Nat := (s.reg rCmtRel).toNat + bits (s.reg rCmtT1) 39 0

/-- STEP_DEADLINE: a module that is not ready at D fails the release (R482). -/
def stepDeadline (s : State) : State :=
  if s.phase < 2 then s
  else
    let s1 := s.toCt s.deadline
    if s1.phase = 2 then s1.failStep 11 else s1

/-- COMMIT_POINT: the decision at T_c (R483); input buffers are emptied and progress is discarded (R479). -/
def commitPoint (s : State) : State :=
  if s.phase < 2 then s
  else
    let s1 := s.toCt (s.deadline + bits (s.reg rCmtT1) 63 40)
    let rel := w32 s1.relno
    let commit := s1.cmt.allready.contains rel && !(s1.cmt.failed.contains rel)
    let s2 := (s1.setFld rCmtStat 3 2 (if commit then 1 else 2)).setFld rCmtStat 1 0 0
    let s3 := if commit then s2.setReg rCmtStep (s2.reg rCmtStep + 1) else s2
    let s4 := ((s3.raiseAll 650).msix 10).raiseKeep 14
    { s4 with
      stages := [], inbuf := [], redSeen := [], redIn := []
      cmt := { s4.cmt with
        decided := (s1.relno, commit) :: s4.cmt.decided, allready := s4.cmt.allready.filter (· ≠ rel)
        failed := s4.cmt.failed.filter (· ≠ rel), ctxFail := s4.cmt.ctxFail.filter (· ≠ rel) } }

/-- A write to CMT.TREE, T0, T1 or EXPECT, at its offset in the CRU block: only while PHASE is IDLE (R491). -/
def cmtConfig (s : State) (off : Nat) (v : W64) : State :=
  let m : Option W64 := match off with
    | 0x40028 => some (BitVec.ofNat 64 (2 ^ 48 - 2 ^ 24 + 2 ^ 18 - 1))
    | 0x40030 => some (BitVec.ofNat 64 (2 ^ 64 - 1))
    | 0x40038 => some (BitVec.ofNat 64 (2 ^ 64 - 1))
    | 0x40040 => some 0x7FF
    | _ => none
  match m with
  | none => s
  | some m => if s.phase = 0 then s.setReg (blkCRU + off) (v &&& m) else s.event rCmtStat 62

/-- A write to CMT.CTL. -/
def cmtCtl (s : State) (v : W64) : State :=
  match bits v 1 0 with | 1 => arrive s | 2 => runtimeFail s | _ => s

/-- An agreement flit delivered here, from a link where a neighbour sent it (R488). -/
def agreement (s : State) (link : Nat) (body : BitVec 2048) : State :=
  let rel := w32 (bits body 63 32)
  let t := bits body 127 64
  match bits body 15 8 with
  | 1 => arrived s link rel t
  | 2 => release s rel t
  | 3 => ready s link rel
  | 4 => allready s rel
  | 5 => failToken s rel
  | _ => s

end Sys2Proof.Machine
end

