-- ==== Sys2Proof/Machine/Canopy.lean ====
section
/-! DEFINITION.
The Canopy links: slots sent and received, retry, relay, side traffic, DMA channels, slot-table banks, lanes and
calibration (spec 15). -/

namespace Sys2Proof.Machine

/-! ### Headers and control words (R434) -/

namespace Hdr
def type (h : BitVec 128) : Nat := bits h 3 0
def half (h : BitVec 128) : Bool := bit h 4
def sig (h : BitVec 128) : Bool := bit h 5
def retried (h : BitVec 128) : Bool := bit h 6
def dest (h : BitVec 128) : Nat := bits h 24 8
def sigf (h : BitVec 128) : Nat := bits h 30 25
def addr (h : BitVec 128) : Nat := bits h 65 32
def seq (h : BitVec 128) : Nat := bits h 89 78
def sched (h : BitVec 128) : Nat := bits h 113 90
/-- Whether the header is that of a DATA or RED flit. -/
def scheduled (h : BitVec 128) : Bool := type h == 1 || type h == 2
end Hdr

/-- A slot image from its parts (R433). -/
def slotImage (f : Flit) (ctl : W64) : Image :=
  (f.hdr.setWidth 2240 ||| (f.body.setWidth 2240 <<< 128)) ||| (ctl.setWidth 2240 <<< 2176)

def idleFlit : Flit := ⟨0, 0⟩
def voidFlit : Flit := ⟨4, 0⟩

/-- The header of a side flit with its link sequence number. -/
def sideHeader (f : SideFlit) (seq : Nat) : BitVec 128 :=
  BitVec.ofNat 128 ((if f.flood then 5 + f.fid % 65536 * 2 ^ 32 else 3) + f.dest % 2 ^ 17 * 2 ^ 8 + seq % 4096 * 2 ^ 78)

/-- δ of a link's receive direction, in edge steps. -/
def State.deltaR (s : State) (k : Nat) : Nat := s.fld (rCanoCal k) 63 48

/-- Both directions meet R442. -/
def State.admitted (s : State) (k : Nat) : Bool :=
  decide (s.fld (rCanoCal k) 15 0 ≤ 4 * 448) && decide (s.fld (rCanoCal k) 63 48 ≤ 4 * 448)

/-- Whether flits that come in by link j may be cut through (R442). -/
def State.cutThrough (s : State) (j : Nat) : Bool :=
  decide (s.fld (rCanoCal j) 63 48 ≤ 4 * (if s.linkState j = 4 then 420 else 448))

/-! ### Side traffic (R451–R453) -/

/-- Side flits whose 128 slots have run out by slot n, from the oldest unacknowledged on, are due again. -/
def State.sideDue (s : State) (k n : Nat) : State :=
  s.modLink k (fun l =>
    let late := l.unacked.filter (fun u => decide (u.2.1 + 128 ≤ n) && !(l.again.contains u.1))
    { l with again := l.again ++ late.map (·.1) })

/-- Flits that wait in local units take free places of a side queue. -/
def State.feedSide (s : State) (k : Nat) : State :=
  match s.sideWait.find? (fun p => p.1 == k) with
  | some (_, f) =>
    if (s.link k).side.length < 64 then
      { s.modLink k (fun l => { l with side := l.side ++ [f] }) with sideWait := s.sideWait.erase (k, f) }
    else s
  | none => s

/-- The side flit that slot n of link k carries, or IDLE. -/
def State.takeSide (s0 : State) (k n : Nat) : State × Flit :=
  let s := s0.sideDue k n
  let l := s.link k
  match l.again with
  | q :: rest =>
    match l.unacked.find? (fun u => u.1 == q) with
    | some (_, _, f) =>
      (s.modLink k (fun l => { l with
        again := rest, unacked := l.unacked.map (fun u => if u.1 = q then (q, n, u.2.2) else u) }),
       ⟨sideHeader f q, f.body⟩)
    | none => (s.modLink k (fun l => { l with again := rest }), idleFlit)
  | [] =>
    match l.side with
    | f :: rest =>
      let q := s.fld (rSideSeq k) 11 0
      let s1 := s.modLink k (fun l => { l with side := rest, unacked := l.unacked ++ [(q, n, f)] })
      ((s1.setFld (rSideSeq k) 11 0 ((q + 1) % 4096)).feedSide k, ⟨sideHeader f q, f.body⟩)
    | [] => (s, idleFlit)

/-- Whether a list of links all have a free place in their side queues. -/
def State.roomFor (s : State) (ks : List Nat) : Bool := ks.all (fun k => decide ((s.link k).side.length < 64))

/-- The notices by which a Keeper tells its runtime: sources 656–671. -/
def State.noticeAll (s : State) : State := (List.range 16).foldl (fun s t => s.raiseAll (656 + t)) s

/-- A side flit delivered here: agreement flits act, a ROLLBACK reaches the Keeper (R603), a report of the neighbour's
transmit offset sets it (R435); others stay in the inbox. -/
def State.deliverSide (s : State) (link : Nat) (f : SideFlit) : State :=
  match bits f.body 7 0 with
  | 1 => agreement s link f.body
  | 2 => { s.noticeAll with inbox := s.inbox ++ [(link, f)] }
  | _ =>
    match Config.calReport f.body with
    | some o => s.modLink link (fun l => { l with peerOff := o })
    | none => { s with inbox := s.inbox ++ [(link, f)] }

/-- A SIDE or FLOOD flit arrives on link k: taken only in order and where every queue it needs has room. -/
def State.acceptSide (s : State) (k : Nat) (h : BitVec 128) (body : BitVec 2048) : State :=
  let next := s.fld (rSideSeq k) 43 32
  if Hdr.seq h ≠ next then s
  else
    let take (s : State) : State := s.setFld (rSideSeq k) 43 32 ((next + 1) % 4096)
    if Hdr.type h = 5 then
      let fid := bits h 47 32
      let o := Hdr.dest h
      if s.floods.contains (o, fid) then (take s).seeFlood o fid
      else
        let outs := (List.range 24).filter (fun j => decide (j ≠ k) && s.linkUp j)
        if s.roomFor outs then
          ((take (s.seeFlood o fid)).queueUp (fromLink k) (some k) ⟨true, o, fid, body⟩).deliverSide k ⟨true, o, fid, body⟩
        else s
    else
      let f : SideFlit := ⟨false, Hdr.dest h, 0, body⟩
      if Hdr.dest h = s.fld rModid 16 0 then (take s).deliverSide k f
      else
        match s.routeLink (Hdr.dest h) with
        | none => (take s).countLink k 5
        | some j => if s.roomFor [j] then (take s).queueSide (fromLink k) j f else s

/-- SIDE_RESEND: 128 slots after it was sent the oldest unacknowledged side flit, and those after it, are due again. -/
def sideResend (s : State) (k : Nat) : State :=
  match (s.link k).unacked with
  | [] => s
  | (_, n, _) :: _ =>
    let s1 := s.toCt (slotCt * (n + 128))
    s1.sideDue k (s1.ct / slotCt)

/-! ### Sending a slot (R432, R436, R439, R443, R445, R448) -/

/-- The control word of slot n of link k. -/
def State.controlWord (s : State) (k n : Nat) : W64 :=
  let l := s.link k
  let rx := if n < 256 then 0 else (Tab.get (0 : W16) l.rxOffs (n - 256)).toNat
  let rrq := match l.asks with | a :: _ => 2 ^ 20 + a % 4096 * 2 ^ 21 | [] => 0
  let rack := match l.racks with | a :: _ => 2 ^ 33 + a % 4096 * 2 ^ 34 | [] => 0
  BitVec.ofNat 64 (rx + (s.flag rTstat 3).toNat * 2 ^ 16 + s.timeState * 2 ^ 17 + rrq + rack +
    (s.fld (rSideSeq k) 43 32 + 4095) % 4096 * 2 ^ 46 + l.ldeg.toNat * 2 ^ 58)

/-- The flit of a SEND slot: the head of the FIFO with SCHED set; IDLE, an underrun, where it is empty (R439); FILL where
the CRU has nothing due (R477). -/
def State.sendFlit (s : State) (k n f : Nat) : State × Flit :=
  let e := edgeOfLink k
  let put (x : FifoFlit) : Flit := { x.flit with hdr := setBits x.flit.hdr 113 90 ((n + 23 * (x.hops - 1)) % 2 ^ 24) }
  match s.fifo e f with
  | x :: rest =>
    if s.cruFed e f && decide (n < x.due) then (s.fillSlot e f n, ⟨redHeader 0 0 0 3 n, 0⟩) else (s.setFifo e f rest, put x)
  | [] =>
    if s.cruFed e f then (s.fillSlot e f n, ⟨redHeader 0 0 0 3 n, 0⟩)
    else
      let s1 := s.countLink k 6
      (if s1.inClearing then s1 else s1.failCanopy k 5 n, idleFlit)

/-- The flit of a FWD slot of link k: what link j received 23 slots before, for another module, else VOID; VOID too where a router
dropped it on its way to k's Edge die. -/
def State.forward (s : State) (k j n : Nat) : State × Flit :=
  if n < 23 ∨ s.cutThrough j = false ∨ (edgeOfLink k ≠ edgeOfLink j ∧ (s.link j).crossLost.contains (n - 23)) then (s, voidFlit)
  else
    match (s.link j).got.find? (fun g => g.1 == n - 23) with
    | some (_, f) => (s, f)
    | none => (s, voidFlit)

/-- The flit of a RETRY slot: the first one reserved, else side traffic, else IDLE. -/
def State.retrySlot (s : State) (k n : Nat) : State × Flit :=
  match (s.link k).resv.find? (fun r => decide (r.1 ≤ n)) with
  | some r => (s.modLink k (fun l => { l with resv := l.resv.erase r }), r.2)
  | none => s.takeSide k n

/-- The flit that slot n of link k carries, as its state and its table direct (R436, R454). -/
def State.slotFlit (s : State) (k n : Nat) : State × Flit :=
  let e := s.entry k n
  if s.linkState k = 2 then s.takeSide k n
  else match e / 8192 with
    | 0 => s.takeSide k n
    | 1 => s.sendFlit k n (e % 16)
    | 2 => if e % 32 < 24 then s.forward k (e % 32) n else (s, voidFlit)
    | 3 => s.retrySlot k n
    | _ => s.takeSide k n

/-- How far back the slot of a retried or relayed flit is looked for, in slots. -/
def relaySpan : Nat := 8192

/-- SLOT: link k sends its next slot image as its state and its table direct. -/
def slotSend (s : State) (k : Nat) : State :=
  if s.linkUp k = false then s
  else
    let n0 := Nat.max (s.link k).nextSlot ((s.ct + slotCt - 1) / slotCt)
    let n := if (s.link k).single && n0 % 2 = 1 then n0 + 1 else n0
    let s1 := s.toCt (slotCt * n)
    let r := s1.slotFlit k n
    let f := r.2
    let s2 := r.1.send (.slot k n (slotImage f (r.1.controlWord k n)))
    s2.modLink k (fun l => { l with
      nextSlot := n + (if l.single then 2 else 1)
      racks := l.racks.drop 1
      store := (l.store ++ (if Hdr.scheduled f.hdr then [(n, f)] else [])).filter (fun x => decide (n < x.1 + 40))
      answered := l.answered.filter (fun a => decide (n < a + 40))
      rxOffs := l.rxOffs.filter (fun p => decide (n < p.1 + 512))
      carried := l.carried.filter (fun m => decide (n < m + relaySpan)), crossLost := l.crossLost.filter (fun m => decide (n < m + 64)) })

/-! ### Retry (R444–R448) -/

/-- The first free RETRY slot of link k at or after `from_`, within `fuel` slots. -/
def State.freeRetry (s : State) (k : Nat) : Nat → Nat → Option Nat
  | 0, _ => none
  | fuel + 1, n =>
    if s.entry k n / 8192 = 3 ∧ !((s.link k).resv.any (fun r => r.1 == n)) ∧ s.usesSlot k n then some n
    else s.freeRetry k fuel (n + 1)

/-- The slot number nearest `near` that agrees with `m` modulo 2^w. -/
def nearest (w m near : Nat) : Nat :=
  let x := near / 2 ^ w * 2 ^ w + m
  if near + 2 ^ (w - 1) < x then x - 2 ^ w else if x + 2 ^ (w - 1) ≤ near then x + 2 ^ w else x

/-- A retry that cannot be made fails the step (R446). -/
def State.retryLate (s : State) (k cause n : Nat) : State := (s.countLink k 3).failCanopy k cause n

/-- The neighbour requests slot number m (mod 4,096); a flit that is to be resent counts in CANO.RETRY (R445, R446). -/
def State.retryAsked (s : State) (k m : Nat) : State :=
  let now := s.ct / slotCt
  let n := nearest 12 m now
  let l := s.link k
  let s1 := s.modLink k (fun l => { l with racks := if l.racks.contains n then l.racks else l.racks ++ [n] })
  if l.answered.contains n then s1
  else
    let s2 := s1.modLink k (fun l => { l with answered := n :: l.answered })
    match l.store.find? (fun x => x.1 == n) with
    | none => s2
    | some (_, f) =>
      if Hdr.retried f.hdr then s2.retryLate k 3 n
      else
        let from_ := Nat.max (n + s.fld (rCanoCal k) 47 40) (Nat.max l.nextSlot now)
        match s2.freeRetry k (n + 41 - from_) from_ with
        | none => s2.retryLate k 2 n
        | some r => (s2.countLink k 2).modLink k (fun l => { l with resv := l.resv ++ [(r, { f with hdr := setBit f.hdr 6 true })] })

/-- A receiver loses slot n: it requests it, or fails the step where it holds four requests (R444). -/
def State.slotLost (s : State) (k n : Nat) : State :=
  if (s.link k).asks.length < 4 then s.modLink k (fun l => { l with asks := l.asks ++ [n] })
  else (s.countLink k 3).failCanopy k 6 n

/-- RETRY_REQUEST_TIMEOUT: slot n + 40 has begun at the sender with the request for n unanswered. -/
def retryTimeout (s : State) (k : Nat) : State :=
  match (s.link k).asks with
  | [] => s
  | n :: rest => ((s.toCt (slotCt * (n + 40))).modLink k (fun l => { l with asks := rest })).failCanopy k 4 n

/-! ### Receiving a slot (R434, R435, R441, R448, R449) -/

/-- The links whose active tables forward input j in slot m. -/
def State.forwarders (s : State) (j m : Nat) : List Nat :=
  (List.range 24).filter (fun k => 3 ≤ s.linkState k && s.usesSlot k m && s.entry k m / 8192 == 2 && s.entry k m % 32 == j)

/-- The slot of link j in which a flit that came in slot n was scheduled: n itself, or for a retried or relayed flit the
latest slot up to n that its SCHED allows, from which some link forwards, and which has carried no flit of its own (log entry
122). -/
def State.schedSlot (s : State) (j n : Nat) (h : BitVec 128) : Nat :=
  if bit h 6 || bit h 7 then
    let sched := nearest 24 (Hdr.sched h) n
    ((List.range (Nat.min (n + 1) relaySpan)).find? (fun d =>
      let m := n - d
      decide (m ≤ sched) && ((sched - m) % 23 == 0) && !((s.link j).carried.contains m) &&
        !(s.forwarders j (m + 23)).isEmpty)).elim n (fun d => n - d)
  else n

/-- A flit for another module, come in slot n and scheduled in slot m: kept for its FWD slots, relayed by the links whose slot
has gone by, or refused where none forwards it; a flit for a link of the other Edge die crosses the mesh in row j mod 16
(R331, R441, R443, R448). -/
def State.passOn (s : State) (j n m : Nat) (f : Flit) : State :=
  let outs := s.forwarders j (m + 23)
  if outs.isEmpty then (s.countLink j 5).failCanopy j 0 n
  else
    let s0 := s.modLink j (fun l => { l with got := (l.got.filter (fun g => decide (n < g.1 + 64))) ++ [(m, f)] })
    let e := edgeOfLink j
    let s1 :=
      if outs.any (fun k => edgeOfLink k ≠ e) then
        s0.launch j (.edge 0 j) (.thru m) (acrossHops e (j % 16) (s0.edgeCycle (routerAt (edgeColumn e) (j % 16))))
      else s0
    outs.foldl (fun s k =>
      if (s.link k).nextSlot ≤ m + 23 ∧ s.ct ≤ slotCt * (m + 23) then s
      else
        let from_ := Nat.max (s.link k).nextSlot ((s.ct + slotCt - 1) / slotCt + 5)
        match s.freeRetry k 8192 from_ with
        | none => s
        | some r => s.modLink k (fun l => { l with resv := l.resv ++ [(r, { f with hdr := setBit f.hdr 7 true })] })) s1

/-- A DATA flit for this module: with its other half the row goes to the slice (R441). -/
def State.dataFlit (s : State) (k : Nat) (f : Flit) : State :=
  let l := s.link k
  let pair (g : Flit) : Bool := Hdr.addr g.hdr == Hdr.addr f.hdr && Hdr.half g.hdr != Hdr.half f.hdr
  match l.halves.find? pair with
  | none => s.modLink k (fun l => { l with halves := l.halves ++ [f] })
  | some g =>
    let s1 := s.modLink k (fun l => { l with halves := l.halves.erase g })
    let lo := if Hdr.half f.hdr then g else f
    let hi := if Hdr.half f.hdr then f else g
    let row : Row := lo.body.setWidth 4096 ||| (hi.body.setWidth 4096 <<< 2048)
    let e := edgeOfLink k
    let sig := if Hdr.sig lo.hdr || Hdr.sig hi.hdr then some (Hdr.sigf f.hdr) else none
    match combTarget (Hdr.addr f.hdr) with
    | none => (s1.countLink k 5).failCanopy k 0 (s.ct / slotCt)
    | some (n, r) =>
      if s1.inService n then
        s1.edgeRow e k (s1.physOf n) r row sig
      else (s1.countLink k 5).failCanopy k 0 (s.ct / slotCt)

/-- A DATA or RED flit arrives in slot n of link k, its last byte at `t` edge steps (R449). -/
def State.scheduledFlit (s : State) (k n t : Nat) (f : Flit) : State :=
  if Hdr.type f.hdr = 2 ∧ bits f.hdr 55 54 = 3 then s
  else
    let mine := Hdr.dest f.hdr == s.fld rModid 16 0
    let at_ := if mine then nearest 24 (Hdr.sched f.hdr) n else s.schedSlot k n f.hdr
    let s1 := if Hdr.retried f.hdr then s.modLink k (fun l => { l with asks := l.asks.filter (· ≠ at_) }) else s
    let s2 := if at_ = n then s1.modLink k (fun l => { l with carried := n :: l.carried }) else s1
    if !mine then s2.passOn k n at_ f
    else
      let sched := nearest 24 (Hdr.sched f.hdr) n
      if 4 * (slotCt * (sched + 1)) + s.deltaR k + 4 * s.fld rMargin 15 0 < t then (s2.countLink k 3).failCanopy k 1 n
      else if Hdr.type f.hdr = 1 then s2.dataFlit k f
      else { s2 with redIn := s2.redIn ++ [(k, f)] }

/-- The control word of the neighbour's slot n: time transfer, side acknowledgements, retry and lane state. -/
def State.readControl (s : State) (k n : Nat) (rx : Int) (w : W64) : State :=
  let l := s.link k
  let qual := bit w 16
  let s1 := s.setFld (rCanoStat k) 14 14 qual.toNat
  let fwd : Int := signed 16 (bits w 15 0) - l.txOff
  let rev : Int := rx - l.peerOff
  let alpha : Int := signed 16 (s.fld (rCanoCal k) 31 16)
  let theta2 : Int := fwd - rev - alpha
  let s2 := s1.modLink k (fun l => { l with
    rxOffs := Tab.put l.rxOffs n (BitVec.ofInt 16 rx)
    times := if qual && decide (256 ≤ n) then (⟨fwd, rev, theta2⟩ :: l.times).take 65536 else l.times })
  let sack := bits w 57 46
  let covered (q : Nat) : Bool := decide ((sack + 4096 - q) % 4096 < 2048)
  let s3 := (s2.setFld (rSideSeq k) 27 16 sack).modLink k (fun l => { l with
    unacked := l.unacked.filter (fun u => !(covered u.1)), again := l.again.filter (fun q => !(covered q)) })
  let s4 := if bit w 33 then
      s3.modLink k (fun l => { l with asks := l.asks.filter (fun a => a % 4096 ≠ bits w 45 34) })
    else s3
  let s5 := if bit w 20 then s4.retryAsked k (bits w 32 21) else s4
  let s6 := if bit w 58 then
      s5.modLink k (fun l => { l with ldegSeen := some (l.ldegSeen.getD (s5.ct / slotCt)) })
    else s5
  if qual then s6 else s6.unschedule k

/-- What forward error correction says of one codeword: 0 without error, 1 corrected, else uncorrectable. -/
def fecOf (fec codeword : Nat) : Nat := fec / 4 ^ codeword % 4

/-- SLOT_RECEIVE: the verdict on the neighbour's slot n of link k, whose image came `rx` edge steps after 28n ct, framed for
one lane or for two; `fec` gives the verdict on each codeword. Corrected codewords count, also beside an uncorrectable one
(R434, R455). -/
def slotReceive (s : State) (k n : Nat) (image : Image) (fec : Nat) (oneLane : Bool) (rx : Int) : State :=
  if s.linkUp k = false then s
  else
    let t := ((4 * slotCt * (n + if oneLane then 2 else 1) : Nat) + rx).toNat
    let s0 := s.toCt ((t + 3) / 4 + slotCt)
    let s1 := s0.countMod 32 32 (rCanoCnt k 0) ((fecOf fec 0 == 1).toNat + (fecOf fec 1 == 1).toNat)
    if 2 ≤ fecOf fec 0 ∨ 2 ≤ fecOf fec 1 then (s1.countLink k 1).slotLost k n
    else
      let s2 := s1
      let f : Flit := ⟨BitVec.ofNat 128 (bits image 127 0), BitVec.ofNat 2048 (bits image 2175 128)⟩
      let s3 := s2.readControl k n rx (BitVec.ofNat 64 (bits image 2239 2176))
      match Hdr.type f.hdr with
      | 1 => if 3 ≤ s3.linkState k then s3.scheduledFlit k n t f else s3
      | 2 => if 3 ≤ s3.linkState k then s3.scheduledFlit k n t f else s3
      | 3 => s3.acceptSide k f.hdr f.body
      | 5 => s3.acceptSide k f.hdr f.body
      | _ => s3

/-! ### DMA channels (R440, R458) -/

/-- A write to CANO.TXc.CTL: GO starts the channel, or is ignored and sets ERR. -/
def txCtlWrite (s : State) (e c : Nat) (v : W64) : State :=
  let r := rTx e c 2
  let old := s.reg r
  let clear (x : W64) : W64 := if bit v 19 && !bit (s.kept r) 19 then setBit x 19 false else x
  if bit v 16 then
    if bit old 18 || bit old 17 || bit v 17 then s.setReg r (setBit (clear old) 19 true)
    else { s.setReg r (setBit (clear (setBits old 17 0 (bits v 15 0))) 18 true) with dma := Tab.put s.dma (16 * e + c) 0 }
  else s.setReg r (clear (setBits old 17 0 (bits v 17 0)))

/-- DMA_GO. -/
def dmaGo (s : State) (e c : Nat) (v : W64) : State := txCtlWrite s e c (setBit v 16 true)

/-- A DMA channel ends; with an error it fails the step. -/
def State.dmaEnd (s : State) (e c : Nat) (err : Bool) : State :=
  let s1 := { s.clrFlag (rTx e c 2) 18 with dma := Tab.erase s.dma (16 * e + c) }
  if err then (s1.event (rTx e c 2) 19).failCanopy (12 * e) 0 (s.ct / slotCt) else s1

/-- The two DATA flits of a row (R440). -/
def dataFlits (dst : W64) (j : Nat) (last : Bool) (v : Row) : List Flit :=
  let sig := last && bit dst 57
  let addr := (bits dst 50 17 + 512 * j) % 2 ^ 34
  let hdr (h : Nat) : BitVec 128 := BitVec.ofNat 128 (1 + h * 16 + sig.toNat * 32 + bits dst 16 0 * 2 ^ 8 +
    bits dst 56 51 * 2 ^ 25 + addr * 2 ^ 32)
  [⟨hdr 0, BitVec.ofNat 2048 (bits v 2047 0)⟩, ⟨hdr 1, BitVec.ofNat 2048 (bits v 4095 2048)⟩]

/-- Row j of what a channel reads: of the Cellar, or of a slice (R440). -/
def State.dmaSource (s : State) (e c j : Nat) : State × Option Row :=
  let src := s.reg (rTx e c 0)
  if bit src 63 then
    let r := bits src 30 0 + j
    if 1476562499 < r then (s, none) else (s.toCt (s.rowFree r)).readCellar r 2
  else
    match combTarget (bits src 33 0) with
    | none => (s, none)
    | some (n, r) => 
      if 49151 < r + j then (s, none)
      else (match s.edgeRead e (0x1F2 + e) [(n, r + j)] with | (s1, v :: _) => (s1, v) | (s1, []) => (s1, none))

/-- Whether the Cellar row that a channel reads next must wait for a retraining or a repair (R506, R507). -/
def State.dmaHeld (s : State) (e c : Nat) : Bool :=
  let src := s.reg (rTx e c 0)
  bit src 63 && s.rowHeld (bits src 30 0 + Tab.get 0 s.dma (16 * e + c))

/-- DMA_ROW_READ: a busy channel reads its next row, from NB.TIME on and with room for two flits. -/
def dmaRow (s0 : State) (e c : Nat) : State :=
  if s0.flag (rTx e c 2) 18 = false ∨ 62 < (s0.fifo e c).length ∨ s0.dmaHeld e c then s0
  else
    let s := s0.toCt (s0.reg (rTx e c 3)).toNat
    let j := Tab.get 0 s.dma (16 * e + c)
    let dst := s.reg (rTx e c 1)
    match s.dmaSource e c j with
    | (s1, none) => s1.dmaEnd e c true
    | (s1, some v) =>
      let last := decide (s1.fld (rTx e c 2) 15 0 ≤ j)
      let fl := (dataFlits dst j last v).map (fun f => (⟨f, bits dst 62 58 + 1, 0⟩ : FifoFlit))
      let s2 := { s1.setFifo e c (s1.fifo e c ++ fl) with dma := Tab.put s1.dma (16 * e + c) (j + 1) }
      if last then s2.dmaEnd e c false else s2

/-- A write to CANO.TXc.SRC, DST or NB (R458). -/
def txWrite (s : State) (e c j : Nat) (v : W64) : State :=
  if s.flag (rTx e c 2) 18 then s.event (rTx e c 2) 19
  else s.setReg (rTx e c j) (match j with
    | 0 => v &&& BitVec.ofNat 64 (2 ^ 63 + 2 ^ 34 - 1)
    | 1 => v &&& BitVec.ofNat 64 (2 ^ 63 - 1)
    | _ => v)

/-! ### Slot-table banks (R437) -/

/-- BANK_SWAP: SWAP written to CANO.BANK. -/
def bankSwap (s : State) : State := s.setFlag rBank 1

/-- SLOT_TABLE_SWAP: a pending swap takes place at the first multiple of 114,688 ct inside a clearing. -/
def tableSwap (s : State) : State :=
  if s.flag rBank 1 = false then s
  else
    match s.clearingMultiple slotCycle with
    | none => s
    | some t => ((s.toCt t).clrFlag rBank 1).setFld rBank 0 0 (1 - s.fld rBank 0 0)

/-- A write to a slot-table register: refused in the active bank. -/
def slotTableWrite (s : State) (k b i : Nat) (v : W64) : State :=
  if b = s.fld rBank 0 0 then s.event rBank 2 else s.setReg (blkCANO k + 0x8000 + b * 0x2000 + 8 * i) v

/-- A write to CANO.MODID: only while QUAL is 0. -/
def modidWrite (s : State) (v : W64) : State := if s.flag rTstat 3 then s else s.setReg rModid (v &&& 0x1FFFF)

/-! ### Lanes, link states and calibration (R454–R456) -/

/-- A link in SCHED becomes DEGRADED; outside a clearing the change fails the step. -/
def State.degrade (s : State) (k : Nat) : State :=
  let s1 := if s.linkState k = 3 then s.setFld (rCanoStat k) 2 0 4 else s
  if 3 ≤ s.linkState k ∧ s1.inClearing = false then s1.failCanopy k 0 (s1.ct / slotCt) else s1

/-- LANE_FAILURE: the receiver of link k has lost a lane: it sets LDEG.  With both receive lanes lost the link is down. -/
def laneFailure (s : State) (k : Nat) (lane : Bool) : State :=
  if s.linkUp k = false then s
  else
    let s1 := s.setFld (rCanoStat k) (11 + lane.toNat) (11 + lane.toNat) 0
    let s2 := s1.modLink k (fun l => { l with ldeg := true })
    if s2.fld (rCanoStat k) 12 11 = 0 then (s2.unschedule k).setFld (rCanoStat k) 2 0 0 else s2.degrade k

/-- LANE_DEGRADE: from the first even slot at least 64 slots after LDEG came, the direction sends on one lane. -/
def laneDegrade (s : State) (k : Nat) : State :=
  match (s.link k).ldegSeen with
  | none => s
  | some m =>
    if (s.link k).single ∨ s.linkUp k = false then s
    else
      let n := (m + 65) / 2 * 2
      let s1 := s.toCt (slotCt * n)
      let lost := if Config.lostLane s1.free then 10 else 9
      let s2 := { s1.setFld (rCanoStat k) lost lost 0 with free := s1.free + 1 }
      (s2.modLink k (fun l => { l with single := true, nextSlot := Nat.max l.nextSlot n })).degrade k

/-- SCHED_ENTRY: with its five conditions met a link enters SCHED at the first slot-cycle boundary inside a clearing. -/
def schedEntry (s : State) (k : Nat) : State :=
  if s.linkState k = 2 ∧ s.fld (rCanoStat k) 12 9 = 15 ∧ (s.link k).calibrated ∧ s.admitted k ∧ s.flag rTstat 3 ∧
      s.flag (rCanoStat k) 14 then
    match s.clearingMultiple slotCycle with
    | none => s
    | some t => (s.toCt t).setFld (rCanoStat k) 2 0 3
  else s

/-- A write to CANO.CTL: EN, and RECAL, which requests a full recalibration. -/
def canoCtlWrite (s : State) (k : Nat) (v : W64) : State :=
  let s1 := s.setFld (rCanoCtl k) 0 0 (bits v 0 0)
  let s2 := if bit v 0 then s1
    else ((s1.unschedule k).setFld (rCanoStat k) 2 0 0).modLink k (fun l => { l with calibrated := false })
  if bit v 8 then s2.setFlag (rCanoStat k) 15 else s2

/-- RECAL. -/
def recal (s : State) (k : Nat) : State := s.setFlag (rCanoStat k) 15

/-- FULL_RECALIBRATION: a pending one inside a clearing, or the first since the link came up: it measures the delays, the
asymmetry and the transmit offset, reports that by side traffic, and brings lost lanes back (R435, R456). -/
def fullRecal (s : State) (k : Nat) (tx alpha delay delayr : W16) : State :=
  if s.linkUp k = false ∨ (s.flag (rCanoStat k) 15 = false ∧ (s.link k).calibrated) then s
  else
    let s0 := if s.inClearing then s else s.toCt (s.reg rClrBegin).toNat
    if s0.inClearing = false then s
    else
      let loop := 4 + (delay.toNat + 111) / 112 + (delayr.toNat + 111) / 112
      let s1 := s0.setReg (rCanoCal k) (BitVec.ofNat 64 (delay.toNat + alpha.toNat * 2 ^ 16 + loop % 256 * 2 ^ 40 + delayr.toNat * 2 ^ 48))
      let s2 := (s1.clrFlag (rCanoStat k) 15).setFld (rCanoStat k) 12 9 15
      let s3 := if s2.linkState k = 4 then s2.setFld (rCanoStat k) 2 0 2 else s2
      let s4 := s3.modLink k (fun l => { l with
        calibrated := true, ldeg := false, ldegSeen := none, single := false, txOff := signed 16 tx.toNat })
      let s5 := s4.queueSide (edgeOfLink k, 15) k ⟨false, Config.calDest k % 2 ^ 17, 0, Config.calBody (signed 16 tx.toNat)⟩
      if s5.admitted k then s5 else s5.unschedule k

/-- CANO.STAT as it reads: ADMIT follows the delays, once a full calibration has measured them. -/
def canoStatRead (s : State) (k : Nat) : W64 := setBit (s.reg (rCanoStat k)) 13 ((s.link k).calibrated && s.admitted k)

/-- CANOPY_TRAIN: a link with EN = 1 that is down trains and comes up in UNSCHED on the lanes acquired, where each direction
has one; side flits queued or not acknowledged stay, with their sequence numbers (R451, R454, 23). -/
def canopyTrain (s : State) (k lanes : Nat) : State :=
  if s.flag (rCanoCtl k) 0 = false ∨ s.linkUp k then s
  else if lanes % 4 = 0 ∨ lanes / 4 % 4 = 0 then s.setFld (rCanoStat k) 2 0 1
  else
    let s1 := (s.setFld (rCanoStat k) 12 9 lanes).setFld (rCanoStat k) 2 0 2
    s1.modLink k (fun l => {
      side := l.side, unacked := l.unacked, again := l.again, nextSlot := (s.ct + slotCt - 1) / slotCt
      single := decide (lanes % 4 ≠ 3), ldeg := decide (lanes / 4 % 4 ≠ 3), codeNew := l.codeNew })

/-- LANE_CODE_BANK_SWITCH: a link's lane controller switches to its idle code bank at a slot-cycle boundary (R564). -/
def laneCodeSwitch (s : State) (k : Nat) : State :=
  if (s.link k).codeNew then (s.toCt (nextMultiple slotCycle s.ct)).modLink k (fun l => { l with codeNew := false }) else s

end Sys2Proof.Machine
end

