-- ==== Sys2Proof/Machine/Fence.lean ====
section
/-! DEFINITION.
The ordered mode, program images, the core maps, fences, leases and rollback (spec 01 R31, 12 R374, 13 R391–R394,
22 R596–R611). -/

namespace Sys2Proof.Machine

def offFence : Nat := 0x0B28

/-! ### Mode and images -/

/-- ORDERED_WRITE: a write to MOD.CTL (R31). -/
def orderedWrite (s : State) (v : W64) : State :=
  if bit v 0 = s.flag 0x8 0 then s
  else if s.anyTask then s.event 0x10 1
  else (s.setFld 0x8 0 0 (bits v 0 0)).setFld 0x10 0 0 (bits v 0 0)

/-- IMAGE_WRITE: a write to CORE.IMAGE (R374, R642). -/
def imageWrite (s : State) (i : Nat) (v : W64) : State :=
  let s1 := if bit v 63 then s.coreClear i 0xD48 63 else s
  if (s.core i).fld 0xD48 30 0 = bits v 30 0 then s1
  else if (s.core i).anyTask then s1.coreEvent i 0xD48 63
  else s1.modCore i (fun k => k.setFld 0xD48 30 0 (bits v 30 0))

/-! ### Gates (R596) -/

/-- The Keeper's entry in the fence record: the position fenced (2) or returned (1), FORMER, FVALID and the time (R608). -/
def State.recordFence (s : State) (i st : Nat) : State :=
  let w := (s.core i).reg offFence
  { s with nv := { s.nv with fenceRec := Tab.put s.nv.fenceRec i (st, bits w 24 16, bit w 25, s.ct) } }

/-- The position is gated: recorded and fenced, its tasks ended, its former number recorded, and the step failed where one runs. -/
def State.gate (s : State) (i : Nat) : State :=
  let s1 := match s.logicalOf i with
    | some n => s.modCore i (fun k => (k.setFld offFence 24 16 n).setFld offFence 25 25 1)
    | none => s
  let s2 := [0, 1, 2, 3].foldl (fun s n => endTask s i n) s1
  let s3 := (s2.modCore i (fun k => { k.setFld offFence 3 2 2 with gateAt := some s.ct })).recordFence i 2
  if 2 ≤ s3.phase then s3.failCurrent else s3

/-- An OP of CORE.FENCE that its rule refuses. -/
def State.fenceRefused (s : State) (i : Nat) : State := s.coreEvent i offFence 26

/-- GATE. -/
def gateOp (s : State) (i : Nat) : State := if s.fence i = 0 then s.gate i else s.fenceRefused i

/-- The cycle by which every context clear of a core that holds no other task has completed (R596). -/
def Core.clearsEnd (k : Core) : Option Nat :=
  [0, 1, 2, 3].foldl (fun a n => match a, (k.getCtx n).mode with
    | some u, .noTask => some u
    | some u, .closing e => some (Nat.max u e)
    | _, _ => none) (some 0)

/-- FENCE_DEEP_ENTRY: a gated core enters Deep once its context clears have completed, or 10 µs after the write. -/
def fenceDeep (s : State) (i : Nat) : State :=
  match (s.core i).gateAt with
  | none => s
  | some t =>
    let s1 := match (s.core i).clearsEnd with
      | some u => s.toCt (Nat.min (s.edgeOf u) (t + 10 * ctPerUs))
      | none => s.toCt (t + 10 * ctPerUs)
    let s2 := s1.modCore i (fun k => { k with gateAt := none })
    match (s2.core i).power with
    | .deep => s2
    | .deepEntry _ => s2
    | _ => (s2.freeHalts i).enter i true

/-- PROBE (R606). -/
def probeOp (s : State) (i : Nat) : State :=
  if s.fence i = 2 ∧ (s.logicalOf i).isNone then s.modCore i (fun k => k.setFld offFence 5 5 1) else s.fenceRefused i

/-- Every byte of a slice's physical rows reads as zero, without error. -/
def State.wipeSlice (s : State) (i : Nat) : State :=
  { s with comb := Tab.eraseRange s.comb (combAddr i 0) (50176 * 512) }

/-- What a core keeps through a RETURN: its repairs, its GHOST, FENCE and slice registers (R607). -/
def Core.wiped (k : Core) : Core :=
  let d := k.deepZero
  { d with
    regs := d.regs.filter (fun p => p.1 == offFence || p.1 == 0xB20 || decide (0x8000 ≤ p.1 ∧ p.1 < 0x8100)), wins := [], hold := []
    rbuf := [], records := [], defects := [], rewrites := [], wcount := [], heldStart := [], wq := []
    waggle := k.waggle.map (fun p => (p.1, { epoch := p.2.epoch })), power := .deep, array := some 0, wakeDue := none }

/-- Whether a copy runs from or to a slice. -/
def State.copying (s : State) (i : Nat) : Bool :=
  s.cores.any (fun p => match p.2.copy with | some y => p.1 == i || y.target == i | none => false)

/-- RETURN: the private state is zeroed, every physical row is being written with zeros, and the core is in Deep (R607). -/
def returnOp (s : State) (i : Nat) : State :=
  if s.fence i = 2 ∧ s.copying i = false then
    let c := s.cycOf i + 50176
    (((s.recordFence i 1).wipeSlice i).freeHalts i).modCore i (fun k => { (k.wiped).setFld offFence 5 5 0 with gateAt := none, wipeAt := some c })
  else s.fenceRefused i

/-- RETURN_COMPLETE: the wipe has ended and the position is a spare. -/
def returnDone (s : State) (i : Nat) : State :=
  match (s.core i).wipeAt with
  | none => s
  | some c => (s.toCt (if c ≤ s.cyc then s.ct else s.edgeOf c)).modCore i (fun k => { k.setFld offFence 3 2 1 with wipeAt := none })

/-- A write to CORE.FENCE: its fields during bring-up only, then its OP (R614). -/
def fenceWrite (s : State) (inp i : Nat) (v : W64) : State :=
  let s0 := if bit v 26 && inp + s.activeKeeper != 35 then s.coreClear i offFence 26 else s
  s0.byKeeper inp
    (fun s =>
      let s1 :=
        if s.bootReady ∨ s.fence i = 3 then s
        else s.modCore i (fun k =>
          let k1 := (k.setFld offFence 25 25 (bits v 25 25)).setFld offFence 24 16 (bits v 24 16)
          if bits v 3 2 = 1 ∨ bits v 3 2 = 2 then k1.setFld offFence 3 2 (bits v 3 2) else k1)
      match bits v 1 0 with
      | 1 => gateOp s1 i
      | 2 => probeOp s1 i
      | 3 => returnOp s1 i
      | _ => s1)
    (fun s => if bits v 1 0 = 0 then s else s.fenceRefused i)

/-! ### The core maps (R391–R393, R597, R598) -/

/-- Whether position `pos` of logical core n's die may take it: its present one, or a healthy spare (R393, R598). -/
def State.mapOk (s : State) (n pos : Nat) : Bool :=
  let i := 80 * (n / 72) + pos
  decide (pos < 80) && (s.fld (rMap n) 6 0 == pos ||
    (s.fence i == 1 && !((s.core i).fld offFence 25 25 == 1 && (s.core i).fld offFence 24 16 == n)))

/-- MAP_WRITE: a write to MOD.MAPn is accepted as a remap that awaits a clearing, or ignored. -/
def mapWrite (s : State) (inp n : Nat) (v : W64) : State :=
  s.byKeeper inp
    (fun s =>
      if bit v 8 ∧ s.mapOk n (bits v 6 0) = false then s.event rMapStat 0
      else { s.setFlag (rMap n) 16 with mapPend := Tab.put s.mapPend n (v &&& 0x17F) })
    (fun s => s.event rMapStat 0)

/-- What a remap copies from the old position to the new one (R597). -/
def Core.inherit (new old : Core) : Core :=
  let offs := [0x118, 0x138, 0x158, 0x178, 0xB40, 0xB48, 0xB50, 0xB58, 0xB18, 0xD48, 0x8068, 0x8048]
  let k1 := offs.foldl (fun k o => k.setReg o (old.reg o)) new
  let k2 := (List.range 16).foldl (fun k q =>
    let w : WaggleQ := Tab.get {} k.waggle q
    let o : WaggleQ := Tab.get {} old.waggle q
    { k with waggle := Tab.put k.waggle q { w with epoch := o.epoch } }) k1
  { k2.setFld offFence 3 2 0 with wcount := old.wcount }

/-- REMAP: a pending map change takes effect inside a clearing, in one cycle. -/
def remap (s : State) (n : Nat) : State :=
  match Tab.find s.mapPend n with
  | none => s
  | some v =>
    let s0 := if s.inClearing then s else s.toCt (s.reg rClrBegin).toNat
    if s0.inClearing = false then s
    else
      let s1 : State := { s0.clrFlag (rMap n) 16 with mapPend := Tab.erase s0.mapPend n }
      let old := s1.physOf n
      let new := 80 * (n / 72) + bits v 6 0
      let was := s1.inService n
      if bit v 8 ∧ old = new then s1.setFlag (rMap n) 8
      else
        let s2 := if was ∧ s1.fence old = 0 then s1.gate old else s1
        let s3 :=
          if was then (s2.modCore old (fun k => (k.setFld offFence 24 16 n).setFld offFence 25 25 1)).recordFence old 2 else s2
        let s4 := (s3.setFld (rMap n) 6 0 (bits v 6 0)).setFld (rMap n) 8 8 (bits v 8 8)
        if bit v 8 then
          let o := s4.core old
          (s4.modCore new (fun k => k.inherit o)).modCore old (fun k => { k with wcount := [] })
        else s4

/-- MOD.MAPSTAT as it reads. -/
def mapStatRead (s : State) : W64 :=
  let n := ((List.range 288).filter s.inService).length
  setBits (setBit (s.reg rMapStat) 1 (!s.mapPend.isEmpty)) 15 8 (Nat.min 255 n)

/-- MOD.CORES as it reads: in-service and spare positions of each die. -/
def coresRead (s : State) : W64 :=
  BitVec.ofNat 64 ((List.range 4).foldl (fun a d =>
    let act := ((List.range 72).filter (fun j => s.inService (72 * d + j))).length
    let spare := ((List.range 80).filter (fun c => s.fence (80 * d + c) == 1)).length
    a + (act * 256 + spare) * 2 ^ (16 * d)) 0)

/-! ### Leases (R609–R611) -/

def rLeaseStat : Nat := blkKEEP + 0x68
def rLease (n : Nat) : Nat := blkKEEP + 0x400 + 8 * n

/-- The kind of an activity, whether it is of class Repair, and whether it may be pre-empted. -/
def activity (a : Nat) : Option (Nat × Bool × Bool) :=
  match a with
  | 1 => some (0, true, false)
  | 2 => some (0, true, false)
  | 3 => some (0, false, true)
  | 4 => some (1, false, false)
  | 5 => some (1, true, false)
  | 6 => some (1, false, true)
  | 7 => some (2, false, false)
  | 8 => some (2, false, false)
  | 9 => some (3, false, false)
  | 10 => some (4, false, true)
  | 11 => some (4, true, false)
  | _ => none

/-- Whether a group number belongs to a kind. -/
def leaseGroup (kind g : Nat) : Bool :=
  match kind with
  | 0 => decide (g < 320)
  | 1 => decide (g < 12)
  | 2 => decide (g < 24)
  | 3 => decide (g < 662) || g == 0x3FF
  | 4 => decide (g < 4)
  | _ => false

def leaseState (w : W64) : Nat := bits w 63 61
def leaseKey (w : W64) : Nat := bits w 54 42
/-- A change of an entry's state is timed. -/
def State.setLease (s : State) (n : Nat) (w : W64) (st : Nat) : State :=
  s.setReg (rLease n) (setBits (setBits w 63 61 st) 39 0 (s.ct % 2 ^ 40))

/-- The entries of a group in a state, earliest change first. -/
def State.leasesIn (s : State) (key st : Nat) : List Nat :=
  let l := (List.range 64).filter (fun n => leaseState (s.reg (rLease n)) == st && leaseKey (s.reg (rLease n)) == key)
  l.foldl (fun (acc : List Nat) n =>
    let t := bits (s.reg (rLease n)) 39 0
    (acc.filter (fun m => decide (bits (s.reg (rLease m)) 39 0 ≤ t))) ++ [n] ++
      (acc.filter (fun m => decide (t < bits (s.reg (rLease m)) 39 0)))) []

/-- ACQUIRE (R609). -/
def acquire (s : State) (owner : Nat) (v : W64) : State :=
  let a := bits v 55 51
  let kind := bits v 50 48
  let g := bits v 47 38
  let refuse := s.event rLeaseStat 63
  match activity a, (List.range 64).find? (fun n => leaseState (s.reg (rLease n)) == 0) with
  | some (k, repair, _), some n =>
    if k ≠ kind ∨ leaseGroup kind g = false then refuse
    else
      let w : W64 := BitVec.ofNat 64 (owner * 2 ^ 60 + a * 2 ^ 55 + kind * 2 ^ 52 + g * 2 ^ 42)
      let held := s.leasesIn (leaseKey w) 1
      let orphan := s.leasesIn (leaseKey w) 4
      let p : State × Nat :=
        if !orphan.isEmpty then (s, 2)
        else match held with
          | [] => (s, 1)
          | h :: _ =>
            let hw := s.reg (rLease h)
            let pre := match activity (bits hw 59 55) with | some (_, _, p) => p | none => false
            if repair && pre then (s.setLease h hw 3, 1) else (s, 2)
      ((p.1.setLease n w p.2).setFld rLeaseStat 5 0 n).setFld rLeaseStat 8 6 p.2
  | _, _ => refuse

/-- RELEASE: the entry is free, and its group passes to the oldest suspended or else the earliest waiting entry. -/
def leaseRelease (s : State) (v : W64) : State :=
  let n := bits v 61 56
  let w := s.reg (rLease n)
  let s1 := s.setReg (rLease n) 0
  let key := leaseKey w
  if leaseState w = 0 ∨ !(s1.leasesIn key 1).isEmpty ∨ !(s1.leasesIn key 4).isEmpty then s1
  else match s1.leasesIn key 3, s1.leasesIn key 2 with
    | m :: _, _ => s1.setLease m (s1.reg (rLease m)) 1
    | [], m :: _ => s1.setLease m (s1.reg (rLease m)) 1
    | [], [] => s1

/-- ADOPT: an ORPHAN entry is HELD by the writing member (R611). -/
def adopt (s : State) (owner : Nat) (v : W64) : State :=
  let n := bits v 61 56
  let w := s.reg (rLease n)
  if leaseState w = 4 then s.setLease n (setBits w 60 60 owner) 1 else s

/-- The entries of a failed member at a takeover (R611). -/
def State.orphanLeases (s : State) (owner : Nat) : State :=
  (List.range 64).foldl (fun s n =>
    let w := s.reg (rLease n)
    if bits w 60 60 ≠ owner then s
    else match leaseState w with
      | 1 => s.setLease n w 4
      | 3 => s.setLease n w 4
      | 2 => s.setReg (rLease n) 0
      | _ => s) s

/-- A write to KEEP.LEASECTL, from the active member. -/
def leaseCtl (s : State) (inp : Nat) (v : W64) : State :=
  s.byKeeper inp (fun s => match bits v 63 62 with
    | 1 => acquire s (18 - inp) v
    | 2 => leaseRelease s v
    | 3 => adopt s (18 - inp) v
    | _ => s) id

/-! ### Rollback and requests (R595, R603) -/

/-- ROLLBACK to a committed step: this module's Keeper floods the message, or a copy from another module is taken once; the
Keeper raises a notice to its runtime (R603). -/
def rollback (s : State) (origin : Nat) (step : W64) : State :=
  let fid := step.toNat % 8192 * 8 + 6
  let body : BitVec 2048 := BitVec.ofNat 2048 (2 + 2 ^ 8 + step.toNat * 2 ^ 32)
  if s.floods.contains (origin, fid) then s.seeFlood origin fid
  else if origin = s.fld rModid 16 0 then (s.flood s.activeMember fid body).noticeAll
  else ((s.seeFlood origin fid).queueUp (fromUnit s.activeMember) none ⟨true, origin, fid, body⟩).noticeAll

end Sys2Proof.Machine
end

