-- ==== Sys2Proof/Machine/Evc.lean ====
section
/-! DEFINITION.
The event controllers of the Hive dies: raisings, requests, claims and completions (spec 19 R535–R540, R545). -/

namespace Sys2Proof.Machine

/-- EVC.SRCi and EVC.CPp.STAT. -/
def rSrc (d i : Nat) : Nat := blkEVC d + 0x1000 + 8 * i
def rCpEvc (p : Nat) : Nat := blkEVC (p / 4) + 0x4000 + 8 * (p % 4)
/-- The spurious identifier. -/
def spurious : Nat := 0x3FF

/-- The priority stack of control processor p above its bottom entry, top first: sources and levels (R538). -/
def State.stack (s : State) (p : Nat) : List (Nat × Nat) := Tab.get [] s.evStacks p
/-- The level at the top of the stack. -/
def State.level (s : State) (p : Nat) : Nat := match s.stack p with | [] => 0 | (_, l) :: _ => l

/-- Whether a source wakes processor p: enabled, pending, not active and targeted at it (R540). -/
def srcWakes (w : W64) (p : Nat) : Bool :=
  bits w 3 0 != 0 && bit w 8 && !bit w 9 && bit w (4 + p % 4)

/-- Whether source i is eligible for processor p (R535). -/
def State.eligible (s : State) (p i : Nat) : Bool :=
  let w := s.reg (rSrc (p / 4) i)
  srcWakes w p && decide ((s.proc p).thresh < bits w 3 0) && decide (s.level p < bits w 3 0)

/-- The eligible source with the highest level, the lowest number among equals (R536). -/
def State.bestSource (s : State) (p : Nat) : Option Nat :=
  (List.range 1023).foldl (fun best i =>
    if s.eligible p i then
      match best with
      | none => some i
      | some j => if bits (s.reg (rSrc (p / 4) j)) 3 0 < bits (s.reg (rSrc (p / 4) i)) 3 0 then some i else best
    else best) none

/-- EVC.CTL.HOLD of the die of processor p. -/
def State.held (s : State) (p : Nat) : Bool := s.flag (blkEVC (p / 4)) 0

/-- Whether a request is presented to control processor p (R535, R539). -/
def State.presented (s : State) (p : Nat) : Bool := !s.held p && (s.bestSource p).isSome

/-- Whether a processor in S.WFE wakes: a control processor by a source (R540), a Keeper by an event bit its mask enables
(R552). -/
def State.wakes (s : State) (p : Nat) : Bool :=
  if p < 16 then (List.range 1023).any (fun i => srcWakes (s.reg (rSrc (p / 4) i)) p)
  else (s.reg rEvpend &&& s.reg (blkKEEP + 0x20 + 8 * (p - 16))) != 0

/-- Processor p takes source i; raised in the same cycle, the source stays pending (R536, R538). -/
def State.claimSource (s : State) (p i : Nat) : State :=
  let r := rSrc (p / 4) i
  let s1 := ((s.clear r 8).setFlag r 9).setFld (rCpEvc p) 19 10 i
  { s1 with evStacks := Tab.put s1.evStacks p ((i, s.fld r 3 0) :: s.stack p) }

/-- The instruction that the queue gives processor q next, before any command that is no instruction of a processor. -/
def State.procNext (s : State) (q : Nat) : Option (W32 × Bool) :=
  let ins := s.pending.map (fun i => match i with
    | .sRdcsr (.proc p) op => some (p.val, op, true)
    | .sWrcsr (.proc p) op => some (p.val, op, false)
    | _ => none)
  ((ins.takeWhile (·.isSome)).filterMap id |>.find? (fun x => x.1 == q)).map (·.2)

/-- Whether processor q, of a lower number than one that reads CLAIM now, reads it in the same cycle. -/
def State.claimsToo (s : State) (q : Nat) : Bool :=
  let k := s.proc q
  match s.procNext q with
  | some (op, true) => bits op 11 0 == 0x10 && k.st == 1 && k.load.isNone && decide (k.nextAt ≤ s.rootNow) &&
      decide (Tab.get 0 k.late (bits op 31 27) ≤ s.rootNow)
  | _ => false

/-- A read of CLAIM: the identifier it returns is also EVC.CPp.STAT.LAST. Reads of one cycle are served in ascending processor
number: a source that one of a lower number takes is not given (R536). -/
def State.claimRead (s : State) (p : Nat) : State × Nat :=
  let first := ((List.range 4).map (4 * (p / 4) + ·)).filter (fun q => decide (q < p) && s.claimsToo q)
  let s0 := first.foldl (fun t q => match t.bestSource q with | some i => t.claimSource q i | none => t) s
  match (if s.held p then none else s0.bestSource p) with
  | none => (s.setFld (rCpEvc p) 19 10 spurious, spurious)
  | some i => (s.claimSource p i, i)

/-- CLAIM. -/
def claimOp (s : State) (p : Nat) : State := (s.claimRead p).1

/-- A write of identifier i to COMPLETE (R537). -/
def completeOp (s : State) (p i : Nat) : State :=
  if i = spurious then s
  else match s.stack p with
    | (j, _) :: rest =>
      if j = i then { s.clrFlag (rSrc (p / 4) i) 9 with evStacks := Tab.put s.evStacks p rest }
      else (s.event (rCpEvc p) 63).raiseKeep 1
    | [] => (s.event (rCpEvc p) 63).raiseKeep 1

/-- Whether a source of the table of event sources is raised by anything but software. -/
def srcKnown (i : Nat) : Bool :=
  decide (i < 643) || (decide (648 ≤ i) && decide (i ≤ 651)) || (decide (656 ≤ i) && decide (i ≤ 671))

/-- EVENT_RAISE: a raising reaches the controller of die d, or all four for the sources raised on all together; a fenced or
spare position's sources are raised only for k = 7 (R535, R605). -/
def eventRaise (s : State) (d i : Nat) : State :=
  if 960 ≤ i ∧ i < 1023 then s.raise d i
  else if srcKnown i = false then s
  else if i < 640 then s.raiseCore (80 * d + i / 8) (i % 8)
  else if i < 643 then s.raise d i
  else s.raiseAll i

/-- A write to EVC.SWRAISE. -/
def swraise (s : State) (d : Nat) (v : W64) : State :=
  let i := bits v 9 0
  if 960 ≤ i ∧ i < 1023 then s.raise d i else s

/-- PENDING_CLEAR: 1 written to EVC.SRCi.PENDING; raised in the same cycle, it stays set (R13). -/
def pendingClear (s : State) (d i : Nat) : State := if i < 1023 then s.clear (rSrc d i) 8 else s

/-- A write to EVC.SRCi. -/
def srcWrite (s : State) (d i : Nat) (v : W64) : State :=
  let s1 := if bit v 8 then pendingClear s d i else s
  s1.setFld (rSrc d i) 7 0 (bits v 7 0)

/-- EVC.CPp.STAT as it reads. -/
def cpEvcRead (s : State) (p : Nat) : W64 :=
  setBits (setBits (s.reg (rCpEvc p)) 7 4 (s.stack p).length) 3 0 (s.level p)

end Sys2Proof.Machine
end

