-- ==== Sys2Proof/Machine/Proc.lean ====
section
/-! DEFINITION.
The Adsiem-S processors: their registers, exceptions, interrupts, timing and instructions (spec 03 R101–R104, 19 R530–R540).
A slot instruction issued on a processor stands for the instruction word that the processor fetches at its program
counter. -/

namespace Sys2Proof.Machine

/-! ### Time of a processor -/

/-- Period of a processor's clock, in ct. -/
def procPeriod (p : Nat) : Nat := if p < 16 then 16 else 40
/-- The glade of a processor (R400). -/
def procGlade (p : Nat) : Nat := if p < 16 then 644 + p / 2 else if p = 16 then 653 else 658
/-- Waits for the first edge of the processor's clock at or after root time `t`. -/
def State.procEdge (s : State) (p t : Nat) : State := s.toRoot (nextMultiple (procPeriod p) (Nat.max t s.rootNow))
/-- CYCLE of a processor. -/
def State.procCycle (s : State) (p : Nat) : Nat := s.rootNow / procPeriod p
/-- The canopy time that the processor's glade holds (R403). -/
def State.procCt (s : State) (p : Nat) : Nat := s.ct + s.lam (procGlade p) / 4

/-! ### Local SRAM (R530) -/

/-- Bytes of local SRAM. -/
def sramSize (p : Nat) : Nat := if p < 16 then 2 ^ 20 else 2 ^ 22

/-- What an SRAM byte that no store has written holds: the loaded image's code or data, else zero. -/
def Proc.image (k : Proc) (a : Nat) : Byte :=
  match Config.imageCode k.code a with
  | some b => b
  | none => (Config.imageData k.data a).getD 0

def Proc.byte (k : Proc) (a : Nat) : Byte := (Tab.find k.sram a).getD (k.image a)
def Proc.putByte (k : Proc) (a : Nat) (b : Byte) : Proc :=
  { k with sram := if b = k.image a then k.sram.erase a else Tab.put k.sram a b }
/-- Little-endian reads and writes of `n` bytes of SRAM. -/
def Proc.readMem (k : Proc) (a : Nat) : Nat → Nat
  | 0 => 0
  | n + 1 => (k.byte a).toNat + 256 * k.readMem (a + 1) n
def Proc.writeMem (k : Proc) (a : Nat) : Nat → Nat → Proc
  | 0, _ => k
  | n + 1, v => (k.putByte a (BitVec.ofNat 8 v)).writeMem (a + 1) n (v / 256)

/-- The words of SRAM written so far in cycle `c`. -/
def Proc.written (k : Proc) (c : Nat) : List (Nat × Nat × Bool) := if k.port.1 = c then k.port.2 else []
/-- A read through one of the two ports in cycle `c`: a word that the other port writes in it reads as before the cycle (R530). -/
def Proc.portRead (k : Proc) (bus : Bool) (c a n : Nat) : Nat :=
  match (k.written c).find? (fun w => w.1 == a / 8 && w.2.2 != bus) with
  | some w => field w.2.1 (8 * (a % 8)) (8 * n)
  | none => k.readMem a n
/-- A write through one of the two ports in cycle `c`: where both write a word in it, the write of the service bus stands (R530). -/
def Proc.portWrite (k : Proc) (bus : Bool) (c a n v : Nat) : Proc :=
  let w := a / 8
  match (k.written c).find? (fun e => e.1 == w) with
  | some (_, old, byBus) =>
    if byBus && !bus then k
    else
      let k1 := if bus && !byBus then k.writeMem (8 * w) 8 old else k
      { k1.writeMem a n v with port := (c, (w, old, bus) :: (k.written c).filter (fun e => e.1 ≠ w)) }
  | none => { k.writeMem a n v with port := (c, (w, k.readMem (8 * w) 8, bus) :: k.written c) }

/-! ### Registers -/

def Proc.sreg (k : Proc) (r : Nat) : W64 := Tab.get 0 k.s r
def Proc.setSreg (k : Proc) (r : Nat) (v : W64) : Proc := { k with s := Tab.put k.s r v }
def Proc.creg (k : Proc) (r : Nat) : W32 := Tab.get 0 k.c r
def Proc.getCmp (k : Proc) (n : Nat) : Cmp := Tab.get ⟨0, 0, 0⟩ k.cmp n
def Proc.setCmp (k : Proc) (n : Nat) (c : Cmp) : Proc := { k with cmp := Tab.put k.cmp n c }
/-- Source codings of Adsiem-S: no parameter registers (R102). -/
def srcOkP (c : Nat) : Bool := decide (c < 40) || c == 48
def Proc.src (k : Proc) (c : Nat) : W64 :=
  if c < 32 then k.sreg c else if c < 40 then (k.creg (c - 32)).setWidth 64 else 0
def Proc.a (k : Proc) (op : W32) : W64 := k.src (fSrc1 op)
def Proc.b (k : Proc) (op : W32) : W64 := k.src (fSrc2 op)
/-- STATUS bits. -/
def Proc.ie (k : Proc) : Bool := bit k.status 0
def Proc.exl (k : Proc) : Bool := bit k.status 2

/-! ### Exceptions and interrupts (R532–R534) -/

/-- The registers after an entry: EPC, CAUSE, TVAL, STATUS and the program counter, `off` instructions past VECBASE. -/
def Proc.enter (k : Proc) (cause : Nat) (tval : W64) (off : Nat) : Proc :=
  { k with
    epc := k.pc.setWidth 64, cause := BitVec.ofNat 64 cause, tval := tval
    status := setBit (setBit (setBit k.status 1 k.ie) 0 false) 2 true
    pc := k.vecbase.setWidth 32 + BitVec.ofNat 32 off }

/-- An exception other than an interrupt; inside a handler the processor halts in DOUBLE and the Keeper is told (R533). -/
def State.exception (s : State) (p cause : Nat) (tval : W64) : State :=
  if (s.proc p).exl then (s.modProc p (fun k => { k with st := 3 })).raiseKeep 0
  else s.modProc p (fun k => { k.enter cause tval 0 with nextAt := s.rootNow + procPeriod p, st := 1 })

/-- Whether processor p takes an interrupt at its next instruction boundary. -/
def State.interrupts (s : State) (p : Nat) : Bool := decide (p < 16) && (s.proc p).ie && s.presented p

/-- INTERRUPT_ENTRY: a presented request is taken; the entry takes 4 cycles (R534). -/
def interruptEntry (s : State) (p : Nat) : State :=
  let q := s.proc p
  if q.st = 1 ∧ q.load.isNone ∧ s.interrupts p then
    let s1 : State := { s.procEdge p q.nextAt with free := s.free + 1 }
    s1.modProc p (fun k => { k.enter 16 (Config.interruptTval s.free) 3 with nextAt := s1.rootNow + 4 * procPeriod p })
  else s

/-- STORE_ERROR: the error completion of a posted store is taken at an instruction boundary, EPC holding the next
instruction (R532). -/
def storeError (s : State) (p : Nat) : State :=
  let q := s.proc p
  match q.errs with
  | a :: rest =>
    if (q.st = 1 ∨ q.st = 2) ∧ q.load.isNone then
      ((s.procEdge p q.nextAt).modProc p (fun k => { k with errs := rest })).exception p (5 + 256) a
    else s
  | [] => s

/-- WFE_WAKE: the processor goes on after S.WFE, and takes an interrupt there where one is presented (R540, R552). -/
def wfeWake (s : State) (p : Nat) : State :=
  if (s.proc p).st = 2 ∧ s.wakes p then interruptEntry (s.modProc p (fun k => { k with st := 1 })) p else s

/-! ### The service bus as a requester sees it (R541) -/

def State.busQueue (s : State) (inp : Nat) : List BusAcc := Tab.get [] s.bus.queues inp
def State.setBusQueue (s : State) (inp : Nat) (l : List BusAcc) : State :=
  { s with bus := { s.bus with queues := Tab.put s.bus.queues inp l } }
def State.busRoom (s : State) (inp : Nat) : Bool := decide ((s.busQueue inp).length < 8)
/-- An access joins the queue of an input. -/
def State.busPush (s : State) (inp : Nat) (a : BusAcc) : State :=
  let l := s.busQueue inp
  let s1 := s.setBusQueue inp (l ++ [a])
  if l.isEmpty then { s1 with bus := { s1.bus with headFrom := Tab.put s1.bus.headFrom inp s1.rootNow } } else s1
/-- The input of a processor: cps 1 to 16, Keeper W 18, Keeper E 17. -/
def procInput (p : Nat) : Nat := if p < 16 then p + 1 else if p = 16 then 18 else 17

/-! ### Instructions -/

/-- The meaning of an instruction on an Adsiem-S processor: whether its word is legal, the registers it reads and writes,
the exception its access raises, whether it waits, the branch it takes with its bubble, and its effect. -/
structure PIn where
  legal : Proc → W32 → Bool := fun _ _ => true
  reads : W32 → List Nat := fun _ => []
  dest : W32 → Option Nat := fun _ => none
  fault : State → Nat → W32 → Option (Nat × W64) := fun _ _ _ => none
  stall : State → Nat → W32 → Bool := fun _ _ _ => false
  jump : State → Nat → W32 → Option (W32 × Nat) := fun _ _ _ => none
  eff : State → Nat → W32 → State := fun s _ _ => s

def Proc.loopAt (k : Proc) : Option Nat :=
  (List.range 8).find? (fun j => k.creg j ≠ 0 && (Tab.get ⟨0, 0⟩ k.loops j).last == k.pc)

/-- The program counter after an instruction: the branch taken, a loop's end action, or the next instruction. -/
def Proc.follow (k : Proc) (jump : Option (W32 × Nat)) : Proc :=
  match jump with
  | some (t, _) => { k with pc := t }
  | none =>
    match k.loopAt with
    | none => { k with pc := k.pc + 1 }
    | some j =>
      let k1 : Proc := { k with c := Tab.put k.c j (k.creg j - 1) }
      if k.creg j = 1 then { k1 with pc := k.pc + 1 } else { k1 with pc := (Tab.get ⟨0, 0⟩ k.loops j).start }

/-- Waits for the processor's next instruction to issue: once the registers it names are written (R80, R104). -/
def State.procIssue (s : State) (p : Nat) (named : List Nat) : State :=
  let q := s.proc p
  s.procEdge p (named.foldl (fun t r => Nat.max t (Tab.get 0 q.late r)) q.nextAt)

/-- The end of an instruction that issued at root time `at_`: the program counter goes on, a taken branch costs its bubble. -/
def State.procDone (s : State) (p at_ : Nat) (jump : Option (W32 × Nat)) : State :=
  s.modProc p (fun k => { k.follow jump with
    nextAt := at_ + procPeriod p * (1 + (match jump with | some (_, b) => b | none => 0)) })

/-- An instruction of a running processor; at its boundary a presented interrupt is taken first, and nothing of it is done
(R534). -/
def State.procRun (s : State) (p code : Nat) (m : PIn) (op : W32) : State :=
  let q := s.proc p
  if q.st ≠ 1 ∨ q.load.isSome then s
  else
    let s1 := s.procIssue p ((m.reads op).filter (· < 32) ++ (m.dest op).toList)
    if s1.interrupts p then interruptEntry s1 p
    else if m.legal q op = false then s1.exception p 1 (BitVec.ofNat 64 (code * 2 ^ 32 + op.toNat))
    else match m.fault s1 p op with
      | some (c, v) => s1.exception p c v
      | none =>
        if m.stall s1 p op then s
        else
          let s2 := m.eff s1 p op
          if (s2.proc p).load.isSome then s2 else s2.procDone p s1.rootNow (m.jump s1 p op)

/-- A slot instruction, with its opcode and its meaning on a processor: in a bundle of a context, or on a processor. -/
def issueAt (w : Iss) (ins : Instr) (code : Nat) (m : PIn) (op : W32) (s : State) : State :=
  match w with
  | .slot i n _ hdr more => s.issueSlot i n hdr more ins
  | .proc p => s.procRun p code m op

/-- An instruction that Adsiem-S does not carry (R102). -/
def pNone : PIn := { legal := fun _ _ => false }

/-- Writes rd, readable from `lat` cycles after the present one. -/
def State.procWrite (s : State) (p r lat : Nat) (v : W64) : State :=
  s.modProc p (fun k => { k.setSreg r v with
    late := if lat = 1 then k.late.erase r else Tab.put k.late r (s.rootNow + lat * procPeriod p) })

/-- Form R. -/
def pR (f : W64 → W64 → W64) (lat : Nat) : PIn where
  legal _ op := srcOkP (fSrc1 op) && srcOkP (fSrc2 op) && fSrc3 op == 0
  reads op := [fSrc1 op, fSrc2 op]
  dest op := some (fRd op)
  eff s p op := s.procWrite p (fRd op) lat (f ((s.proc p).a op) ((s.proc p).b op))

/-- Form I. -/
def pI (f : W64 → W64 → W64) (lat : Nat) : PIn where
  legal _ op := srcOkP (fSrc1 op)
  reads op := [fSrc1 op]
  dest op := some (fRd op)
  eff s p op := s.procWrite p (fRd op) lat (f ((s.proc p).a op) (fImm18 op))

/-- Form L with a zero immediate. -/
def pRd (v : State → Nat → W64) : PIn where
  legal _ op := bits op 26 0 == 0
  dest op := some (fRd op)
  eff s p op := s.procWrite p (fRd op) 1 (v s p)

def pLi : PIn where
  dest op := some (fRd op)
  eff s p op := s.procWrite p (fRd op) 1 (fImm27 op)
def pLix : PIn where
  reads op := [fRd op]
  dest op := some (fRd op)
  eff s p op := s.procWrite p (fRd op) 1 (valLix ((s.proc p).sreg (fRd op)) op)

/-- NOP; its operand bits are zero (R74). -/
def pNop : PIn where
  legal _ op := op == 0

def pCSet : PIn where
  legal _ op := bits op 31 29 == 0 && srcOkP (fSrc1 op) && srcOkP (fSrc2 op) && bits op 8 3 == 0
  reads op := [fSrc1 op, fSrc2 op]
  eff s p op := s.modProc p (fun k => k.setCmp (fCmp op) ⟨k.a op, k.b op, BitVec.ofNat 3 (bits op 2 0)⟩)
def pCSeti : PIn where
  legal _ op := srcOkP (fSrc1 op)
  reads op := [fSrc1 op]
  eff s p op := s.modProc p (fun k => k.setCmp (fCmp op) ⟨k.a op, fImm18 op, BitVec.ofNat 3 (bits op 31 29)⟩)
def pCStep : PIn where
  legal _ op := bits op 31 29 == 0 && fSrc1 op == 48
  eff s p op := s.modProc p (fun k =>
    let c := k.getCmp (fCmp op)
    k.setCmp (fCmp op) { c with a := c.a + fImm18 op })
def pCRd : PIn where
  legal _ op := bits op 26 20 == 0 && fSrc2 op == 48 && fSrc3 op == 0
  dest op := some (fRd op)
  eff s p op := s.procWrite p (fRd op) 1 (if ((s.proc p).getCmp (fRdCmp op)).holds then 1 else 0)

/-! ### Branches and loops (R83–R87) -/

def State.procTarget (s : State) (p : Nat) (op : W32) : W32 := (s.proc p).pc + (fImm18 op).setWidth 32

def pBr : PIn where
  legal _ op := fRd op == 0 && fSrc1 op == 0
  jump s p op := some (s.procTarget p op, 1)
def pBrC : PIn where
  legal _ op := bits op 31 29 == 0 && fSrc1 op == 0
  jump s p op := if ((s.proc p).getCmp (fCmp op)).holds then some (s.procTarget p op, 1) else none
def pBrNc : PIn where
  legal _ op := bits op 31 29 == 0 && fSrc1 op == 0
  jump s p op := if ((s.proc p).getCmp (fCmp op)).holds then none else some (s.procTarget p op, 1)
def pBrR : PIn where
  legal _ op := fRd op == 0 && srcOkP (fSrc1 op) && fSrc2 op == 48 && fSrc3 op == 0
  reads op := [fSrc1 op]
  jump s p op := some (((s.proc p).a op).setWidth 32, 2)
def pCall : PIn where
  legal _ op := fRd op == 0 && fSrc1 op == 0
  dest _ := some 31
  jump s p op := some (s.procTarget p op, 1)
  eff s p _ := s.procWrite p 31 1 (((s.proc p).pc + 1).setWidth 64)

/-- The last instruction of the body that LOOP names. -/
def Proc.bodyEnd (k : Proc) (op : W32) : W32 := k.pc + BitVec.ofNat 32 (fUimm18 op)

def pLoop : PIn where
  legal k op := bits op 31 30 == 0 && srcOkP (fSrc1 op) && fUimm18 op != 0 && decide (fUimm18 op ≤ 131071) &&
    !(List.range 8).any (fun j => j ≠ fLoop op && k.creg j ≠ 0 && (Tab.get ⟨0, 0⟩ k.loops j).last == k.bodyEnd op)
  reads op := [fSrc1 op]
  jump s p op := if ((s.proc p).a op).setWidth 32 = (0 : W32) then some ((s.proc p).bodyEnd op + 1, 1) else none
  eff s p op := s.modProc p (fun k => { k with
    c := Tab.put k.c (fLoop op) ((k.a op).setWidth 32)
    loops := Tab.put k.loops (fLoop op) ⟨k.pc + 1, k.bodyEnd op⟩ })

/-! ### Loads and stores (R103, R104) -/

/-- The data address: a + sext(imm18). -/
def Proc.dataAddr (k : Proc) (op : W32) : W64 := k.a op + fImm18 op

/-- The exception of an access of `n` bytes: misaligned, beyond the SRAM, or with service address bits [62:48] not zero. -/
def accessFault (p n : Nat) (a : W64) : Option (Nat × W64) :=
  if a.toNat % n ≠ 0 then some (2, a)
  else if bit a 63 then (if bits a 62 48 = 0 then none else some (3, a))
  else if sramSize p ≤ bits a 62 0 then some (3, a)
  else none

def pLoad (n : Nat) : PIn where
  legal _ op := srcOkP (fSrc1 op)
  reads op := [fSrc1 op]
  dest op := some (fRd op)
  fault s p op := accessFault p n ((s.proc p).dataAddr op)
  stall s p op := bit ((s.proc p).dataAddr op) 63 && !s.busRoom (procInput p)
  eff s p op :=
    let q := s.proc p
    let a := q.dataAddr op
    if bit a 63 then
      (s.modProc p (fun k => { k with load := some (fRd op, n, a) })).busPush (procInput p)
        ⟨false, bits a 47 0, n, 0, .load p q.epoch⟩
    else s.procWrite p (fRd op) 2 (BitVec.ofNat 64 (q.portRead false (s.procCycle p) a.toNat n))

/-- A store of register rd; to the service space it is posted. -/
def pStore (n : Nat) : PIn where
  legal _ op := srcOkP (fSrc1 op)
  reads op := [fSrc1 op, fRd op]
  fault s p op := accessFault p n ((s.proc p).dataAddr op)
  stall s p op := bit ((s.proc p).dataAddr op) 63 && !s.busRoom (procInput p)
  eff s p op :=
    let q := s.proc p
    let a := q.dataAddr op
    let v := (q.sreg (fRd op)).toNat % 2 ^ (8 * n)
    if bit a 63 then s.busPush (procInput p) ⟨true, bits a 47 0, n, v, .store p q.epoch⟩
    else s.modProc p (fun k => k.portWrite false (s.procCycle p) a.toNat n v)

/-! ### Control registers, sleep and return (R103, R531, R532, R540) -/

/-- A read of processor control register `n`. -/
def State.csrRead (s : State) (p n : Nat) : State × W64 :=
  let k := s.proc p
  match n with
  | 0x000 => (s, k.status)
  | 0x001 => (s, k.epc)
  | 0x002 => (s, k.cause)
  | 0x003 => (s, k.tval)
  | 0x004 => (s, k.vecbase)
  | 0x005 => (s, k.scratch)
  | 0x006 => (s, BitVec.ofNat 64 (s.procCycle p))
  | 0x007 => (s, BitVec.ofNat 64 (s.procCt p))
  | 0x008 => (s, if p < 16 then BitVec.ofNat 64 p else Config.keeperCpid p)
  | 0x010 => if p < 16 then ((s.claimRead p).1, BitVec.ofNat 64 (s.claimRead p).2) else (s, 0)
  | 0x012 => (s, if p < 16 then BitVec.ofNat 64 k.thresh else 0)
  | 0x013 => (s, if p < 16 then BitVec.ofNat 64 (s.level p) else 0)
  | _ => (s, 0)

/-- A write of processor control register `n`. -/
def State.csrWrite (s : State) (p n : Nat) (v : W64) : State :=
  match n with
  | 0x000 => s.modProc p (fun k => { k with status := v &&& 7 })
  | 0x001 => s.modProc p (fun k => { k with epc := v })
  | 0x004 => s.modProc p (fun k => { k with vecbase := v })
  | 0x005 => s.modProc p (fun k => { k with scratch := v })
  | 0x011 => if p < 16 then completeOp s p v.toNat else s
  | 0x012 => if p < 16 then s.modProc p (fun k => { k with thresh := bits v 3 0 }) else s
  | _ => s

def pRdcsr : PIn where
  dest op := some (fRd op)
  eff s p op :=
    let r := s.csrRead p (bits op 11 0)
    r.1.procWrite p (fRd op) 1 r.2
def pWrcsr : PIn where
  legal _ op := srcOkP (fSrc1 op)
  reads op := [fSrc1 op]
  eff s p op := s.csrWrite p (bits op 11 0) ((s.proc p).a op)
/-- S.WFE completes at once where a waking source exists. -/
def pWfe : PIn where
  eff s p _ := if s.wakes p then s else s.modProc p (fun k => { k with st := 2 })
def pEret : PIn where
  jump s p _ := some ((s.proc p).epc.setWidth 32, 0)
  eff s p _ := s.modProc p (fun k => { k with status := setBit (setBit k.status 0 (bit k.status 1)) 2 false })

def pRdct : PIn := pRd (fun s p => BitVec.ofNat 64 (s.procCt p))
def pRdjt : PIn := pRd (fun s p => BitVec.ofNat 64 (s.procCt p) - s.reg rJobepoch)
def pRdcyc : PIn := pRd (fun s p => BitVec.ofNat 64 (s.procCycle p))

/-! ### CP.CTL (R545) -/

def rCpStat (p : Nat) : Nat := blkCP p + 0x8
def rSramwin (p : Nat) : Nat := blkCP p + 0x10

/-- RUN: the processor starts at `entry` with STATUS zero. -/
def Proc.start (k : Proc) (entry : W32) (now : Nat) : Proc :=
  { k with st := 1, pc := entry, status := 0, load := none, haltAt := false, epoch := k.epoch + 1, nextAt := now }
/-- HALT at the next instruction boundary: a load in progress ends first. -/
def Proc.halt (k : Proc) : Proc :=
  if k.st = 1 ∨ k.st = 2 then (if k.load.isSome then { k with haltAt := true } else { k with st := 0 }) else k
/-- RESET: halted, every register zero, the SRAM kept. -/
def Proc.zeroed (k : Proc) : Proc := { sram := k.sram, code := k.code, data := k.data, epoch := k.epoch + 1 }

def State.cpRefused (s : State) (p : Nat) : State := s.event (rCpStat p) 63
def State.cpRun (s : State) (p : Nat) (entry : W32) : State :=
  if s.hiveOff then s else s.modProc p (fun k => k.start entry s.rootNow)
def cpRunOp (s : State) (inp p : Nat) (entry : W32) : State := s.byKeeper inp (fun t => t.cpRun p entry) (fun t => t.cpRefused p)
def cpHaltOp (s : State) (inp p : Nat) : State :=
  s.byKeeper inp (fun t => t.modProc p Proc.halt) (fun t => t.cpRefused p)
def cpResetOp (s : State) (inp p : Nat) : State :=
  s.byKeeper inp (fun t => t.modProc p Proc.zeroed) (fun t => t.cpRefused p)
/-- A write to CP.CTL. -/
def cpCtl (s : State) (inp p : Nat) (v : W64) : State :=
  match bits v 1 0 with
  | 1 => cpRunOp s inp p (BitVec.ofNat 32 (bits v 33 2))
  | 2 => cpHaltOp s inp p
  | 3 => cpResetOp s inp p
  | _ => s.byKeeper inp id (fun t => t.cpRefused p)

/-- CP.STAT as it reads. -/
def cpStatRead (s : State) (p : Nat) : W64 :=
  setBits (setBits (s.reg (rCpStat p)) 34 3 (s.proc p).pc.toNat) 2 0 (s.proc p).st

end Sys2Proof.Machine
end

