-- ==== Sys2Proof/Machine/Keeper.lean ====
section
/-! DEFINITION.
The Keeper: roles and takeover, events, sensors, comparators, the log and flash, stream engines (spec 20 R546–R559, R571,
R572). -/

namespace Sys2Proof.Machine

/-- One millisecond, in ct. -/
def ctPerMs : Nat := 10000000
/-- The member behind a service bus input. -/
def memberOf (inp : Nat) : Nat := 18 - inp
/-- The processor of a member. -/
def keeperProc (m : Nat) : Nat := 16 + m

def rLc : Nat := blkKEEP + 0x38
def rFusecnt : Nat := blkKEEP + 0x40
def rLog : Nat := blkKEEP + 0x48
def rFlwin : Nat := blkKEEP + 0x50
def rFpol : Nat := blkKEEP + 0x58
def rCmp (k : Nat) : Nat := blkKEEP + 0x100 + 8 * k
def rSens (i : Nat) : Nat := blkKEEP + 0x1000 + 8 * i

/-! ### Roles (R546–R549) -/

/-- Whether a member's watchdog is within 1 ms. -/
def State.up (s : State) (m : Nat) : Bool := !(s.member m).held && decide (s.rootNow ≤ (s.member m).beatAt + ctPerMs)
/-- KEEP.ROLE.STATE: 0 both up, 1 standby lost, 2 NONE. -/
def State.roleState (s : State) : Nat := s.fld rRole 3 2
def State.setRoleState (s : State) (x : Nat) : State := s.setFld rRole 3 2 x

/-- A SWAP that no heartbeat of the standby has answered within 1 ms is dropped (R549). -/
def State.settleSwap (s : State) : State :=
  match s.swapAt with
  | some t =>
    if s.rootNow ≤ t + ctPerMs then s
    else { (if s.rootNow = t + ctPerMs + 1 then s.event rRole 62 else s.setFlag rRole 62) with swapAt := none }
  | none => s

/-- BEAT: the writing member's watchdog is refreshed; a SWAP in time is performed at the standby's (R548, R549). -/
def beat (s : State) (inp : Nat) : State :=
  let m := memberOf inp
  if inp < 17 ∨ (s.member m).held then s
  else
    let s1 := s.settleSwap
    let swap := s1.swapAt.isSome && m == s1.standbyMember
    let s2 := s1.modMember m (fun k => { k with beatAt := s1.rootNow })
    let s3 : State := if swap then { s2.setFld rRole 0 0 m with swapAt := none } else s2
    if s3.up 0 ∧ s3.up 1 then s3.setRoleState 0
    else if s3.roleState = 2 ∧ s3.up s3.activeMember then s3.setRoleState 1 else s3

/-- What a member loses when it is held in reset: its engines are aborted, and staged log entries and its state of the
transport are lost (R548, R558, R560, R571). -/
def Member.fail (k : Member) : Member := { beatAt := k.beatAt, held := true, eid := k.eid }

/-- TAKEOVER: the active member's watchdog reaches 1 ms: the latch flips where the standby's has been refreshed within 1 ms,
else no member is active (R548, R611).  A control processor image staged in the failed member's SRAM is lost with it (R564). -/
def takeover (s : State) : State :=
  let a := s.activeMember
  let b := s.standbyMember
  let s1 := s.toRoot ((s.member a).beatAt + ctPerMs)
  if s1.up b then
    let s2 := (s1.setFld rRole 0 0 b).setReg rRole (plainCount 31 16 1 ((s1.setFld rRole 0 0 b).reg rRole))
    let s3 := ((s2.setRoleState 1).modMember a Member.fail).modProc (keeperProc a) (fun k => { k.zeroed with st := 0 })
    { (s3.orphanLeases a).raiseKeep 15 with swapAt := none, cpPend := false }
  else if s1.roleState = 2 then s1 else (s1.setRoleState 2).send (.inBand 256)

/-- STANDBY_LOST: the standby's watchdog exceeds 1 ms (R552). -/
def standbyLost (s : State) : State :=
  let b := s.standbyMember
  let s1 := if (s.member b).held then s else s.toRoot ((s.member b).beatAt + ctPerMs + 1)
  if s1.up b ∨ s1.roleState ≠ 0 then s1 else (s1.setRoleState 1).raiseKeep 16

/-- ROLE_SWAP: SWAP written to KEEP.RCTL. -/
def roleSwap (s : State) (inp : Nat) : State :=
  s.byKeeper inp (fun t => { t.settleSwap with swapAt := some t.rootNow }) id

/-- Member m boots into an image: its registers and SRAM start anew, with the image's code and data (R549, R564, R615). -/
def State.bootKeeper (s : State) (m : Nat) (img : Tab Byte) : State :=
  s.modProc (keeperProc m) (fun p =>
    { st := 1, pc := Config.imageEntry img, epoch := p.epoch + 1, code := img, data := img, nextAt := s.rootNow })

/-- RESTART: a member held in reset boots as standby (R549, R622). -/
def restart (s : State) (inp : Nat) : State :=
  s.byKeeper inp (fun t =>
    let b := t.standbyMember
    if (t.member b).held then
      ((t.modMember b (fun k => { k with held := false, beatAt := t.rootNow })).bootKeeper b (t.image 1)).setRoleState 0
    else t) id

/-- A write to KEEP.RCTL. -/
def rctlWrite (s : State) (inp : Nat) (v : W64) : State :=
  match bits v 1 0 with | 1 => roleSwap s inp | 2 => restart s inp | _ => s.byKeeper inp id id

/-- KEEP.ROLE as it reads. -/
def roleRead (s : State) : W64 := setBit (s.settleSwap.reg rRole) 1 (s.up 1)

/-- NOTICE (R553). -/
def noticeWrite (s : State) (inp t : Nat) : State :=
  s.byKeeper inp (fun s => if t < 16 then s.raiseAll (656 + t) else if t = 16 then s.msix 12 else s) id

/-! ### Sensors and comparators (R554–R556) -/

/-- One sample of a sensor. -/
def sensorSample (w : W64) (v : W16) (valid : Bool) : W64 :=
  if valid then
    let x := v.toInt
    let w1 := setBits (setBit w 31 true) 15 0 v.toNat
    let w2 := if signed 16 (bits w 63 48) < x then setBits w1 63 48 v.toNat else w1
    if x < signed 16 (bits w 47 32) then setBits w2 47 32 v.toNat else w2
  else setBit w 31 false

/-- SENSOR_SAMPLE_SET: a set completes, every 100 µs. -/
def sensorSet (s : State) (l : Samples) : State :=
  let s1 := s.toCt (nextMultiple 1000000 (s.ct + 1))
  (l.foldl (fun a e => if e.1 < 480 then a.setReg (rSens e.1) (sensorSample (a.reg (rSens e.1)) e.2.1 e.2.2) else a) s1).raiseKeep 20

/-- COMPARATOR_TRIP: the input of an enabled comparator reads `code`, past THRESH in its direction. -/
def comparatorTrip (s : State) (k code : Nat) : State :=
  let w := s.reg (rCmp k)
  let past := if bit w 22 then decide (code < bits w 9 0) else decide (bits w 9 0 < code)
  if bit w 23 ∧ bit w 31 = false ∧ past then
    let s1 := (s.setReg (rCmp k) (setBit (setBit w 31 true) 30 true)).mark (rCmp k) 30
    let s2 := if bit w 24 then s1.raiseKeep 12 else s1
    let s3 := if bit w 25 then s2.send (.inBand k) else s2
    if bit w 26 then
      (List.range 320).foldl (fun a i => if bit (a.reg (rPwrCtl i)) (8 + k) then a.wakeSource i 3 else a) s3
    else s3
  else s

/-- COMPARATOR_CLEAR: the input of a tripped comparator has returned past THRESH by HYST codes. -/
def comparatorClear (s : State) (k code : Nat) : State :=
  let w := s.reg (rCmp k)
  let back := if bit w 22 then decide (bits w 9 0 + bits w 14 10 ≤ code) else decide (code + bits w 14 10 ≤ bits w 9 0)
  if bit w 31 ∧ back then s.setReg (rCmp k) (setBit w 31 false) else s

/-- A write to KEEP.CMPk: EN is forced to 0 for the reserved inputs. -/
def cmpWrite (s : State) (k : Nat) (v : W64) : State :=
  let old := s.reg (rCmp k)
  let w : W64 := (old &&& BitVec.ofNat 64 (2 ^ 31 + 2 ^ 30)) ||| (v &&& BitVec.ofNat 64 0x7CFFFFF)
  let w1 := if bit v 30 && !bit (s.kept (rCmp k)) 30 then setBit w 30 false else w
  s.setReg (rCmp k) (if 8 ≤ bits v 19 15 then setBit w1 23 false else w1)

/-! ### Flash and the log (R557–R559) -/

/-- A byte of flash; an erased byte reads as all ones. -/
def Nv.byte (n : Nv) (a : Nat) : Byte := Tab.get 0xFF n.flash a
def Nv.put (n : Nv) (a : Nat) (b : Byte) : Nv := { n with flash := Tab.store 0xFF n.flash a b }
def Nv.erase (n : Nv) (a len : Nat) : Nv := { n with flash := Tab.eraseRange n.flash a len }
/-- Little-endian access to flash. -/
def Nv.read (n : Nv) (a : Nat) : Nat → Nat
  | 0 => 0
  | k + 1 => (n.byte a).toNat + 256 * n.read (a + 1) k
def Nv.write (n : Nv) (a : Nat) : Nat → Nat → Nv
  | 0, _ => n
  | k + 1, v => (n.put a (BitVec.ofNat 8 v)).write (a + 1) k (v / 256)

def State.setNv (s : State) (f : Nv → Nv) : State := { s with nv := f s.nv }
/-- The bytes of a number, lowest first. -/
def bytesOf (v : Nat) : Nat → List Byte
  | 0 => []
  | n + 1 => BitVec.ofNat 8 v :: bytesOf (v / 256) n

/-- First byte of the log ring, in half A. -/
def logBase : Nat := 0x6000000
def logSlots : Nat := 524288

/-- Whether the ring's next slot can be programmed: its sector has been erased when the ring enters it. -/
def Nv.logReady (n : Nv) : Bool :=
  n.logHead % 1024 != 0 || !(n.flash.any (fun p => decide (logBase + 64 * n.logHead ≤ p.1) && decide (p.1 < logBase + 64 * n.logHead + 65536)))

/-- Programs one entry: its SEQ and CHECK are those of its place. -/
def Nv.program (n : Nv) (e : BitVec 512) : Nv :=
  let body := setBits e 63 0 n.logSeq
  let full := setBits body 511 480 (Config.shake (bytesOf body.toNat 60) 32)
  { n.write (logBase + 64 * n.logHead) 64 full.toNat with logHead := (n.logHead + 1) % logSlots, logSeq := n.logSeq + 1 }

/-- Programs the staged entries of the active member while the ring has room. -/
def State.programLog (s : State) : State :=
  (s.member s.activeMember).staged.foldl (fun a e =>
    if a.nv.logReady then
      ((a.setNv (fun n => n.program e.entry)).modMember a.activeMember (fun k => { k with staged := k.staged.drop 1 })).raiseKeep 18
    else a) s

/-- The newest staged entry of severity 0 or 1 taken out. -/
def displace (l : List LogRec) : Option (List LogRec) :=
  match l.reverse.findIdx? (fun e => decide (e.severity ≤ 1)) with
  | some j => some (l.eraseIdx (l.length - 1 - j))
  | none => none

/-- A log entry (R557) without its SEQ and CHECK. -/
def State.logEntry (s : State) (severity source : Nat) (code : W16) (data : List Byte) : BitVec 512 :=
  let d := (data.take 36).foldr (fun b a => b.toNat + 256 * a) 0
  BitVec.ofNat 512 (s.ct * 2 ^ 64 + (severity + (s.flag rTstat 3).toNat * 16 + s.activeMember * 32) * 2 ^ 128 +
    source * 2 ^ 144 + code.toNat * 2 ^ 160 + d * 2 ^ 192)

/-- LOG_APPEND: an entry is staged in the active member and programmed; with the staging buffer full it is dropped,
displaces an entry of less weight, or waits behind the 4,096 staged (R558). -/
def logAppend (s : State) (severity source : Nat) (code : W16) (data : List Byte) : State :=
  let m := s.activeMember
  let l := (s.member m).staged
  let e : LogRec := ⟨severity, s.logEntry severity source code data⟩
  if l.length < 4096 then (s.modMember m (fun k => { k with staged := l ++ [e] })).programLog
  else if severity ≤ 1 then s.setReg rLog (plainCount 63 32 1 (s.reg rLog))
  else match displace l with
    | some l' => s.modMember m (fun k => { k with staged := l' ++ [e] })
    | none => s.modMember m (fun k => { k with staged := l ++ [e] })

/-- An entry that the module's own rules log: source block, event and severity. -/
def State.log (s : State) (severity source event : Nat) : State := logAppend s severity source (Config.logCode event) []

/-- SECTOR_ERASE: the next sector of the ring is erased; its 1,024 entries are lost together. -/
def sectorErase (s : State) : State :=
  let sector := (s.nv.logHead + 1023) / 1024 % 512
  ((s.setNv (fun n => n.erase (logBase + 65536 * sector) 65536)).raiseKeep 18).programLog

/-- KEEP.LOG, KEEP.LC and KEEP.FUSECNT as they read. -/
def logRead (s : State) : W64 := setBits (s.reg rLog) 19 0 s.nv.logHead
def lcRead (s : State) : W64 :=
  setBits (setBit (setBits (s.reg rLc) 15 8 s.nv.returns) 3 s.testOpen) 2 0 s.nv.lc
def fusecntRead (s : State) : W64 := BitVec.ofNat 64 (s.nv.f + (if s.nv.f = 64 then 128 else 0))

/-! ### Stream engines (R571) -/

def State.kstr (s : State) (m e : Nat) : Kstr := Tab.get {} (s.member m).kstr e
def State.setKstr (s : State) (m e : Nat) (x : Kstr) : State :=
  s.modMember m (fun k => { k with kstr := Tab.put k.kstr e x })

/-- The address and bytes of an engine's next piece: at most 64, within one 64-byte block. -/
def Kstr.piece (x : Kstr) : Nat × Nat :=
  let a := x.addr + x.done
  (a, Nat.min (64 - a % 64) (x.len - x.done))
/-- A piece has moved. -/
def Kstr.moved (x : Kstr) : Kstr :=
  let d := x.done + x.piece.2
  { x with done := d, flying := false, st := if x.len ≤ d then 0 else 1 }
/-- Where SRAM of a member is addressed by its engines. -/
def sramAddr (a : Nat) : Nat := a % 2 ^ 22

/-- An engine moves its next piece: over the service bus, or to and from the flash, which the active member alone writes. -/
def State.movePiece (s : State) (m e : Nat) : State :=
  let x := s.kstr m e
  let a := x.piece.1
  let n := x.piece.2
  let at_ := sramAddr (x.sram + x.done)
  let p := keeperProc m
  if x.flash then
    if x.out then
      if m = s.activeMember then ((s.setNv (fun v => v.write a n ((s.proc p).readMem at_ n))).setKstr m e x.moved).raiseKeep 18 else s
    else (s.modProc p (fun k => k.writeMem at_ n (s.nv.read a n))).setKstr m e x.moved
  else
    let inp := procInput p
    if s.busRoom inp then
      (s.busPush inp ⟨x.out, a, n, if x.out then (s.proc p).readMem at_ n else 0, .kstr m e⟩).setKstr m e { x with flying := true }
    else s

/-- KEEPER_STREAM_PIECE: an engine moves its next piece; an idle one is started by its member with the operands given. -/
def streamPiece (s : State) (m e : Nat) (out flash : Bool) (sram addr len : Nat) : State :=
  let x := s.kstr m e
  if (s.member m).held ∨ x.flying then s
  else if x.st = 1 then s.movePiece m e
  else if x.st = 0 ∧ 1 ≤ len ∧ len ≤ 65536 then
    (s.setKstr m e ⟨1, out, sram, if flash then addr % 2 ^ 28 else addr % 2 ^ 48, flash, len, 0, false⟩).movePiece m e
  else s

/-- The completion of a piece on the service bus: an error halts the engine. -/
def State.pieceDone (s : State) (m e : Nat) (good : Bool) (v : Nat) : State :=
  let x := s.kstr m e
  if x.flying = false then s
  else if good then
    let p := keeperProc m
    let s1 := if x.out then s else s.modProc p (fun k => k.writeMem (sramAddr (x.sram + x.done)) x.piece.2 v)
    s1.setKstr m e x.moved
  else (s.setKstr m e { x with st := 2, flying := false }).raiseKeep 19

/-- KSTR_RESUME and KSTR_ABORT, from the member whose engine it is. -/
def kstrResume (s : State) (inp e : Nat) : State :=
  let m := memberOf inp
  if inp < 17 ∨ (s.kstr m e).st ≠ 2 then s else s.setKstr m e { s.kstr m e with st := 1 }
def kstrAbort (s : State) (inp e : Nat) : State :=
  let m := memberOf inp
  if inp < 17 ∨ (s.kstr m e).st ≠ 2 then s else s.setKstr m e {}
def kstrWrite (s : State) (inp e : Nat) (v : W64) : State :=
  match bits v 1 0 with | 1 => kstrResume s inp e | 2 => kstrAbort s inp e | _ => s
/-- KEEP.KSTRm.STAT: the reading member's own engine; a requester that is no member sees the active member's. -/
def kstrStatRead (s : State) (inp e : Nat) : W64 :=
  let x := s.kstr (if 17 ≤ inp then memberOf inp else s.activeMember) e
  BitVec.ofNat 64 (x.st + (if x.st = 2 then x.done * 2 ^ 32 else 0))

/-- FENCE_REQUEST: an operator's MCTP message reaches the Keeper, a trigger for its firmware (R595). -/
def fenceRequest (s : State) (_core : Nat) : State := s.raiseKeep 17

end Sys2Proof.Machine
end

