-- ==== Sys2Proof/Machine/Boot.lean ====
section
/-! DEFINITION.
Bring-up, the reset classes, loss of the input and thermal trip (spec 23, 24, 20 R570, 13 R392). -/

namespace Sys2Proof.Machine

def rBoot : Nat := 0x28
/-- MOD.BOOT.STAGE and CAUSE. -/
def State.stage (s : State) : Nat := s.fld rBoot 3 0
def State.bootCause (s : State) : Nat := s.fld rBoot 23 16

/-! ### The core maps at reset (R392) -/

/-- The positions of die d that may take logical positions, in the order of R392. -/
def mapOrder (rec_ : Tab (Nat × Nat × Bool × Nat)) (d : Nat) : List Nat :=
  let ps := (List.range 80).map (80 * d + ·)
  let named (i : Nat) : Bool := (Tab.find rec_ i).isSome
  let returned (i : Nat) : Bool := match Tab.find rec_ i with | some (1, _) => true | _ => false
  ps.filter (fun i => fuseOf i == .active && !named i) ++ ps.filter (fun i => fuseOf i == .spare && !named i) ++
    ps.filter returned

/-- The position that logical core n takes from a list of those left: the first whose record does not name n as FORMER. -/
def takePos (rec_ : Tab (Nat × Nat × Bool × Nat)) (n : Nat) (left : List Nat) : Option Nat :=
  left.find? (fun i => match Tab.find rec_ i with | some (_, f, true, _) => f != n | _ => true)

/-- Maps one logical core: the positions left, and the state. -/
def mapOne (acc : List Nat × State) (n : Nat) : List Nat × State :=
  match takePos acc.2.nv.fenceRec n acc.1 with
  | some i =>
    let s1 := acc.2.setReg (rMap n) (BitVec.ofNat 64 (256 + posOf i))
    (acc.1.erase i, s1.modCore i (fun k => { k.setFld offFence 3 2 0 with power := .run, array := none }))
  | none => (acc.1, acc.2.setReg (rMap n) 0)

/-- The Keeper restores CORE.FENCE of the recorded positions, which wait in Deep, and loads the maps. -/
def State.loadMaps (s : State) : State :=
  if s.nv.fenceRec.isEmpty then s
  else
    let s1 := s.nv.fenceRec.foldl (fun a p => a.modCore p.1 (fun k =>
      { ((k.setFld offFence 3 2 p.2.1).setFld offFence 24 16 p.2.2.1).setFld offFence 25 25 p.2.2.2.1.toNat with
        power := .deep, array := some 0 })) s
    (List.range 4).foldl (fun a d => ((List.range 72).foldl (fun acc j => mapOne acc (72 * d + j)) (mapOrder s.nv.fenceRec d, a)).2) s1

/-! ### Module reset (R570, R622) -/

/-- PPR resources left in each device, which a reset does not restore. -/
def pprLeft (s : State) : Tab W64 :=
  (List.range 12).filterMap (fun d =>
    if s.fld (rDev d) 55 48 = 16 then none else some (rDev d, BitVec.ofNat 64 (2 + s.fld (rDev d) 55 48 * 2 ^ 48)))

/-- The module after a module reset: what R570 wipes at its reset value, the flash, the fuses and the log kept. -/
def State.resetModule (s : State) : State :=
  let s1 : State := { State.reset with
    nv := s.nv, nonceSeq := s.nv.logSeq, free := s.free, out := s.out, pending := s.pending, regs := pprLeft s }
  s1.loadMaps

/-- A write of MOD.RESET that its rule refuses (R623). -/
def State.rstRefused (s : State) : State := s.event rBoot 62

/-- MODULE_RESET: from the active Keeper only. -/
def moduleReset (s : State) (inp : Nat) : State := s.byKeeper inp State.resetModule State.rstRefused

/-- V48_GOOD: after a loss of the input, 48 V good starts a module reset and bring-up (R615, R632). -/
def v48Good (s : State) : State := if s.powered then s else s.resetModule

/-- INPUT_LOST: the regulators stop, and what no flash or fuse holds is lost. -/
def inputLost (s : State) : State := { s.resetModule with powered := false }

/-! ### The stages (R615–R620) -/

/-- Stage 7 found that a position fails: it is gated and recorded, and its logical core goes to a healthy spare of the die or
out of service (R617). -/
def failedPosition (s : State) (i : Nat) : State :=
  let n := s.logicalOf i
  let s1 := ((s.modCore i (fun k => (k.setFld offFence 3 2 2).deepZero)).log 3 1 1)
  let s2 := s1.modCore i (fun k => { k.setFld offFence 3 2 2 with power := .deep, array := some 0 })
  match n with
  | none => s2.recordFence i 2
  | some n =>
    let s3 := (s2.modCore i (fun k => (k.setFld offFence 24 16 n).setFld offFence 25 25 1)).recordFence i 2
    match ((List.range 80).map (80 * dieOf i + ·)).find? (fun j => s3.fence j == 1 &&
      !((s3.core j).fld offFence 25 25 == 1 && (s3.core j).fld offFence 24 16 == n)) with
    | some j =>
      let s4 := s3.setReg (rMap n) (BitVec.ofNat 64 (256 + posOf j))
      s4.modCore j (fun k => { k.setFld offFence 3 2 0 with power := .run, array := none })
    | none => s3.clrFlag (rMap n) 8

/-- Binds the lowest unused spare row of its bank to a row, and leaves the physical row so replaced out of use; none where the
bank has no spare left (R267). -/
def Core.bindSpare (k : Core) (r : Nat) : Option Core :=
  (k.spareRow (r % 16)).map (fun q => { k with
    rowMap := Tab.put k.rowMap r q, dead := k.dead ++ [k.phys r]
    spareUsed := Tab.put k.spareUsed (r % 16) (Tab.get [] k.spareUsed (r % 16) ++ [q]) })

/-- Stage 7 builds the row maps afresh: from the repair record, then from the rows that fail the self-test, which join the record.
Gives the positions of slices with a bank that needs more than its 64 spare rows (R267). -/
def State.buildMaps (s : State) (rows : List (Nat × Nat)) : State × List Nat :=
  let new := rows.filter (fun x => decide (x.2 < 49152))
  let s0 := { s with
    nv := { s.nv with repairs := s.nv.repairs ++ new }
    cores := s.cores.map (fun (p : Nat × Core) => (p.1, { p.2 with rowMap := [], spareUsed := [], dead := [] })) }
  s0.nv.repairs.foldl (fun (a : State × List Nat) (x : Nat × Nat) =>
    match (a.1.core x.1).bindSpare x.2 with
    | some k => (a.1.setCore x.1 k, a.2)
    | none => (a.1, if x.1 ∈ a.2 then a.2 else x.1 :: a.2)) (s0, [])

/-- Stage 7: the maps are built, and the positions that fail are gated (R617). -/
def selfTest (s : State) (failed : List Nat) (rows : List (Nat × Nat)) : State :=
  let p := s.buildMaps rows
  (failed ++ p.2.filter (fun i => !(failed.contains i))).foldl failedPosition p.1

/-- A component runs the copy that a boot uses (R563). -/
def State.runBoot (s : State) (comp : Nat) : State := { s with running := Tab.put s.running comp (s.nv.bootImage comp) }

/-- Stage 3: both Keeper members load their image and start in it, and the active one derives its keys (R565, R615). -/
def State.loadKeepers (s : State) : State :=
  let s1 := { s.runBoot 1 with bootF := s.nv.f }
  (s1.bootKeeper 0 (s1.image 1)).bootKeeper 1 (s1.image 1)

/-- Stage 9: the active control processor image is written into each SRAM, and the processors start at its entry, one every 10 µs
(R619). -/
def State.startProcs (s : State) : State :=
  let img := s.nv.bootImage 2
  (List.range 16).foldl (fun a p =>
    a.modProc p (fun k => { k.start (Config.imageEntry img) (s.rootNow + 10 * ctPerUs * p) with sram := [], code := img, data := img })) (s.runBoot 2)

/-- STAGE_COMPLETE: the stage in progress reports done and the next begins; after a failure in stages 3 to 9 it is the host port of
stage 10 that completes (R616, R620). -/
def stageComplete (s : State) (failed : Positions) (rows : BadRows) : State :=
  if s.powered = false then s
  else if s.bootCause ≠ 0 then (if 3 ≤ s.stage ∧ s.stage ≤ 9 then { s with portReady := true } else s)
  else
    let k := s.stage
    let next (s : State) : State := s.setFld rBoot 3 0 (k + 1)
    match k with
    | 3 => next s.loadKeepers
    | 7 => next (selfTest s (failed.map (·.val)) (rows.map (fun x => (x.1.val, x.2))))
    | 8 => next ((s.runBoot 4).setFlag rCellStat 2)
    | 9 => next s.startProcs
    | 10 => next { s with portReady := true }
    | 11 => next (s.runBoot 3)
    | 12 => if s.flag rTstat 3 then next s else s
    | 13 => (next (gctlWrite s 2)).setFlag rBoot 8
    | 14 => s
    | _ => next s

/-- STAGE_TIMEOUT: a stage over twice its bound, or that meets a failure, stops the sequence (R616). -/
def stageTimeout (s : State) (cause : Nat) : State :=
  if s.powered = false ∨ s.bootCause ≠ 0 ∨ 14 ≤ s.stage ∨ cause = 0 ∨ 8 < cause then s
  else (s.setFld rBoot 23 16 cause).log 4 1 2

/-! ### Core reset (R622–R624) -/

/-- What a core keeps through a core reset: its slice with its port, its ownership and configuration registers, its fuse and
power, and the rows its decoupling queues move; each waggle queue is empty in its next epoch. -/
def Core.coreReset (k : Core) : Core :=
  { regs := k.regs.filter (fun p => keepsInDeep p.1 && p.1 != 0xB10), nextIssue := k.nextIssue, nextId := k.nextId, rowMap := k.rowMap
    spareUsed := k.spareUsed, dead := k.dead, defects := k.defects, rewrites := k.rewrites, scrubAt := k.scrubAt
    repair := k.repair, copy := k.copy, fuse := k.fuse, power := k.power, array := k.array, wakeDue := k.wakeDue
    wakeAt := k.wakeAt, wcount := k.wcount, rport := k.rport, rbuf := k.rbuf, records := k.records, wins := k.wins
    hold := k.hold, wq := k.wq, rq := k.rq.map (fun q => (q.1, { q.2 with tokens := 0 })), fwrites := k.fwrites
    fwNext := k.fwNext, waggle := (List.range 16).map (fun q =>
      let w : WaggleQ := Tab.get {} k.waggle q
      (q, { epoch := w.epoch + 1 })) }

/-- The steps of an END for a context that holds a task, up to the first cycle of its clear (R54, R624). -/
def State.endNow (s : State) (i n : Nat) : State :=
  match (s.ctx i n).mode with
  | .noTask => s
  | .closing _ => s
  | _ => (endTask s i n).beginClear i n

/-- CORE_RESET: from the active Keeper, where the position is active or spare and no copy names its slice. The wipe is done at
once; the reset runs for a time within 10 µs that the spec leaves open. -/
def coreResetOp (s : State) (inp i : Nat) : State :=
  s.byKeeper inp (fun t =>
    if 1 < t.fence i ∨ t.copying i then t.rstRefused
    else
      let t1 := [0, 1, 2, 3].foldl (fun a n => a.endNow i n) t
      let len := Nat.min (10 * ctPerUs) (Config.resetTime t1.free)
      let t2 := ({ t1 with free := t1.free + 1 }.freeHalts i).modCore i (fun k => { k.coreReset with resetEnd := t.ct + len })
      if 2 ≤ t2.phase then t2.failCurrent else t2) State.rstRefused

/-- A write to MOD.RESET. -/
def resetWrite (s : State) (inp : Nat) (v : W64) : State :=
  match bits v 1 0 with
  | 1 =>
    if bits v 9 3 < 80 then coreResetOp s inp (80 * bits v 11 10 + bits v 9 3)
    else s.byKeeper inp State.rstRefused State.rstRefused
  | 2 => moduleReset s inp
  | _ => s

/-! ### Thermal trip (R637) -/

/-- THERMAL_TRIP: the release fails with cause THROTTLE, the trip is logged, and the core and Comb rails of every Hive die are
off until a module reset. -/
def thermalTrip (s : State) : State :=
  let s1 := (s.failStep 12).log 4 4 3
  { s1 with
    hiveOff := true, comb := [], flights := [], ctls := [], evStacks := [], charges := []
    cores := (List.range 320).map (fun i =>
      (i, { coreInit i with power := .deep, array := some 0 }))
    procs := s1.procs.map (fun p => if p.1 < 16 then (p.1, { epoch := p.2.epoch + 1 }) else p)
    regs := s1.regs.filter (fun p => decide (p.1 < 0x400000) || decide (0x440000 ≤ p.1)) }

/-- TEST_PORT_INSTRUCTION: the register an instruction selects, 0 IDCODE, 1 BYPASS, 2 boundary scan; locked, every instruction
but IDCODE selects BYPASS (R631). -/
def testPort (s : State) (ins : TestIns) : State :=
  let open_ := s.nv.lc == 0 || s.testOpen
  s.send (.testPort (match ins with
    | .idcode => 0
    | .bypass => 1
    | .boundary => if open_ then 2 else 1))

end Sys2Proof.Machine
end

