-- ==== Sys2Proof/Machine/RowsBoot.lean ====
section
/-! DEFINITION.
Bring-up, resets, the thermal trip and the test port (spec 20, 21, 23).  One definition a row; each calls the shared operation that holds the rule. -/

namespace Sys2Proof.Machine

/-- V48_GOOD (R615). -/
def execV48Good (s : State) : Out := ok (Machine.v48Good s)
/-- INPUT_LOST (R632). -/
def execInputLost (s : State) : Out := ok (Machine.inputLost s)
/-- STAGE_COMPLETE (R615). -/
def execStageComplete (found : SelfTests) (s : State) : Out :=
  ok (Machine.stageComplete s found.1 found.2)
/-- STAGE_TIMEOUT (R616). -/
def execStageTimeout (cause : B8) (s : State) : Out := ok (Machine.stageTimeout s cause.toNat)
/-- MODULE_RESET (R622). -/
def execModuleReset (inp : Inp) (s : State) : Out := ok (Machine.moduleReset s inp)
/-- CORE_RESET (R624). -/
def execCoreReset (inp : Inp) (core : CoreIx) (s : State) : Out := ok (coreResetOp s inp core)
/-- THERMAL_TRIP (R637). -/
def execThermalTrip (_core : CoreIx) (s : State) : Out := ok (Machine.thermalTrip s)
/-- TEST_PORT_INSTRUCTION (R631). -/
def execTestPortInstruction (ins : TestIns) (s : State) : Out := ok (testPort s ins)

end Sys2Proof.Machine
end

