-- ==== Sys2Proof/Machine/HostPort.lean ====
section
/-! DEFINITION.
The host port: link training and resets, host memory and configuration requests, MSI-X, DOE, snoops, IDE (spec 18, 23 R620). -/

namespace Sys2Proof.Machine

def State.modPort (s : State) (f : Port → Port) : State := { s with port := f s.port }

/-! ### The link (R511, R527, R620) -/

/-- LINK_TRAINING: the link comes up in 256-byte flit mode at a width and rate of R510, or stays down as NOFLIT. -/
def linkTraining (s : State) (agreed : Bool) (width rate : Nat) (lopt : Bool) : State :=
  if s.powered = false ∨ s.hostUp then s
  else if agreed ∧ (width = 4 ∨ width = 8 ∨ width = 16) ∧ rate ≤ 2 then
    s.setReg rLstat (setBits (setBits (setBits (setBit (s.reg rLstat) 15 lopt) 12 8 width) 7 6 rate) 2 0 2)
  else s.setFld rLstat 15 0 3

/-- PORT_RESET: PERST_N (0), a hot reset (1), a secondary bus reset (2), a link-down event (3): each resets the port and
nothing else.  The channels' line requests end as HOST_ERR, with the link down already. -/
def portReset (s : State) (_kind : Nat) : State :=
  let s1 := { s.setBusQueue 0 [] with
    port := { nextReq := s.port.nextReq }
    regs := s.regs.filter (fun p => !(decide (blkCXLP + 0x1000 ≤ p.1) && decide (p.1 < blkCXLP + 0x40000))) }
  (s1.setReg rLstat (setBits (plainCount 63 48 1 (s.reg rLstat)) 15 0 0)).hostErrors

/-! ### Errors (R514, R519, R526) -/

/-- An error logged in AER: 0 Completer Abort with the request's address, 1 IDE Check Failed with the stream; vector 9. -/
def State.aerLog (s : State) (kind info : Nat) : State :=
  (s.modPort (fun p => { p with aer := p.aer ++ [(kind, info)] })).msix 9

/-- An IDE stream leaves the secure state: 0 CXL.io, 1 CXL.cache. -/
def State.ideLeave (s : State) (st : Nat) : State :=
  let s1 := (s.clrFlag rLstat (13 + st)).modPort (fun p => { p with ideDead := st :: p.ideDead.filter (· ≠ st) })
  (s1.aerLog 1 st).hostErrors

/-- IDE_CHECK_FAILED. -/
def ideCheckFailed (s : State) (io : Bool) : State := s.ideLeave (if io then 0 else 1)

/-- A line response on CXL.cache: discarded while that stream's traffic is. -/
def hostLineIn (s : State) (c id st : Nat) (data : Line) : State :=
  if s.port.ideDead.contains 1 then s else hostLine s c id st data

/-! ### Host requests (R512, R513) -/

/-- First service address and size of BAR0, BAR2 and BAR4. -/
def barBase (b : Nat) : Nat := match b with | 0 => 0x200000000 | 1 => 0 | _ => 0x100000000000
def barSize (b : Nat) : Nat := match b with | 0 => 2 ^ 28 | 1 => 2 ^ 33 | _ => 2 ^ 40

/-- The pieces of `n` bytes at an address: cut at every 64-byte boundary, with the data to write. -/
def cutPieces (req : Nat) (write : Bool) : Nat → Nat → Nat → Nat → Nat → List BusAcc
  | 0, _, _, _, _ => []
  | fuel + 1, j, a, n, v =>
    if n = 0 then []
    else
      let m := Nat.min n (64 - a % 64)
      ⟨write, a, m, v % 2 ^ (8 * m), .host req j⟩ :: cutPieces req write fuel (j + 1) (a + m) (n - m) (v / 2 ^ (8 * m))

/-- The region of the service address space that an address lies in (R20). -/
def hostRegion (a : Nat) : Nat :=
  if a < 2 ^ 33 then 0 else if 0x200000000 ≤ a ∧ a ≤ 0x20FFFFFFF then 1 else if 0x100000000000 ≤ a ∧ a < 0x110000000000 then 2 else 3

/-- Host pieces join the pending queue of input 0 while it has room; a piece for another region than those before it only once they
have been applied, so that host requests are applied in their order (R513). -/
def State.feedHost (s : State) : State :=
  let held := (s.busQueue 0 ++ ((Tab.get [] s.bus.flying 0).filter (·.res.isNone)).map (·.acc)).head?
  let r := match held, s.port.waiting with | some a, _ => hostRegion a.addr | none, a :: _ => hostRegion a.addr | none, [] => 0
  let n := Nat.min (8 - (s.busQueue 0).length) (s.port.waiting.takeWhile (fun x => hostRegion x.addr == r)).length
  ((s.port.waiting.take n).foldl (fun a x => a.busPush 0 x) s).modPort (fun p => { p with waiting := p.waiting.drop n })

/-- HOST_MEMORY_REQUEST: a host read or write of a BAR, of at most 4,096 and 512 bytes, becomes accesses of input 0. -/
def hostRequest (s : State) (wr : Bool) (bar off : Nat) (data : List Byte) (len : Nat) : State :=
  let n := if wr then data.length else len
  if s.hostUp = false ∨ s.port.ideDead.contains 0 ∨ 2 < bar ∨ n = 0 ∨ (if wr then 512 else 4096) < n ∨ barSize bar < off + n then s
  else
    let a := barBase bar + off
    let v := if wr then data.foldr (fun b acc => b.toNat + 256 * acc) 0 else 0
    let id := s.port.nextReq
    let l := cutPieces id wr 65 0 a n v
    (s.modPort (fun p => { p with
      waiting := p.waiting ++ l, reqs := p.reqs ++ [⟨id, wr, a, n, l.length, 0, 0, false⟩], nextReq := id + 1 })).feedHost

/-- The completion of one piece; with the last a read is answered, or ends in Completer Abort (R514). -/
def State.hostPiece (s : State) (req : Nat) (acc : BusAcc) (good : Bool) (v : Nat) : State :=
  match s.port.reqs.find? (fun r => r.id == req) with
  | none => s
  | some r =>
    let r1 : HostReq := { r with
      served := r.served + 1, failed := r.failed || !good
      data := r.data + (if good && !r.write then v * 2 ^ (8 * (acc.addr - r.addr)) else 0) }
    let s1 := if r.write && !good then s.aerLog 0 acc.addr else s
    if r1.served < r.pieces then
      s1.modPort (fun p => { p with reqs := p.reqs.map (fun x => if x.id = req then r1 else x) })
    else
      let s2 := s1.modPort (fun p => { p with reqs := p.reqs.filter (fun x => x.id ≠ req) })
      if r.write then s2
      else if r1.failed then (s2.send (.completion false 0 0)).aerLog 0 r.addr
      else s2.send (.completion true r1.data r.size)

/-! ### Configuration requests (R510–R512, R620) -/

/-- The bits of a BAR register that the host can write, and its type bits. -/
def barMask (off : Nat) : Option (Nat × Nat) :=
  match off with
  | 0x10 => some (0xF0000000, 0x4)
  | 0x14 => some (0xFFFFFFFF, 0)
  | 0x18 => some (0, 0xC)
  | 0x1C => some (0xFFFFFFFE, 0)
  | 0x20 => some (0, 0xC)
  | 0x24 => some (0xFFFFFF00, 0)
  | _ => none

/-- A configuration register as the host reads it. -/
def State.cfgRead (s : State) (off : Nat) : W32 :=
  let v : W32 := Tab.get 0 s.port.cfg off
  match off with
  | 0x00 => BitVec.ofNat 32 (Config.vendorId.toNat + 0x5A08 * 2 ^ 16)
  | 0x08 => BitVec.ofNat 32 (0xA1 + 0x120000 * 2 ^ 8)
  | _ => match barMask off with
    | some (m, t) => (v &&& BitVec.ofNat 32 m) ||| BitVec.ofNat 32 t
    | none => Config.cfgWord off v

/-- CONFIGURATION_REQUEST: answered with Request Retry Status until stage 10 has completed. -/
def configRequest (s : State) (wr : Bool) (off : Nat) (data : W32) : State :=
  let o := off / 4 * 4
  if s.hostUp = false ∨ s.port.ideDead.contains 0 then s
  else if s.portReady = false then s.send (.cfgReply true 0)
  else if wr then (s.modPort (fun p => { p with cfg := Tab.put p.cfg o data })).send (.cfgReply false 0)
  else s.send (.cfgReply false (s.cfgRead o))

/-! ### MSI-X, DOE, mailbox commands, snoops (R522, R524) -/

/-- MSI_X_UNMASK: the vector's mask bit clears, and a pending message is sent. -/
def msixUnmask (s : State) (v : Nat) : State :=
  let s1 := s.setReg (rMsixCtl v) (setBit (s.reg (rMsixCtl v)) 32 false)
  if s1.flag rPba v then (s1.clrFlag rPba v).msix v else s1

/-- SNOOP: RspIHitI to every snoop; none while that stream's traffic is discarded (R526). -/
def snoop (s : State) : State := if s.lineUp then s.send .snoopReply else s

/-- The protocols of a DOE mailbox: vendor and type (R524; the codes are PCI-SIG's and CXL's, log entry 41). -/
def doeProtocols (second : Bool) : List (Nat × Nat) :=
  if second then [(0x0001, 0), (0x1E98, 2)] else [(0x0001, 0), (0x0001, 1), (0x0001, 2)]

/-- DOE_DISCOVERY: the protocol at an index, and the next index, 0 after the last. -/
def doeDiscovery (s : State) (second : Bool) (index : Nat) : State :=
  let l := doeProtocols second
  let w := match l[index]? with
    | some (v, t) => v + t * 2 ^ 16 + (if index + 1 < l.length then index + 1 else 0) * 2 ^ 24
    | none => 0xFFFF
  if s.hostUp then s.send (.doe (bytesOf w 4)) else s

/-- TABLE_ACCESS: the one CDAT table, a header with no structures. -/
def tableAccess (s : State) (handle : Nat) : State :=
  if s.hostUp then s.send (.doe (Config.cdatReply handle)) else s

/-- GET_EVENT_RECORDS: a generic mailbox command; vector 8 at its completion. -/
def eventRecords (s : State) (opcode : Nat) : State :=
  if s.hostUp then (s.send (.doe (Config.mailboxReply opcode (s.port.aer.map (·.1))))).msix 8 else s

end Sys2Proof.Machine
end

