-- ==== Sys2Proof/Machine/Mgmt.lean ====
section
/-! DEFINITION.
Management, identity and firmware: MCTP, SPDM, IDE key management, PLDM updates and activation, the life cycle (spec 20
R560–R570, 18 R525). -/

namespace Sys2Proof.Machine

/-- Whether the active member's ROM is in recovery: the sequence stopped in stage 3 (R616). -/
def State.recovering (s : State) : Bool := s.bootCause != 0 && s.stage == 3
/-- Whether a member answers: the active one, unless STATE is NONE (R548, R560) or its ROM is in recovery. -/
def State.answers (s : State) : Bool := s.roleState != 2 && !s.recovering
/-- A message has reached the Keeper (R552). -/
def State.heard (s : State) : State := s.raiseKeep 17
def State.reply (s : State) (m : List Byte) : State := s.send (.mctp m)
/-- What the active member does with a message. -/
def State.message (s : State) (f : State → State) : State := if s.answers then f s.heard else s
/-- What it does with a PLDM message or one of the mailbox, which recovery accepts too (R616). -/
def State.pldm (s : State) (f : State → State) : State := if s.answers || (s.roleState != 2 && s.recovering) then f s.heard else s

/-- MAILBOX_MCTP_COMMAND: opcode 0xC001 carries one message each way (R526, R560). -/
def mailboxMctp (s : State) (msg : List Byte) : State :=
  if s.hostUp then s.pldm (fun t => (t.reply (Config.mctpReply msg)).msix 8) else s

/-- SET_ENDPOINT_ID. -/
def setEndpoint (s : State) (eid : Nat) : State :=
  s.message (fun t => (t.modMember t.activeMember (fun k => { k with eid := eid })).reply (Config.mctpReply [BitVec.ofNat 8 eid]))

/-- PLDM_DISCOVERY. -/
def pldmDiscovery (s : State) (cmd : Nat) : State := s.pldm (fun t => t.reply (Config.pldmReply cmd []))

/-! ### SPDM (R566, R567) -/

def State.spdm (s : State) : Spdm := (s.member s.activeMember).spdm
def State.setSpdm (s : State) (x : Spdm) : State := s.modMember s.activeMember (fun k => { k with spdm := x })

/-- The life cycle record of measurement 5, 72 bytes. -/
def State.lifeRecord (s : State) : List Byte :=
  [BitVec.ofNat 8 s.nv.lc, BitVec.ofNat 8 s.nv.f, BitVec.ofNat 8 s.testOpen.toNat, 0, 0, 0, 0, 0] ++
    bytesOf Config.imageKey.toNat 64

/-- Measurement block i: the SHAKE256 digest of a running component's body, or of the life cycle record. -/
def State.measurement (s : State) (i : Nat) : Nat :=
  if i = 5 then Config.shake s.lifeRecord 512 else Config.bodyDigest (s.image i)

/-- The seeds of the DevID and Alias keys: 96 bytes each of SHAKE256 over U, a string, and for the Alias key M_K and F; none
where the life cycle state gives no identity (R565, R570). -/
def State.seeds (s : State) : List Nat :=
  let u := bytesOf Config.secret.toNat 32
  if s.lcOpen then
    [Config.shake (u ++ [0x53, 0x56, 0x5A, 0x38, 0x20, 0x44, 0x45, 0x56, 0x49, 0x44]) 768,
     Config.shake (u ++ [0x53, 0x56, 0x5A, 0x38, 0x20, 0x41, 0x4C, 0x49, 0x41, 0x53] ++ bytesOf (s.measurement 1) 64 ++
       [BitVec.ofNat 8 s.bootF]) 768]
  else []

/-- A request answered by the responder: the transcript takes the request and its reply, which the keys and
the values reported make. -/
def State.spdmAnswer (s : State) (code : Nat) (msg : List Byte) (vals : List Nat) : State :=
  let t := s.spdm.transcript ++ [msg]
  let r := Config.spdmReply code t (s.seeds ++ vals)
  (s.setSpdm { s.spdm with transcript := t ++ [r] }).reply r

/-- GET_VERSION starts the exchange anew. -/
def getVersion (s : State) (msg : List Byte) : State := s.message (fun t => (t.setSpdm {}).spdmAnswer 0x84 msg [])
def getCapabilities (s : State) (msg : List Byte) : State := s.message (fun t => t.spdmAnswer 0xE1 msg [])
def negotiateAlgorithms (s : State) (msg : List Byte) : State := s.message (fun t => t.spdmAnswer 0xE3 msg [])
def getDigests (s : State) (msg : List Byte) : State := s.message (fun t => t.spdmAnswer 0x81 msg [])
def getCertificate (s : State) (slot off len : Nat) : State := s.message (fun t => t.spdmAnswer 0x82 [] [slot, off, len])
def challenge (s : State) (slot : Nat) (msg : List Byte) : State := s.message (fun t => t.spdmAnswer 0x83 msg [slot])

/-- GET_MEASUREMENTS: one block of 1 to 5, or with index 255 all of them. -/
def getMeasurements (s : State) (index : Nat) (sig : Bool) (msg : List Byte) : State :=
  let l := if index = 255 then [1, 2, 3, 4, 5] else if 1 ≤ index ∧ index ≤ 5 then [index] else []
  s.message (fun t => t.spdmAnswer 0xE0 msg (sig.toNat :: l.map t.measurement))

def keyExchange (s : State) (msg : List Byte) : State :=
  s.message (fun t => (t.setSpdm { t.spdm with session := 1 }).spdmAnswer 0xE4 msg [])
/-- FINISH secures a session that KEY_EXCHANGE began. -/
def finish (s : State) (msg : List Byte) : State :=
  s.message (fun t =>
    if t.spdm.session = 1 then (t.setSpdm { t.spdm with session := 2 }).spdmAnswer 0xE5 msg [1] else t.spdmAnswer 0xE5 msg [0])
def keyUpdate (s : State) (op : Nat) : State :=
  s.message (fun t =>
    if t.spdm.session = 2 then (t.setSpdm { t.spdm with updates := t.spdm.updates + 1 }).spdmAnswer 0xE9 [] [op, 1]
    else t.spdmAnswer 0xE9 [] [op, 0])
def heartbeat (s : State) : State := s.message (fun t => t.spdmAnswer 0xE8 [] [t.spdm.session])
def endSession (s : State) : State :=
  s.message (fun t => (t.setSpdm { t.spdm with session := 0 }).spdmAnswer 0xEC [] [t.spdm.session])

/-- IDE_KM, inside a secured session: 0 programs a key, 1 puts the stream into the secure state with a programmed key set, 2
takes it out, 3 queries (R525, R526). -/
def ideKm (s : State) (io : Bool) (op : Nat) (keyset : Bool) (key : Key) : State :=
  let st := if io then 0 else 1
  s.message (fun t =>
    if t.spdm.session ≠ 2 then t.spdmAnswer 0xFE [] [0]
    else
      let t1 := match op with
        | 0 => t.modPort (fun p => { p with ideKeys := Tab.put p.ideKeys (2 * st + keyset.toNat) key })
        | 1 =>
          if (Tab.find t.port.ideKeys (2 * st + keyset.toNat)).isSome then
            (t.setFlag rLstat (13 + st)).modPort (fun p => { p with ideDead := p.ideDead.filter (· ≠ st) })
          else t
        | 2 => if t.flag rLstat (13 + st) then t.ideLeave st else t
        | _ => t
      t1.spdmAnswer 0xFE [] [1])

/-! ### Firmware updates (R560–R564) -/

def State.update (s : State) : Option Update := (s.member s.activeMember).update
def State.setUpdate (s : State) (u : Option Update) : State := s.modMember s.activeMember (fun k => { k with update := u })
/-- The half that does not hold a component's active copy. -/
def State.spareHalf (s : State) (comp : Nat) : Nat := 1 - s.nv.activeHalf comp
def State.newSlot (s : State) (comp : Nat) : List (Nat × Byte) := s.nv.slot comp (s.spareHalf comp)

/-- The components 1–4 that the bits of `comps` name. -/
def compsOf (comps : Nat) : List Nat := (List.range 4).filterMap (fun j => if comps / 2 ^ j % 2 = 1 then some (j + 1) else none)

/-- Whether an update of these components may start: the life cycle state accepts updates, none is in progress (one whose
activation awaits a clearing or a bank switch still is), and a sequence stopped in stage 3 takes only the Keeper component
(R563, R616). -/
def State.mayUpdate (s : State) (l : List Nat) : Bool :=
  s.lcOpen && s.update.isNone && !s.cpPend && !(List.range 24).any (fun k => (s.link k).codeNew) && !(s.recovering && l != [1])

/-- REQUEST_UPDATE: an update starts and the slots it writes are erased, or it is refused. -/
def requestUpdate (s : State) (comps : Nat) : State :=
  let l := compsOf comps
  s.pldm (fun t =>
    if t.mayUpdate l then
      let t1 := (l.foldl (fun a c => a.setNv (fun n => n.erase (slotBase c (s.spareHalf c)) 0x1000000)) t).raiseKeep 18
      (t1.setUpdate (some { comps := l })).reply (Config.pldmReply 0x10 [1])
    else t.reply (Config.pldmReply 0x10 [0]))

/-- REQUEST_FIRMWARE_DATA: a chunk of at most 1,024 bytes is written into the component's slot. -/
def firmwareData (s : State) (comp off : Nat) (data : List Byte) : State :=
  s.pldm (fun t => match t.update with
    | some u =>
      if u.comps.contains comp ∧ data.length ≤ 1024 ∧ off + data.length ≤ 0x1000000 then
        (t.setNv (fun n => n.write (slotBase comp (t.spareHalf comp) + off) data.length
          (data.foldr (fun b a => b.toNat + 256 * a) 0))).raiseKeep 18
      else t
    | none => t)

/-- The image written for a component is valid (R561). -/
def State.imageValid (s : State) (comp : Nat) : Bool := s.nv.slotValid comp (s.spareHalf comp)

/-- VERIFY_COMPLETE: the Keeper verifies a written component and answers. -/
def verifyComplete (s : State) (comp : Nat) : State :=
  s.pldm (fun t => match t.update with
    | some u =>
      if u.comps.contains comp ∧ t.imageValid comp then
        (t.setUpdate (some { u with verified := u.verified ++ [comp] })).reply (Config.pldmReply 0x17 [1])
      else t.reply (Config.pldmReply 0x17 [0])
    | none => t.reply (Config.pldmReply 0x17 [0]))

/-- A component runs an image from now on; Cellar training firmware only from the next full retraining or bring-up on (R564). -/
def State.runs (s : State) (comp : Nat) (img : Tab Byte) : State :=
  { s with running := if comp = 4 then s.running else Tab.put s.running comp img }

/-- A component's activation has completed: its new copy is marked active, and F advances where its image says so
(R562, R564). -/
def State.markActive (s : State) (comp : Nat) : State :=
  let h := s.spareHalf comp
  let img := s.newSlot comp
  let old := Tab.get {} s.nv.dir (2 * comp + (1 - h))
  let s1 := (s.runs comp img).setNv (fun n => { n with dir := Tab.put n.dir (2 * comp + h) { active := true, seq := old.seq + 1 } })
  if slotByte img 7 % 2 = 1 then
    if s.nv.f = 64 then s1.log 1 2 4
    else if s.nv.f < slotByte img 6 then s1.setNv (fun n => { n with f := Nat.min 64 (slotByte img 6) }) else s1
  else s1

/-- Keeper activation begins: the standby reboots into the new image, unless the active member's VERSION is below MINPEER. -/
def State.rebootStandby (s : State) : State :=
  let b := s.standbyMember
  let img := s.newSlot 1
  if slotWord (s.nv.slot 1 (s.nv.activeHalf 1)) 8 < slotWord img 12 ∧ !s.nv.dir.isEmpty then s.log 3 2 5
  else (s.modMember b (fun k => { k with newImage := true })).bootKeeper b img

/-- Activates one verified component as its kind lays down. -/
def State.activate (s : State) (comp : Nat) : State :=
  match comp with
  | 1 => s.rebootStandby
  | 2 => { s with cpPend := true }
  | 3 => (List.range 24).foldl (fun a k => a.modLink k (fun l => { l with codeNew := true })) s
  | _ => s.markActive comp

/-- ACTIVATE_FIRMWARE: each verified component is verified again from flash and activated, or the failure is logged (R561, R564). -/
def activateFirmware (s : State) : State :=
  s.pldm (fun t => match t.update with
    | some u =>
      ((u.verified.foldl (fun a c => if t.imageValid c then a.activate c else a.log 3 2 5) t).setUpdate none).reply (Config.pldmReply 0x1A [1])
    | none => t.reply (Config.pldmReply 0x1A [0]))

/-- BEAT, with what a swap of roles does for a Keeper activation: the former active member reboots into the same image, and
the activation is complete (R549, R564). -/
def beatOp (s : State) (inp : Nat) : State :=
  let s1 := beat s inp
  let a := s1.activeMember
  if s1.activeMember ≠ s.activeMember ∧ (s1.member a).newImage then
    (({ s1.markActive 1 with bootF := s1.nv.f }).modMember a (fun k => { k with newImage := false })).bootKeeper (1 - a) (s1.newSlot 1)
  else s1

/-- A write to KEEP.HBW. -/
def hbwWrite (s : State) (inp : Nat) (v : W64) : State := if bit v 0 then beatOp s inp else s

/-- LANE_CODE_BANK_SWITCH: links switch one at a time, in ascending order; with the last the activation is complete. -/
def laneSwitch (s : State) (k : Nat) : State :=
  if (s.link k).codeNew = false ∨ (List.range k).any (fun j => (s.link j).codeNew) then s
  else
    let s1 := laneCodeSwitch s k
    if (List.range 24).any (fun j => (s1.link j).codeNew) then s1 else s1.markActive 3

/-- The time left in the clearing in which canopy time stands; without qualified time it has no end. -/
def State.clearingLeft (s : State) : Nat :=
  if s.flag rTstat 3 then (if s.inClearing then (s.reg rClrEnd).toNat - s.ct else 0) else ctPerMs

/-- CP_IMAGE_ACTIVATION: at a clearing with at least 1 ms left each control processor is halted, its code region rewritten, and
it is restarted at the image entry; its data region is kept. -/
def cpActivation (s : State) : State :=
  if s.cpPend = false then s
  else
    let s1 := if s.inClearing then s else s.toCt (s.reg rClrBegin).toNat
    if s1.clearingLeft < ctPerMs ∨ s1.hiveOff then s
    else
      let img := s1.newSlot 2
      let s2 := (List.range 16).foldl (fun a p => a.modProc p (fun k =>
        { k.start (Config.imageEntry img) a.rootNow with
          code := img, sram := k.sram.filter (fun e => (Config.imageCode img e.1).isNone) })) s1
      { s2.markActive 2 with cpPend := false }

/-! ### Life cycle (R568, R569) -/

/-- The transition nonce: the first 32 bytes of SHAKE256(U ‖ "SVZ8 LCNONCE" ‖ S). -/
def State.nonce (s : State) : List Byte :=
  bytesOf (Config.shake (bytesOf Config.secret.toNat 32 ++
    [0x53, 0x56, 0x5A, 0x38, 0x20, 0x4C, 0x43, 0x4E, 0x4F, 0x4E, 0x43, 0x45] ++ bytesOf s.nonceSeq 8) 256) 32

/-- The keys that may sign a transition: 0 Svavon's, 1 the operator's. -/
def transitionKeys (cur new : Nat) : List Nat :=
  match cur, new with
  | 0, 1 => [0]
  | 1, 2 => [0]
  | 2, 3 => [1]
  | 3, 2 => [1]
  | 4, _ => []
  | _, 4 => [0, 1]
  | _, _ => []

/-- The flash and fuses after a transition: the log's sequence starts in Provisioned, and Retired erases the record area. -/
def Nv.transition (n : Nv) (new : Nat) : Nv :=
  let n1 : Nv := { n with lc := new, returns := if n.lc = 3 ∧ new = 2 then n.returns + 1 else n.returns }
  if new = 1 then { n1 with logSeq := 0 }
  else if new = 4 then { n1.erase 0xE000000 0x2000000 with fenceRec := [], repairs := [] }
  else n1

/-- LIFE_CYCLE_TRANSITION: accepted, it is applied as a module reset; refused, it sets KEEP.LC.REFUSED.  Either way a fresh
nonce is derived. -/
def lifeCycle (s : State) (target : Nat) (sig : List Byte) : State :=
  s.message (fun t =>
    let msg := BitVec.ofNat 8 target :: t.nonce
    if (transitionKeys t.nv.lc target).any (fun k => Config.verifies k msg sig) ∧ !t.anyTask ∧
        !(t.nv.lc = 2 ∧ target = 3 ∧ 16 ≤ t.nv.returns) then
      ((t.setNv (fun n => n.transition target)).reply (Config.mctpReply [1])).resetModule
    else { (t.event rLc 63).reply (Config.mctpReply [0]) with nonceSeq := t.nv.logSeq })

/-- TRANSITION_NONCE. -/
def transitionNonce (s : State) : State := s.message (fun t => t.reply t.nonce)

/-- UNLOCK: in Service the operator's signed request opens the test port until the next module reset. -/
def unlock (s : State) (sig : List Byte) : State :=
  s.message (fun t =>
    if t.nv.lc = 3 ∧ Config.verifies 1 t.nonce sig then { t with testOpen := true } else t)

end Sys2Proof.Machine
end

