-- ==== Sys2Proof/Machine/RegAccess.lean ====
section
/-! DEFINITION.
The register space: what a read of each register returns, what a write does, and how an access of a given size reaches the
registers (spec 00 R9–R13, R642; 01 R27–R30; and the register tables of every chapter). -/

namespace Sys2Proof.Machine

/-! ### Fields computed from the state -/

/-- A number with bit j set where `f j` holds, for j below `n`. -/
def maskOf (n : Nat) (f : Nat → Bool) : Nat := ((List.range n).map (fun j => if f j then 2 ^ j else 0)).sum
def flagAt (b : Bool) (i : Nat) : Nat := if b then 2 ^ i else 0
def isMode (w : Option (SbUnit × Nat)) : Bool := match w with | some (.svu, _) => true | some (.epilogue, _) => true | _ => false

/-- CORE.STAT: FENCED alone while the core is without power (R68, R576). -/
def coreStatRead (s : State) (i : Nat) : W64 :=
  let k := s.core i
  let fenced := flagAt (s.fence i ≠ 0) 0
  if k.off then BitVec.ofNat 64 fenced
  else
    let run := match k.phase with | .running n => n | _ => k.lastRun
    BitVec.ofNat 64 (fenced + flagAt k.runningCtx.isNone 1 + flagAt (k.phase == .gated) 2 + run * 2 ^ 8 + k.sb.length * 2 ^ 10)

/-- CORE.CTXn.STAT.WAIT. -/
def waitCode : Wait → Nat
  | .at _ => 1
  | .queue .. => 2
  | .flag .. => 3
  | .region .. => 4
  | .replay => 5
  | .miss .. => 6
  | .lock _ => 6
  | .confirm .. => 7

/-- CORE.CTXn.STAT: STATE and WAIT with the stored bits.  A context in step 2 of R54 still counts as ready or running
(DEDUCED, log entry 42). -/
def ctxStatRead (k : Core) (n : Nat) : W64 :=
  let p : Nat × Nat := match (k.getCtx n).mode with
    | .noTask => (0, 0)
    | .opening .. => (1, 0)
    | .closing _ => (1, 0)
    | .waiting w => (3, waitCode w)
    | _ => (2, 0)
  setBits (setBits (k.reg (offStat n)) 4 2 p.2) 1 0 p.1

/-- CORE.MXSTAT (R142). -/
def mxstatRead (k : Core) : W64 :=
  BitVec.ofNat 64 ((List.range 8).map (fun j => match k.gangOf j with
    | some (_, g) => flagAt true j + flagAt g.busy (8 + j) + g.ctx * 2 ^ (16 + 2 * j)
    | none => 0)).sum

/-- CORE.MVSTAT (R169). -/
def mvstatRead (k : Core) (cyc : Nat) : W64 :=
  let v := k.mvp
  BitVec.ofNat 64 (flagAt (!v.passes.isEmpty) 0 + flagAt v.load.isSome 1 + (if k.mvReading cyc then v.ports else 0) * 4 +
    flagAt (k.port1Held cyc) 4 + flagAt v.claim.isSome 5 + v.claim.getD 0 * 2 ^ 6 +
    maskOf 8 (fun j => (Tab.get {} v.slots j).loaded) * 2 ^ 8)

/-- CORE.VSTAT (R230). -/
def vstatRead (k : Core) : W64 :=
  BitVec.ofNat 64 (flagAt (k.svu.isSome || !k.svuTail.isEmpty || k.bld.isSome) 0 + flagAt (k.ep.isSome || !k.epTail.isEmpty) 1 +
    flagAt (isMode k.wport) 2 + ((List.range 4).map (fun b => (Tab.get {} k.bufs b).owner.getD 0 * 2 ^ (4 + 2 * b))).sum +
    maskOf 4 (fun b => (Tab.get {} k.bufs b).owner.isSome) * 2 ^ 12 + maskOf 4 (fun b => (Tab.get {} k.bufs b).tag ≠ 0) * 2 ^ 16)

def streamSt (k : Core) (t : Nat) : Nat := match k.stream t with | some x => x.st | none => 0

/-- CORE.FSTAT and CORE.CQSTAT (R307). -/
def fstatRead (k : Core) : W64 :=
  BitVec.ofNat 64 (maskOf 16 (fun t => streamSt k t ≠ 0) + maskOf 16 (fun t => streamSt k t = 4) * 2 ^ 16 +
    maskOf 8 (fun q => (k.queue q).owner.isSome) * 2 ^ 32 + k.creditsUsed * 2 ^ 40)
def cqstatRead (k : Core) : W64 :=
  BitVec.ofNat 64 (((List.range 4).map (fun q => ((k.rqueue q).tokens * 32 + (k.rqueue q).entries.length) * 2 ^ (13 * q))).sum +
    (16 - (k.wqueue 0).length) * 2 ^ 52 + (16 - (k.wqueue 1).length) * 2 ^ 57)

/-- CORE.STRs.STAT and IDX (R307). -/
def strStatRead (k : Core) (t : Nat) : W64 :=
  match k.stream t with
  | none => k.reg (0x800 + 0x20 * t)
  | some x =>
    k.reg (0x800 + 0x20 * t) ||| BitVec.ofNat 64 (x.st + x.ctx * 2 ^ 15 + x.tag * 2 ^ 17 + x.chan * 2 ^ 20 + x.action % 32 * 2 ^ 24 +
      x.m * 2 ^ 29 + x.reason * 2 ^ 40 + x.idx.getD 4 0 * 2 ^ 48)
def strIdxRead (k : Core) (t : Nat) : W64 :=
  match k.stream t with
  | none => 0
  | some x => BitVec.ofNat 64 ((List.range 4).map (fun l => x.idx.getD l 0 * 2 ^ (16 * l))).sum

/-- CORE.SPEC.STAT (R328). -/
def specStatRead (k : Core) : W64 :=
  k.reg 0xA08 ||| BitVec.ofNat 64 ((List.range 28).map (fun j => ((k.getCtx (j / 7)).getTag (j % 7 + 1)).st * 2 ^ (2 * j))).sum

/-- CORE.CTXn.XSTAT (R360). -/
def xstatRead (k : Core) (n : Nat) : W64 := setBits (k.reg (offXstat n)) 4 0 (k.outstanding n)

/-- CORE.SLICE.STAT (R271). -/
def sliceStatRead (k : Core) : W64 :=
  let spare := fun b => 64 - (Tab.get [] k.spareUsed b).length
  let least := (List.range 16).foldl (fun a b => Nat.min a (spare b)) 64
  let bank := ((List.range 16).find? (fun b => spare b == least)).getD 0
  BitVec.ofNat 64 (flagAt (bit (k.reg 0x8048) 31 && k.repair.isNone && k.copy.isNone && k.array.isNone) 0 + flagAt k.repair.isSome 1 +
    flagAt k.copy.isSome 2 + flagAt (!k.rewrites.isEmpty) 3 + k.rbuf.length * 16 + bank * 2 ^ 20 + least * 2 ^ 24)

/-- CORE.SLICE.WINn (R271). -/
def winRead (k : Core) (n : Nat) : W64 :=
  match Tab.find k.wins n with
  | none => 0
  | some w => BitVec.ofNat 64 (bits w.desc 56 0 + w.owner * 2 ^ 57 + 2 ^ 63)

/-- A CORE register (R28, R68, R576): zero at offsets that are without power. -/
def coreRead (s : State) (i off : Nat) : W64 :=
  let k := s.core i
  let c := s.cycOf i
  if off = 0x0 then coreStatRead s i
  else if k.fuse = .off then (if off = 0xB28 then k.reg off &&& 0xC else 0)
  else if k.off ∧ servedInDeep off = false then 0
  else if off = 0x8 then (if k.power == .run then BitVec.ofNat 64 c else k.reg 0x8)
  else if off = 0x28 then setBits (k.reg off) 9 0 k.lockedLines
  else if 0x100 ≤ off ∧ off < 0x180 ∧ off % 0x20 = 0 then 0
  else if 0x100 ≤ off ∧ off < 0x180 ∧ off % 0x20 = 8 then ctxStatRead k ((off - 0x108) / 0x20)
  else if off = 0x400 then mxstatRead k
  else if off = 0x480 then mvstatRead k c
  else if off = 0x580 then vstatRead k
  else if off = 0x700 then fstatRead k
  else if off = 0x708 then cqstatRead k
  else if 0x800 ≤ off ∧ off < 0xA00 then
    (match off % 0x20 with
      | 0 => strStatRead k ((off - 0x800) / 0x20)
      | 8 => strIdxRead k ((off - 0x800) / 0x20)
      | _ => 0)
  else if off = 0xA00 then 0
  else if off = 0xA08 then specStatRead k
  else if 0xB60 ≤ off ∧ off < 0xB80 then xstatRead k ((off - 0xB60) / 8)
  else if 0xC00 ≤ off ∧ off < 0xC80 then k.wqStat ((off - 0xC00) / 8) c
  else if 0x5000 ≤ off ∧ off < 0x5400 ∧ off % 0x10 = 8 then k.sstat ((off - 0x5000) / 0x100) (off % 0x100 / 0x10)
  else if off = 0x8000 then sliceStatRead k
  else if off = 0x8058 ∨ off = 0x8070 then 0
  else if 0x8100 ≤ off ∧ off < 0x8300 then winRead k ((off - 0x8100) / 8)
  else k.reg off

/-- PWR.COREi.STAT: STATE and ARRAY (R573, R578). -/
def powerStatRead (s : State) (i : Nat) : W64 :=
  let k := s.core i
  let st := if k.fuse = .off then 7 else match k.power with
    | .run => if k.phase = .gated then 1 else 0
    | .napEntry _ => 2
    | .nap => 3
    | .deepEntry _ => 4
    | .deep => 5
    | .waking .. => 6
  setBits (setBit (s.reg (rPwrStat i)) 15 k.array.isNone) 2 0 st

/-- CXLP.HCHc.STAT: OUT and BUSY (R528). -/
def hchStatRead (s : State) (c : Nat) : W64 :=
  setBit (setBits (s.reg (rHchStat c)) 15 9 (s.hrows c).length) 0 (s.chanBusy c)

/-- SVC.STAT and SVC.INq.STAT (R545). -/
def rSvcIn (q : Nat) : Nat := blkSVC + 0x100 + 0x10 * q
def svcStatRead (s : State) : W64 := setBit (s.reg blkSVC) 5 (decide (s.rootNow < s.bus.until_))
def svcInRead (s : State) (q : Nat) : W64 := setBits (s.reg (rSvcIn q)) 3 0 (s.busQueue q).length

/-! ### Blocks -/

/-- The registers of the block that holds an offset of the register space, and the block's first offset (R27). -/
def blockOf (off : Nat) : List RegFam × Nat :=
  if off < 0x10000 then (modRegs, 0)
  else if 0x100000 ≤ off ∧ off < 0x200000 then (keepRegs, blkKEEP)
  else if 0x200000 ≤ off ∧ off < 0x300000 then (clkRegs, blkCLK)
  else if 0x300000 ≤ off ∧ off < 0x400000 then (pwrRegs, blkPWR)
  else if 0x400000 ≤ off ∧ off < 0x440000 then (evcRegs, off / 0x10000 * 0x10000)
  else if 0x800000 ≤ off ∧ off < 0x900000 then (cpRegs, off / 0x10000 * 0x10000)
  else if 0x6000000 ≤ off ∧ off < 0x6100000 then (cellRegs, blkCELL)
  else if 0x7000000 ≤ off ∧ off < 0x7180000 then (canoRegs ((off - 0x7000000) / 0x10000), off / 0x10000 * 0x10000)
  else if 0x7800000 ≤ off ∧ off < 0x7880000 then (cruRegs, blkCRU)
  else if 0x7880000 ≤ off ∧ off < 0x7900000 then (cruOwn, blkCRU + 0x80000)
  else if 0x7C00000 ≤ off ∧ off < 0x7D00000 then (cxlpRegs, blkCXLP)
  else if 0x7E00000 ≤ off ∧ off < 0x7F00000 then (svcRegs, blkSVC)
  else ([], 0)

/-- The physical core and the offset in its block of an offset in the CORE blocks. -/
def coreAt (off : Nat) : Option (Nat × Nat) :=
  if 0x2000000 ≤ off ∧ off < 0x4000000 then
    let d := (off - 0x2000000) / 0x800000
    let c := (off - 0x2000000) % 0x800000 / 0x10000
    if c < 80 then some (80 * d + c, off % 0x10000) else none
  else none

/-! ### Reading -/

/-- A register of the KEEP block. -/
def keepRead (s : State) (inp off : Nat) : W64 :=
  if off = 0x0 then roleRead s
  else if off = 0x38 then lcRead s
  else if off = 0x40 then fusecntRead s
  else if off = 0x48 then logRead s
  else if 0x200 ≤ off ∧ off < 0x220 then (if off % 0x10 = 8 then kstrStatRead s inp ((off - 0x200) / 0x10) else 0)
  else if 0x80000 ≤ off then BitVec.ofNat 64 (s.nv.read (s.fld rFlwin 8 0 * 0x80000 + (off - 0x80000)) 8)
  else s.reg (blkKEEP + off)

/-- A register outside the CORE blocks, at offset `o` of the block at `b`. -/
def blockRead (s : State) (inp b o : Nat) : W64 :=
  let v := s.reg (b + o)
  if b = 0 then (if o = 0x18 then coresRead s else if o = 0x20 then mapStatRead s else v)
  else if b = blkKEEP then keepRead s inp o
  else if b = blkCLK then
    (if o = 0x0 then BitVec.ofNat 64 s.ct
     else if o = 0x8 then tstatRead s
     else if o = 0x30 then setBits v 5 4 s.point
     else if 0x10000 ≤ o ∧ o < 0x20000 then gstatRead s ((o - 0x10000) / 8)
     else v)
  else if b = blkPWR then (if 0x10000 ≤ o ∧ o < 0x20000 ∧ o % 0x10 = 8 then powerStatRead s ((o - 0x10000) / 0x10) else v)
  else if b < 0x800000 then
    (if 0x4000 ≤ o then cpEvcRead s (4 * ((b - 0x400000) / 0x10000) + (o - 0x4000) / 8) else if o = 0x8 then 0 else v)
  else if b < 0x2000000 then
    (let p := (b - 0x800000) / 0x10000
     if o = 0x8 then cpStatRead s p
     else if 0x8000 ≤ o then BitVec.ofNat 64 ((s.proc p).portRead true (s.procCycle p) (s.fld (rSramwin p) 4 0 * 0x8000 + (o - 0x8000)) 8)
     else v)
  else if b < 0x7800000 then (if o = 0x8 ∧ 0x7000000 ≤ b then canoStatRead s ((b - 0x7000000) / 0x10000) else v)
  else if b = blkCRU then (if o = 0x0 then cruStatRead s 0 else v)
  else if b = blkCRU + 0x80000 then (if o = 0x0 then cruStatRead s 1 else v)
  else if b = blkCXLP then
    (if o = 0x0 then v ||| Config.vendorId.setWidth 64
     else if 0x100 ≤ o ∧ o < 0x200 ∧ o % 0x20 = 8 then hchStatRead s ((o - 0x100) / 0x20)
     else if 0x10000 ≤ o ∧ o < 0x30000 then Config.cxlReg o v
     else v)
  else if o = 0x0 then svcStatRead s
  else if 0x100 ≤ o ∧ o % 0x10 = 0 then svcInRead s ((o - 0x100) / 0x10)
  else v

/-- A whole register; an offset that holds none reads as zero (R12). -/
def regRead (s : State) (inp off : Nat) : W64 :=
  match coreAt off with
  | some (i, o) => if (famOf coreRegs o).isSome then coreRead s i o else 0
  | none =>
    let p := blockOf off
    if (famOf p.1 (off - p.2)).isSome then blockRead s inp p.2 (off - p.2) else 0

/-! ### Writing -/

/-- A plain write to a CORE register, and to a register outside the CORE blocks. -/
def State.corePlain (s : State) (i off : Nat) (f : RegFam) (v mask : W64) : State :=
  s.modCore i (fun k => k.setReg off (f.write (k.reg off) v mask (s.kept (blkCORE i + off))))
def State.plain (s : State) (r : Nat) (f : RegFam) (v mask : W64) : State :=
  s.setReg r (f.write (s.reg r) v mask (s.kept r))

/-- A CORE register's write: `v` holds every bit the access reaches, with the stored RW bits where it reaches none. -/
def coreWrite (s : State) (inp i off : Nat) (f : RegFam) (v : W64) : State :=
  let k := s.core i
  if k.fuse = .off then s
  else if 0x100 ≤ off ∧ off < 0x180 ∧ off % 0x20 = 0 then
    (let n := (off - 0x100) / 0x20
     match bits v 1 0 with
     | 1 => startCmd s i n (BitVec.ofNat 32 (bits v 39 8))
     | 2 => endTask s i n
     | 3 => goCmd s i n
     | _ => s)
  else if 0x1000 ≤ off ∧ off < 0x3000 then paramWrite s i ((off - 0x1000) / 0x800) (off % 0x800 / 8) v
  else if off = 0xB28 then fenceWrite s inp i v
  else if k.off ∧ servedInDeep off = false then s
  else if 0x118 ≤ off ∧ off < 0x180 ∧ off % 0x20 = 0x18 then tilesWrite s i ((off - 0x118) / 0x20) v
  else if 0x800 ≤ off ∧ off < 0xA00 ∧ off % 0x20 = 0x10 then
    (match bits v 1 0 with
     | 1 => resumeStream s i ((off - 0x800) / 0x20)
     | 2 => abortStream s i ((off - 0x800) / 0x20)
     | _ => s)
  else if off = 0xA00 then (if bit v 0 then ehtClear s i else s)
  else if off = 0xB18 then wqownWrite s i v
  else if 0xB40 ≤ off ∧ off < 0xB60 then flagownWrite s i ((off - 0xB40) / 8) v
  else if off = 0xD48 then imageWrite s i v
  else if 0x5000 ≤ off ∧ off < 0x5400 then
    (if off % 0x10 = 0 then bindWrite s i ((off - 0x5000) / 0x100) (off % 0x100 / 0x10) v else s)
  else if off = 0x8058 then repairWrite s i v
  else if off = 0x8048 then
    (let s1 := s.corePlain i off f v (BitVec.ofNat 64 allBits)
     s1.modCore i (fun k => k.setFld 0x8048 19 0 (Nat.max 100 (Nat.min 1000000 (k.fld 0x8048 19 0)))))
  else if off = 0x8068 then shadowWrite s i v
  else if off = 0x8070 then copyGo s i v
  else s.corePlain i off f v (BitVec.ofNat 64 allBits)

/-- A KEEP register's write by the active member, or by the standby member to what it may write. -/
def keepWrite (s : State) (inp o : Nat) (f : RegFam) (v : W64) : State :=
  if o = 0x0 then s.settleSwap.plain (blkKEEP + o) f v (BitVec.ofNat 64 allBits)
  else if o = 0x8 then rctlWrite s inp v
  else if o = 0x10 then hbwWrite s inp v
  else if o = 0x20 then (if inp = 18 then s.setReg (blkKEEP + o) v else s)
  else if o = 0x28 then (if inp = 17 then s.setReg (blkKEEP + o) v else s)
  else if o = 0x30 then noticeWrite s inp (bits v 4 0)
  else if o = 0x60 then leaseCtl s inp v
  else if 0x100 ≤ o ∧ o < 0x140 then cmpWrite s ((o - 0x100) / 8) v
  else if 0x200 ≤ o ∧ o < 0x220 then (if o % 0x10 = 0 then kstrWrite s inp ((o - 0x200) / 0x10) v else s)
  else if 0x80000 ≤ o then s
  else s.plain (blkKEEP + o) f v (BitVec.ofNat 64 allBits)

/-- KEEP offsets that the standby member may write: its heartbeat, the event bits, its own mask and engines (R547, R572). -/
def standbyMay (inp o : Nat) : Bool :=
  o == 0x10 || o == 0x18 || (o == 0x20 && inp == 18) || (o == 0x28 && inp == 17) || o == 0x50 ||
  (decide (0x200 ≤ o) && decide (o < 0x220))

/-- The KEEP block: from inputs 0–16 ignored, FLWIN apart; from the standby member refused but for its own registers; the
other member's mask and read-only registers take nothing (R547, R559). -/
def keepBlockWrite (s : State) (inp o : Nat) (f : RegFam) (v : W64) : State :=
  if inp = s.activeKeeper ∨ o = 0x50 then keepWrite s inp o f v
  else if inp = 17 ∨ inp = 18 then
    if standbyMay inp o then keepWrite s inp o f v else s.event rRole 63
  else s

/-- A CXLP register's write. -/
def cxlpWrite (s : State) (inp o : Nat) (f : RegFam) (v : W64) : State :=
  let r := blkCXLP + o
  let plain := s.plain r f v (BitVec.ofNat 64 allBits)
  if o = 0x10 then (if bit v 0 then httsync s else s)
  else if o = 0x18 then s.setReg r (if bits v 31 0 = 0 then 1 else BitVec.ofNat 64 (bits v 31 0))
  else if o = 0x20 then dbell s inp v
  else if 0x100 ≤ o ∧ o < 0x200 ∧ o % 0x20 = 0 then hchBindWrite s ((o - 0x100) / 0x20) v
  else if 0x1000 ≤ o ∧ o < 0x1400 ∧ o % 0x10 = 8 then
    (if bit v 32 then plain else msixUnmask plain ((o - 0x1000) / 0x10))
  else plain

/-- A CANO register's write, of link `k`. -/
def canoWrite (s : State) (k o : Nat) (f : RegFam) (v : W64) : State :=
  let r := blkCANO k + o
  if o = 0x0 then canoCtlWrite s k v
  else if o = 0xF00 then modidWrite s v
  else if o = 0xF08 then (let s1 := if bit v 2 then s.clear rBank 2 else s
                          if bit v 8 then bankSwap s1 else s1)
  else if 0x1000 ≤ o ∧ o < 0x1200 then
    (if o % 0x20 = 0x10 then txCtlWrite s (edgeOfLink k) ((o - 0x1000) / 0x20) v
     else txWrite s (edgeOfLink k) ((o - 0x1000) / 0x20) (o % 0x20 / 8) v)
  else if 0x8000 ≤ o ∧ o < 0xC000 then slotTableWrite s k ((o - 0x8000) / 0x2000) (o % 0x2000 / 8) v
  else s.plain r f v (BitVec.ofNat 64 allBits)

/-- A CRU register's write, of CRU `e`. -/
def cruWrite (s : State) (e o : Nat) (f : RegFam) (v : W64) : State :=
  let r := blkCRU + 0x80000 * e + o
  if 0x10000 ≤ o ∧ o < 0x20000 then stageWrite s e ((o - 0x10000) / 0x10) (o % 0x10 == 8) v
  else if o = 0x40000 then cmtCtl s v
  else if 0x40028 ≤ o ∧ o ≤ 0x40040 then cmtConfig s o v
  else if 0x60000 ≤ o then bucketWrite s ((o - 0x60000) / 0x20) (o % 0x20 / 8) v
  else s.plain r f v (BitVec.ofNat 64 allBits)

/-- A write to a register outside the CORE blocks, at offset `o` of the block at `b`. -/
def blockWrite (s : State) (inp b o : Nat) (f : RegFam) (v : W64) : State :=
  let r := b + o
  let plain := s.plain r f v (BitVec.ofNat 64 allBits)
  if b = 0 then
    (if o = 0x8 then orderedWrite s v
     else if o = 0x30 then resetWrite s inp v
     else if 0x1000 ≤ o then mapWrite s inp ((o - 0x1000) / 8) v
     else plain)
  else if b = blkKEEP then keepBlockWrite s inp o f v
  else if b = blkCLK then
    (if o = 0x10 then tctlWrite s v
     else if o = 0x28 then jobEpochWrite s v
     else if o = 0x30 then opreqWrite s v
     else if o = 0x50 then gctlWrite s v
     else plain)
  else if b = blkPWR then
    (if o = 0x0 then s.byKeeper inp (fun t => capWrite t v) id
     else if 0x100 ≤ o ∧ o < 0x180 ∧ o % 0x20 = 0 then s.byKeeper inp (fun t => budgetWrite t ((o - 0x100) / 0x20) v) id
     else if 0x10000 ≤ o ∧ o < 0x20000 ∧ o % 0x10 = 0 then pwrCtl s inp ((o - 0x10000) / 0x10) v
     else plain)
  else if b < 0x800000 then
    (let d := (b - 0x400000) / 0x10000
     if o = 0x8 then swraise s d v
     else if 0x1000 ≤ o ∧ o < 0x4000 then srcWrite s d ((o - 0x1000) / 8) v
     else plain)
  else if b < 0x2000000 then
    (let p := (b - 0x800000) / 0x10000
     if o = 0x0 then cpCtl s inp p v
     else if 0x8000 ≤ o then s.modProc p (fun q => q.portWrite true (s.procCycle p) (s.fld (rSramwin p) 4 0 * 0x8000 + (o - 0x8000)) 8 v.toNat)
     else plain)
  else if b = blkCELL then
    (if o = 0x0 then shareWrite s v
     else if o = 0x20 then retrainWrite s v
     else if o = 0x28 then pprWrite s v
     else plain)
  else if b < 0x7800000 then canoWrite s ((b - 0x7000000) / 0x10000) o f v
  else if b = blkCRU then cruWrite s 0 o f v
  else if b = blkCRU + 0x80000 then cruWrite s 1 o f v
  else if b = blkCXLP then cxlpWrite s inp o f v
  else plain

/-! ### Accesses (R12, R29) -/

/-- The half of a register that a 4-byte access at an offset reaches. -/
def halfMask (high : Bool) : W64 := if high then 0xFFFFFFFF00000000 else 0xFFFFFFFF

/-- The value a 4-byte write stands for: the stored RW bits of the half it does not reach, zero in every other bit there. -/
def halfValue (f : RegFam) (old : W64) (high : Bool) (v : Nat) : W64 :=
  (old &&& BitVec.ofNat 64 f.rw &&& ~~~(halfMask high)) ||| (BitVec.ofNat 64 (if high then v * 2 ^ 32 else v) &&& halfMask high)

/-- Whether a 4-byte write reaches no RW bit of a register that has some: then only its W1C bits act. -/
def halfIdle (f : RegFam) (high : Bool) : Bool := f.rw ≠ 0 && (BitVec.ofNat 64 f.rw &&& halfMask high) == 0

/-- A 4-byte write that reaches no RW bit of a register outside the CORE blocks: its W1C bits act, and a write that the
register's rule refuses is refused (R393, R491, R547). -/
def State.idleWrite (s : State) (inp b o : Nat) (f : RegFam) (w mask : W64) : State :=
  if b = 0 ∧ 0x1000 ≤ o then s.byKeeper inp id (fun t => t.event rMapStat 0)
  else if b = blkPWR ∧ (o = 0 ∨ (0x100 ≤ o ∧ o < 0x180 ∧ o % 0x20 = 0)) then s.byKeeper inp id id
  else if b = blkCRU ∧ o = 0x40040 then (if s.phase = 0 then s else s.event rCmtStat 62)
  else s.plain (b + o) f w mask

/-- A 4-byte register write. -/
def regPutHalf (s : State) (inp off : Nat) (high : Bool) (v : Nat) : State :=
  match coreAt off with
  | some (i, o) =>
    (match famOf coreRegs o with
     | none => s
     | some f =>
       let w := halfValue f (coreRead s i o) high v
       if halfIdle f high ∧ ((s.core i).off = false ∨ servedInDeep o) then
         s.corePlain i o f w (halfMask high)
       else coreWrite s inp i o f w)
  | none =>
    let p := blockOf off
    (match famOf p.1 (off - p.2) with
     | none => s
     | some f =>
       let w := halfValue f (blockRead s inp p.2 (off - p.2)) high v
       if halfIdle f high ∧ p.2 ≠ blkKEEP then s.idleWrite inp p.2 (off - p.2) f w (halfMask high)
       else blockWrite s inp p.2 (off - p.2) f w)

/-- An 8-byte register write. -/
def regPut (s : State) (inp off : Nat) (v : W64) : State :=
  match coreAt off with
  | some (i, o) => (match famOf coreRegs o with | some f => coreWrite s inp i o f v | none => s)
  | none =>
    let p := blockOf off
    (match famOf p.1 (off - p.2) with | some f => blockWrite s inp p.2 (off - p.2) f v | none => s)

/-- A write of `size` bytes at an offset of the register space, from an input of the service bus. -/
def regStore (s : State) (inp off size v : Nat) : State :=
  if size = 8 ∧ off % 8 = 0 then regPut s inp off (BitVec.ofNat 64 v)
  else if size = 4 ∧ off % 4 = 0 then regPutHalf s inp (off / 8 * 8) (off % 8 == 4) v
  else s

/-- A read of `size` bytes at an offset of the register space. -/
def regLoad (s : State) (inp off size : Nat) : Nat :=
  if size = 8 ∧ off % 8 = 0 then (regRead s inp off).toNat
  else if size = 4 ∧ off % 4 = 0 then
    (if off % 8 = 0 then bits (regRead s inp off) 31 0 else bits (regRead s inp (off / 8 * 8)) 63 32)
  else 0

end Sys2Proof.Machine
end

