-- ==== Sys2Proof/Machine/Bus.lean ====
section
/-! DEFINITION.
The service bus: the arbiter, the apertures it reaches, and the responses (spec 01 R20–R26, 19 R541–R544). -/

namespace Sys2Proof.Machine

/-! ### Where an address leads (R20, R23, R24, R26) -/

/-- What a service address reaches. -/
inductive Target where
  | comb (core row byte : Nat)
  | reg (off : Nat)
  | cellar (a : Nat)
  | none
  deriving DecidableEq, Repr

/-- The target of a service address. -/
def targetOf (a : Nat) : Target :=
  if a < 2 ^ 33 then
    let x := a % 2 ^ 31
    if x < 0x78000000 then .comb (80 * (a / 2 ^ 31) + x / 0x1800000) (x % 0x1800000 / 512) (x % 512) else .none
  else if 0x200000000 ≤ a ∧ a ≤ 0x20FFFFFFF then .reg (a - 0x200000000)
  else if 0x100000000000 ≤ a ∧ a ≤ 0x100000000000 + 0xB0051C87FF then .cellar (a - 0x100000000000)
  else .none

/-- Whether two accesses reach the same row of a slice, or the same 64 bytes of the Cellar. -/
def samePlace (x y : BusAcc) : Bool :=
  match targetOf x.addr, targetOf y.addr with
  | .comb i r _, .comb j q _ => i == j && r == q
  | .cellar a, .cellar b => a / 64 == b / 64
  | _, _ => false

/-! ### Grants (R541–R543) -/

def busInputs : List Nat := List.range 19
def State.inFlight (s : State) (inp : Nat) : List BusFlight := Tab.get [] s.bus.flying inp
def State.setFlight (s : State) (inp : Nat) (l : List BusFlight) : State :=
  { s with bus := { s.bus with flying := Tab.put s.bus.flying inp l } }
/-- Puts the result into the granted access numbered `n` of an input. -/
def State.busResult (s : State) (inp n : Nat) (ok_ : Bool) (v : Nat) : State :=
  s.setFlight inp ((s.inFlight inp).map (fun f => if f.n = n then { f with res := some (ok_, v) } else f))

/-- Accesses to registers, and to no region, are applied as they are granted. -/
def State.applyNow (s : State) (inp n : Nat) (a : BusAcc) : State :=
  match targetOf a.addr with
  | .reg off => if a.write then (regStore s inp off a.size a.data).busResult inp n true 0
                else s.busResult inp n true (regLoad s inp off a.size)
  | .none => s.busResult inp n true 0
  | _ => s

/-- Cycles of the arbiter's clock that a burst takes. -/
def burstCycles (size : Nat) : Nat := Nat.max 1 ((size + 15) / 16)

/-- SERVICE_BUS_GRANT: once no burst occupies the bus, the head access of the highest-numbered input that has one. -/
def busGrant (s0 : State) : State :=
  let s := s0.feedHost
  match busInputs.reverse.find? (fun q => !(s.busQueue q).isEmpty) with
  | none => s
  | some q =>
    match s.busQueue q with
    | [] => s
    | a :: rest =>
      let s1 := s.toRoot (nextMultiple 8 (Nat.max s.rootNow s.bus.until_))
      let t := s1.rootNow
      let wait := (t - Tab.get t s1.bus.headFrom q) / 8
      let r := rSvcIn q
      let s2 := s1.setBusQueue q rest
      let s3 := ((s2.setReg r (setBits (s2.reg r) 47 16 (Nat.min (2 ^ 32 - 1) (Nat.max wait (s2.fld r 47 16))))).countMod 48 63 (r + 8) 1
        ).setFld blkSVC 4 0 q
      let n := s3.bus.grants
      let b : Bus := { s3.bus with
        headFrom := Tab.put s3.bus.headFrom q t, until_ := t + 8 * burstCycles a.size, grants := n + 1
        flying := Tab.put s3.bus.flying q (s3.inFlight q ++ [⟨n, a, none⟩]) }
      ({ s3 with bus := b }.applyNow q n a).feedHost

/-! ### Apertures (R24–R26, R257, R261, R297, R498) -/

/-- The first access of an input that awaits its target of a kind, unless an access granted before it to the same place still
does. -/
def State.nextAccess (s : State) (inp : Nat) (kind : Target → Bool) : Option BusFlight :=
  match (s.inFlight inp).find? (fun f => f.res.isNone && kind (targetOf f.acc.addr)) with
  | none => none
  | some f =>
    if busInputs.any (fun q => (s.inFlight q).any (fun g => g.res.isNone && decide (g.n < f.n) && samePlace g.acc f.acc)) then none
    else some f

def Target.isComb : Target → Bool | .comb .. => true | _ => false
def Target.isCellar : Target → Bool | .cellar _ => true | _ => false

/-- COMB_APERTURE_ACCESS: the side port serves an input's next Comb access; a spare or fused-off slice, and any slice of a module
whose bring-up stopped, reads as zero and takes nothing. -/
def combAccess (s : State) (inp : Nat) : State :=
  match s.nextAccess inp Target.isComb with
  | none => s
  | some f =>
    match targetOf f.acc.addr with
    | .comb i r b =>
      if s.fence i = 1 ∨ s.fence i = 3 ∨ s.bootCause ≠ 0 then s.busResult inp f.n true 0
      else if f.acc.write then
        let p := s.sideWrite i r b f.acc.size f.acc.data
        p.1.busResult inp f.n p.2 0
      else
        let p := s.sideRead i r
        match p.2 with
        | none => p.1.busResult inp f.n false 0
        | some v => p.1.busResult inp f.n true (field v.toNat (8 * b) (8 * f.acc.size))
    | _ => s

/-- CELLAR_APERTURE_ACCESS: an input's next Cellar access is served in REMOTE slots, once the devices are trained and none of
them is held. -/
def cellarAccess (s : State) (inp : Nat) : State :=
  match s.nextAccess inp Target.isCellar with
  | none => s
  | some f =>
    match targetOf f.acc.addr with
    | .cellar a =>
      if s.bootCause ≠ 0 then s.busResult inp f.n true 0
      else if s.stage < 10 ∨ s.burstHeld (a / 64) then s
      else
      let s := s.toCt (s.bankFreeAt (a / 64))
      if f.acc.write then
        let p := s.cellWrite a f.acc.size f.acc.data
        p.1.busResult inp f.n p.2 0
      else
        let p := s.cellRead a f.acc.size
        p.1.busResult inp f.n p.2.isSome (p.2.getD 0)
    | _ => s

/-! ### Responses (R532, R543, R544) -/

/-- A HALT that waited for a load takes effect. -/
def Proc.settleHalt (k : Proc) : Proc :=
  if k.haltAt then { k with haltAt := false, st := if k.st = 3 then 3 else 0 } else k

/-- The response of a processor's load: the register and the next instruction, or exception 4. -/
def State.loadDone (s : State) (p epoch : Nat) (good : Bool) (v : Nat) : State :=
  let q := s.proc p
  match q.load with
  | some (r, _, a) =>
    if q.epoch ≠ epoch then s
    else
      let s1 := s.modProc p (fun k => { k with load := none })
      (if good then s1.modProc p (fun k =>
          let k1 := (k.setSreg r (BitVec.ofNat 64 v)).follow none
          { k1 with late := k1.late.erase r, nextAt := s.rootNow })
        else s1.exception p 4 a).modProc p Proc.settleHalt
  | none => s

/-- The error completion of a posted store awaits the processor's next instruction boundary. -/
def State.storeDone (s : State) (p epoch : Nat) (good : Bool) (addr : Nat) : State :=
  if good ∨ (s.proc p).epoch ≠ epoch then s
  else s.modProc p (fun k => { k with errs := k.errs ++ [BitVec.ofNat 64 (2 ^ 63 + addr)] })

/-- SERVICE_COMPLETION: the response of an input's oldest granted access returns. -/
def serviceCompletion (s : State) (inp : Nat) : State :=
  match s.inFlight inp with
  | ⟨_, a, some (good, v)⟩ :: rest =>
    let s1 := s.setFlight inp rest
    (match a.who with
      | .load p e => s1.loadDone p e good v
      | .store p e => s1.storeDone p e good a.addr
      | .host req _ => s1.hostPiece req a good v
      | .kstr m e => if (s1.kstr m e).piece.1 = a.addr then s1.pieceDone m e good v else s1)
  | _ => s

end Sys2Proof.Machine
end

