-- ==== Sys2Proof/Machine/RowsBus.lean ====
section
/-! DEFINITION.
The service bus, its apertures and the registers it reaches (spec 00, 01, 19).  One definition a row; each calls the shared operation that holds the rule. -/

namespace Sys2Proof.Machine

/-- COMB_APERTURE_ACCESS (R25). -/
def execCombApertureAccess (inp : Inp) (s : State) : Out := ok (combAccess s inp)
/-- CELLAR_APERTURE_ACCESS (R493). -/
def execCellarApertureAccess (inp : Inp) (s : State) : Out := ok (cellarAccess s inp)
/-- SERVICE_BUS_GRANT (R542). -/
def execServiceBusGrant (s : State) : Out := ok (busGrant s)
/-- REGISTER_WRITE (R9). -/
def execRegisterWrite (inp : Inp) (off : Nat) (size : Nat) (value : W64) (s : State) : Out :=
  ok (regStore s inp off size value.toNat)
/-- SERVICE_COMPLETION (R543). -/
def execServiceCompletion (inp : Inp) (s : State) : Out := ok (Machine.serviceCompletion s inp)

end Sys2Proof.Machine
end

