-- ==== Sys2Proof/Machine/RowsCanopy.lean ====
section
/-! DEFINITION.
The Canopy links and their DMA (spec 15).  One definition a row; each calls the shared operation that holds the rule. -/

namespace Sys2Proof.Machine

/-- SLOT (R432). -/
def execSlot (link : LinkIx) (s : State) : Out := ok (slotSend s link)
/-- SLOT_RECEIVE (R434). -/
def execSlotReceive (link : LinkIx) (n : Nat) (image : Framed) (fec : B4) (rx : Int) (s : State) : Out :=
  ok (Machine.slotReceive s link n image.2 fec.toNat image.1 rx)
/-- RETRY_REQUEST_TIMEOUT (R444). -/
def execRetryRequestTimeout (link : LinkIx) (s : State) : Out := ok (retryTimeout s link)
/-- SIDE_RESEND (R451). -/
def execSideResend (link : LinkIx) (s : State) : Out := ok (Machine.sideResend s link)
/-- DMA_GO (R440). -/
def execDmaGo (_inp : Inp) (edge : EdgeIx) (ch : ChIx) (value : W64) (s : State) : Out :=
  ok (Machine.dmaGo s edge ch value)
/-- DMA_ROW_READ (R440). -/
def execDmaRowRead (edge : EdgeIx) (ch : ChIx) (s : State) : Out := ok (dmaRow s edge ch)
/-- BANK_SWAP (R437). -/
def execBankSwap (_inp : Inp) (s : State) : Out := ok (Machine.bankSwap s)
/-- SLOT_TABLE_SWAP (R437). -/
def execSlotTableSwap (s : State) : Out := ok (tableSwap s)
/-- LANE_FAILURE (R455). -/
def execLaneFailure (link : LinkIx) (lane : Bool) (s : State) : Out := ok (Machine.laneFailure s link lane)
/-- LANE_DEGRADE (R455). -/
def execLaneDegrade (link : LinkIx) (s : State) : Out := ok (Machine.laneDegrade s link)
/-- SCHED_ENTRY (R454). -/
def execSchedEntry (link : LinkIx) (s : State) : Out := ok (Machine.schedEntry s link)
/-- RECAL (R454). -/
def execRecal (_inp : Inp) (link : LinkIx) (s : State) : Out := ok (Machine.recal s link)
/-- FULL_RECALIBRATION (R454). -/
def execFullRecalibration (link : LinkIx) (txoff : W16) (alpha : W16) (delay : W16) (delayr : W16) (s : State) : Out :=
  ok (fullRecal s link txoff alpha delay delayr)
/-- CANOPY_TRAIN (R454). -/
def execCanopyTrain (link : LinkIx) (lanes : B4) (s : State) : Out := ok (Machine.canopyTrain s link lanes.toNat)

end Sys2Proof.Machine
end

