-- ==== Sys2Proof/Machine/RowsCellar.lean ====
section
/-! DEFINITION.
The Cellar (spec 17).  One definition a row; each calls the shared operation that holds the rule. -/

namespace Sys2Proof.Machine

/-- LINK_ECC_REREAD (R500). -/
def execLinkEccReread (ch : CellChIx) (burst : Nat) (clean : Bool) (s : State) : Out :=
  ok (linkReread s ch burst clean)
/-- CHECK_BUFFER_FLUSH (R495). -/
def execCheckBufferFlush (ch : CellChIx) (s : State) : Out := ok (checkFlush s ch)
/-- PER_BANK_REFRESH (R501). -/
def execPerBankRefresh (ch : CellChIx) (rank : Bool) (s : State) : Out := ok (bankRefresh s ch rank)
/-- MR4_POLL (R502). -/
def execMr4Poll (ch : CellChIx) (rank : Bool) (field : B8) (linkce : W32) (s : State) : Out :=
  ok (mr4Poll s ch rank field linkce)
/-- REFRESH_PATTERN_CHANGE (R503). -/
def execRefreshPatternChange (dev : DevIx) (s : State) : Out := ok (patternChange s dev)
/-- WCK2DQ_TRACKING (R505). -/
def execWck2dqTracking (ch : CellChIx) (rank : Bool) (count : W16) (s : State) : Out := ok (wckTrack s ch rank count)
/-- SHARE_WRITE (R298). -/
def execShareWrite (_inp : Inp) (value : W64) (s : State) : Out := ok (shareWrite s value)
/-- SHARE_CHANGE (R509). -/
def execShareChange (s : State) : Out := ok (shareChange s)
/-- RETRAIN (R506). -/
def execRetrain (_inp : Inp) (value : W64) (s : State) : Out := ok (retrainWrite s value)
/-- FULL_RETRAINING (R506). -/
def execFullRetraining (dev : DevIx) (s : State) : Out := ok (retrainBegin s dev)
/-- RETRAINING_END (R506). -/
def execRetrainingEnd (dev : DevIx) (s : State) : Out := ok (retrainEnd s dev)
/-- PPR (R507). -/
def execPpr (_inp : Inp) (value : W64) (s : State) : Out := ok (pprWrite s value)
/-- POST_PACKAGE_REPAIR (R507). -/
def execPostPackageRepair (s : State) : Out := ok (pprBegin s)
/-- HPPR_COMPLETE (R507). -/
def execHpprComplete (s : State) : Out := ok (pprEnd s)

end Sys2Proof.Machine
end

