-- ==== Sys2Proof/Machine/RowsClock.lean ====
section
/-! DEFINITION.
Glades, the operating point and time (spec 14).  One definition a row; each calls the shared operation that holds the rule. -/

namespace Sys2Proof.Machine

/-- DROOP_ALARM (R404). -/
def execDroopAlarm (glade : GladeIx) (level : LevelIx) (s : State) : Out := ok (droopAlarm s glade level)
/-- REPAY (R405). -/
def execRepay (glade : GladeIx) (s : State) : Out := ok (repayEdge s glade)
/-- LAG (R407). -/
def execLag (glade : GladeIx) (s : State) : Out := ok (lagRaise s glade)
/-- OPREQ_WRITE (R416). -/
def execOpreqWrite (_inp : Inp) (value : W64) (s : State) : Out := ok (Machine.opreqWrite s value)
/-- OPERATING_POINT_CHANGE (R417). -/
def execOperatingPointChange (s : State) : Out := ok (opChange s)
/-- JOBEPOCH_WRITE (R419). -/
def execJobepochWrite (_inp : Inp) (value : W64) (s : State) : Out := ok (jobEpochWrite s value)
/-- TCTL_WRITE (R429). -/
def execTctlWrite (_inp : Inp) (value : W64) (s : State) : Out := ok (Machine.tctlWrite s value)
/-- HALL_PPS_EDGE (R422). -/
def execHallPpsEdge (s : State) : Out := ok (hallPps s)
/-- PPS_LOST (R426). -/
def execPpsLost (s : State) : Out := ok (Machine.ppsLost s)
/-- HALL_REF_LOSS (R426). -/
def execHallRefLoss (s : State) : Out := ok (Machine.hallRefLoss s)
/-- HALL_REF_GOOD (R426). -/
def execHallRefGood (s : State) : Out := ok (Machine.hallRefGood s)
/-- LINK_ESTIMATE (R421). -/
def execLinkEstimate (s : State) : Out := ok (Machine.linkEstimate s)
/-- TIME_STEP (R425). -/
def execTimeStep (s : State) : Out := ok (Machine.timeStep s)
/-- ACQUIRE_COMPLETE (R425). -/
def execAcquireComplete (s : State) : Out := ok (Machine.acquireComplete s)
/-- HOLDOVER_EXPIRY (R424). -/
def execHoldoverExpiry (s : State) : Out := ok (Machine.holdoverExpiry s)

end Sys2Proof.Machine
end

