-- ==== Sys2Proof/Machine/RowsCommIns.lean ====
section
/-! DEFINITION.
Forager, speculation, window, transfer and waggle instructions (spec 08, 09, 10, 11).  One definition a row; each calls the shared operation that holds the rule. -/

namespace Sys2Proof.Machine

/-- W_OPEN (R246). -/
def execWOpen (w : Iss) (op : W32) (s : State) : Out := ok (issueAt w (.wOpen w op) 0x50 pNone op s)
/-- W_CLOSE (R249). -/
def execWClose (w : Iss) (op : W32) (s : State) : Out := ok (issueAt w (.wClose w op) 0x51 pNone op s)
/-- F_START (R279). -/
def execFStart (w : Iss) (op : W32) (s : State) : Out := ok (issueAt w (.fStart w op) 0x01 pNone op s)
/-- F_STOP (R281). -/
def execFStop (w : Iss) (op : W32) (s : State) : Out := ok (issueAt w (.fStop w op) 0x02 pNone op s)
/-- F_TAKE (R293). -/
def execFTake (w : Iss) (op : W32) (s : State) : Out := ok (issueAt w (.fTake w op) 0x03 pNone op s)
/-- SP_OPEN (R315). -/
def execSpOpen (w : Iss) (op : W32) (s : State) : Out := ok (issueAt w (.spOpen w op) 0x78 pNone op s)
/-- CONFIRM (R320). -/
def execConfirm (w : Iss) (op : W32) (s : State) : Out := ok (issueAt w (.confirm w op) 0x79 pNone op s)
/-- SQUASH (R322). -/
def execSquash (w : Iss) (op : W32) (s : State) : Out := ok (issueAt w (.squash w op) 0x7A pNone op s)
/-- SP_TRAIN (R311). -/
def execSpTrain (w : Iss) (op : W32) (s : State) : Out := ok (issueAt w (.spTrain w op) 0x7B pNone op s)
/-- PUT (R337). -/
def execPut (w : Iss) (op : W32) (s : State) : Out := ok (issueAt w (.put w op) 0x52 pNone op s)
/-- PUT_ADD (R337). -/
def execPutAdd (w : Iss) (op : W32) (s : State) : Out := ok (issueAt w (.putAdd w op) 0x52 pNone op s)
/-- GET (R338). -/
def execGet (w : Iss) (op : W32) (s : State) : Out := ok (issueAt w (.get w op) 0x52 pNone op s)
/-- X_SIG (R345). -/
def execXSig (w : Iss) (op : W32) (s : State) : Out := ok (issueAt w (.xSig w op) 0x53 pNone op s)
/-- X_SIGR (R345). -/
def execXSigr (w : Iss) (op : W32) (s : State) : Out := ok (issueAt w (.xSigr w op) 0x54 pNone op s)
/-- Q_SEND (R350). -/
def execQSend (w : Iss) (op : W32) (s : State) : Out := ok (issueAt w (.qSend w op) 0x55 pNone op s)
/-- Q_POP (R354). -/
def execQPop (w : Iss) (op : W32) (s : State) : Out := ok (issueAt w (.qPop w op) 0x56 pNone op s)
/-- Q_SKIP (R354). -/
def execQSkip (w : Iss) (op : W32) (s : State) : Out := ok (issueAt w (.qSkip w op) 0x57 pNone op s)
/-- Q_STAT (R354). -/
def execQStat (w : Iss) (op : W32) (s : State) : Out := ok (issueAt w (.qStat w op) 0x58 pNone op s)
/-- Q_SSTAT (R354). -/
def execQSstat (w : Iss) (op : W32) (s : State) : Out := ok (issueAt w (.qSstat w op) 0x59 pNone op s)

end Sys2Proof.Machine
end

