-- ==== Sys2Proof/Machine/RowsContext.lean ====
section
/-! DEFINITION.
What happens to contexts, as rows of the table (spec 02, 03, 09, 11).  One definition a row; each calls the shared operation that holds the rule. -/

namespace Sys2Proof.Machine

/-- WAIT_AT_TARGET_REACHED (R45). -/
def execWaitAtTargetReached (core : CoreIx) (ctx : CtxIx) (s : State) : Out := ok (waitAtReached s core ctx)
/-- WAIT_CONDITION_MET (R40). -/
def execWaitConditionMet (core : CoreIx) (ctx : CtxIx) (s : State) : Out := ok (waitMetEvent s core ctx)
/-- CONTEXT_SWITCH (R37). -/
def execContextSwitch (core : CoreIx) (s : State) : Out := ok (contextSwitch s core)
/-- GATED_WAKE (R44). -/
def execGatedWake (core : CoreIx) (s : State) : Out := ok (gatedWake s core)
/-- ICACHE_MISS (R63). -/
def execIcacheMiss (core : CoreIx) (ctx : CtxIx) (s : State) : Out := ok (icacheMiss s core ctx)
/-- ICACHE_FILL_COMPLETE (R63). -/
def execIcacheFillComplete (core : CoreIx) (line : Nat) (s : State) : Out := ok (icacheFill s core line)
/-- START (R53). -/
def execStart (_inp : Inp) (core : CoreIx) (ctx : CtxIx) (entry : W32) (s : State) : Out :=
  ok (startCmd s core ctx entry)
/-- END (R54). -/
def execEndCmd (_inp : Inp) (core : CoreIx) (ctx : CtxIx) (s : State) : Out := ok (endTask s core ctx)
/-- GO (R49). -/
def execGo (_inp : Inp) (core : CoreIx) (ctx : CtxIx) (s : State) : Out := ok (goCmd s core ctx)
/-- PARAM_WRITE (R47). -/
def execParamWrite (_inp : Inp) (core : CoreIx) (ctx : CtxIx) (j : B8) (value : W64) (s : State) : Out :=
  ok (paramWrite s core ctx j.toNat value)
/-- CONTEXT_CLEAR_BEGIN (R54). -/
def execContextClearBegin (core : CoreIx) (ctx : CtxIx) (s : State) : Out := ok (clearBegin s core ctx)
/-- CONTEXT_CLEAR_END (R57). -/
def execContextClearEnd (core : CoreIx) (ctx : CtxIx) (s : State) : Out := ok (clearEnd s core ctx)
/-- BACKGROUND_TILE_CLEAR (R57). -/
def execBackgroundTileClear (core : CoreIx) (s : State) : Out := ok (tileClear s core)
/-- TILE_RUSH_COMPLETE (R58). -/
def execTileRushComplete (core : CoreIx) (s : State) : Out := ok (tileRushDone s core)

end Sys2Proof.Machine
end

