-- ==== Sys2Proof/Machine/RowsControl.lean ====
section
/-! DEFINITION.
Branches, loops, waits, task and cache instructions (spec 03).  One definition a row; each calls the shared operation that holds the rule. -/

namespace Sys2Proof.Machine

/-- BR (R83). -/
def execBr (w : Iss) (op : W32) (s : State) : Out := ok (issueAt w (.br w op) 0x40 pBr op s)
/-- BR_C (R83). -/
def execBrC (w : Iss) (op : W32) (s : State) : Out := ok (issueAt w (.brC w op) 0x41 pBrC op s)
/-- BR_NC (R83). -/
def execBrNc (w : Iss) (op : W32) (s : State) : Out := ok (issueAt w (.brNc w op) 0x42 pBrNc op s)
/-- BR_R (R83). -/
def execBrR (w : Iss) (op : W32) (s : State) : Out := ok (issueAt w (.brR w op) 0x43 pBrR op s)
/-- CALL (R83). -/
def execCall (w : Iss) (op : W32) (s : State) : Out := ok (issueAt w (.call w op) 0x44 pCall op s)
/-- LOOP (R84). -/
def execLoop (w : Iss) (op : W32) (s : State) : Out := ok (issueAt w (.loop w op) 0x48 pLoop op s)
/-- WAIT_AT (R92). -/
def execWaitAt (w : Iss) (op : W32) (s : State) : Out := ok (issueAt w (.waitAt w op) 0x60 pNone op s)
/-- WAIT_Q (R89). -/
def execWaitQ (w : Iss) (op : W32) (s : State) : Out := ok (issueAt w (.waitQ w op) 0x61 pNone op s)
/-- WAIT_F (R90). -/
def execWaitF (w : Iss) (op : W32) (s : State) : Out := ok (issueAt w (.waitF w op) 0x62 pNone op s)
/-- WAIT_SB (R91). -/
def execWaitSb (w : Iss) (op : W32) (s : State) : Out := ok (issueAt w (.waitSb w op) 0x63 pNone op s)
/-- TASK_START (R53). -/
def execTaskStart (w : Iss) (op : W32) (s : State) : Out := ok (issueAt w (.taskStart w op) 0x70 pNone op s)
/-- TASK_END (R54). -/
def execTaskEnd (w : Iss) (op : W32) (s : State) : Out := ok (issueAt w (.taskEnd w op) 0x71 pNone op s)
/-- REPLAY_WAIT (R49). -/
def execReplayWait (w : Iss) (op : W32) (s : State) : Out := ok (issueAt w (.replayWait w op) 0x72 pNone op s)
/-- ICACHE_PRELOAD (R99). -/
def execIcachePreload (w : Iss) (op : W32) (s : State) : Out := ok (issueAt w (.icachePreload w op) 0x74 pNone op s)
/-- ICACHE_LOCK (R65). -/
def execIcacheLock (w : Iss) (op : W32) (s : State) : Out := ok (issueAt w (.icacheLock w op) 0x75 pNone op s)
/-- ICACHE_UNLOCK (R99). -/
def execIcacheUnlock (w : Iss) (op : W32) (s : State) : Out := ok (issueAt w (.icacheUnlock w op) 0x76 pNone op s)
/-- CMT_ARRIVE (R376). -/
def execCmtArrive (w : Iss) (op : W32) (s : State) : Out := ok (issueAt w (.cmtArrive w op) 0x64 pNone op s)

end Sys2Proof.Machine
end

