-- ==== Sys2Proof/Machine/RowsEvents.lean ====
section
/-! DEFINITION.
Events, processors and their control (spec 19).  One definition a row; each calls the shared operation that holds the rule. -/

namespace Sys2Proof.Machine

/-- STORE_ERROR (R532). -/
def execStoreError (p : ProcIx) (s : State) : Out := ok (Machine.storeError s p)
/-- INTERRUPT_ENTRY (R534). -/
def execInterruptEntry (p : ProcIx) (s : State) : Out := ok (Machine.interruptEntry s p)
/-- WFE_WAKE (R540). -/
def execWfeWake (p : ProcIx) (s : State) : Out := ok (Machine.wfeWake s p)
/-- CLAIM (R536). -/
def execClaim (p : CpIx) (s : State) : Out := ok (claimOp s p)
/-- COMPLETE (R537). -/
def execComplete (p : CpIx) (value : W64) (s : State) : Out := ok (completeOp s p value.toNat)
/-- EVENT_RAISE (R535). -/
def execEventRaise (die : DieIx) (source : W10) (s : State) : Out := ok (Machine.eventRaise s die source.toNat)
/-- SWRAISE (R535). -/
def execSwraise (_inp : Inp) (die : DieIx) (value : W64) (s : State) : Out := ok (Machine.swraise s die value)
/-- PENDING_CLEAR (R539). -/
def execPendingClear (_inp : Inp) (die : DieIx) (source : W10) (s : State) : Out :=
  ok (Machine.pendingClear s die source.toNat)
/-- CP_RUN (R545). -/
def execCpRun (inp : Inp) (p : CpIx) (entry : W32) (s : State) : Out := ok (cpRunOp s inp p entry)
/-- CP_HALT (R545). -/
def execCpHalt (inp : Inp) (p : CpIx) (s : State) : Out := ok (cpHaltOp s inp p)
/-- CP_RESET (R545). -/
def execCpReset (inp : Inp) (p : CpIx) (s : State) : Out := ok (cpResetOp s inp p)

end Sys2Proof.Machine
end

