-- ==== Sys2Proof/Machine/RowsFence.lean ====
section
/-! DEFINITION.
Fencing, the core maps, leases and rollback (spec 22), ordered mode (spec 13).  One definition a row; each calls the shared operation that holds the rule. -/

namespace Sys2Proof.Machine

/-- ORDERED_WRITE (R31). -/
def execOrderedWrite (_inp : Inp) (value : W64) (s : State) : Out := ok (Machine.orderedWrite s value)
/-- IMAGE_WRITE (R374). -/
def execImageWrite (_inp : Inp) (core : CoreIx) (value : W64) (s : State) : Out :=
  ok (Machine.imageWrite s core value)
/-- MAP_WRITE (R393). -/
def execMapWrite (inp : Inp) (n : LCoreIx) (value : W64) (s : State) : Out := ok (Machine.mapWrite s inp n value)
/-- REMAP (R597). -/
def execRemap (n : LCoreIx) (s : State) : Out := ok (Machine.remap s n)
/-- GATE (R596). -/
def execGate (inp : Inp) (core : CoreIx) (s : State) : Out :=
  ok (s.byKeeper inp (fun t => gateOp t core) (fun t => t.fenceRefused core))
/-- FENCE_DEEP_ENTRY (R596). -/
def execFenceDeepEntry (core : CoreIx) (s : State) : Out := ok (fenceDeep s core)
/-- PROBE (R606). -/
def execProbe (inp : Inp) (core : CoreIx) (s : State) : Out :=
  ok (s.byKeeper inp (fun t => probeOp t core) (fun t => t.fenceRefused core))
/-- RETURN (R607). -/
def execFenceReturn (inp : Inp) (core : CoreIx) (s : State) : Out :=
  ok (s.byKeeper inp (fun t => returnOp t core) (fun t => t.fenceRefused core))
/-- RETURN_COMPLETE (R607). -/
def execReturnComplete (core : CoreIx) (s : State) : Out := ok (returnDone s core)
/-- ACQUIRE (R609). -/
def execAcquire (inp : Inp) (value : W64) (s : State) : Out :=
  ok (s.byKeeper inp (fun t => Machine.acquire t (18 - inp) value) id)
/-- LEASE_RELEASE (R609). -/
def execLeaseRelease (inp : Inp) (value : W64) (s : State) : Out :=
  ok (s.byKeeper inp (fun t => Machine.leaseRelease t value) id)
/-- ADOPT (R611). -/
def execAdopt (inp : Inp) (value : W64) (s : State) : Out :=
  ok (s.byKeeper inp (fun t => Machine.adopt t (18 - inp) value) id)
/-- ROLLBACK (R603). -/
def execRollback (origin : W17) (step : W64) (s : State) : Out := ok (Machine.rollback s origin.toNat step)

end Sys2Proof.Machine
end

