-- ==== Sys2Proof/Machine/RowsForager.lean ====
section
/-! DEFINITION.
Streams, queues and speculation tags at work (spec 09, 10).  One definition a row; each calls the shared operation that holds the rule. -/

namespace Sys2Proof.Machine

/-- STREAM_PROGRAM_READ (R279). -/
def execStreamProgramRead (core : CoreIx) (slot : StrIx) (s : State) : Out := ok (programRead s core slot)
/-- ROW_OPERATION_GRANT (R283). -/
def execRowOperationGrant (core : CoreIx) (slot : StrIx) (s : State) : Out := ok (rowGrant s core slot)
/-- FWAIT_GRANT (R286). -/
def execFwaitGrant (core : CoreIx) (slot : StrIx) (s : State) : Out := ok (fwaitGrant s core slot)
/-- SIGNAL_GRANT (R286). -/
def execSignalGrant (core : CoreIx) (slot : StrIx) (s : State) : Out := ok (signalGrant s core slot)
/-- FORAGER_WRITE (R240). -/
def execForagerWrite (core : CoreIx) (s : State) : Out := ok (foragerWrite s core)
/-- CELLAR_ROW_LAND (R291). -/
def execCellarRowLand (core : CoreIx) (queue : RqIx) (entry : Nat) (s : State) : Out :=
  ok (cellarLand s core queue entry)
/-- READ_QUEUE_DELIVERY (R292). -/
def execReadQueueDelivery (core : CoreIx) (queue : RqIx) (s : State) : Out := ok (queueDelivery s core queue)
/-- WRITE_QUEUE_COMMIT (R294). -/
def execWriteQueueCommit (core : CoreIx) (queue : WqIx) (entry : Nat) (s : State) : Out :=
  ok (queueCommit s core queue entry)
/-- STREAM_END (R281). -/
def execStreamEnd (core : CoreIx) (slot : StrIx) (s : State) : Out := ok (streamEnd s core slot)
/-- STREAM_HALT (R303). -/
def execStreamHalt (core : CoreIx) (slot : StrIx) (reason : B8) (s : State) : Out :=
  ok (streamHalt s core slot reason.toNat)
/-- RESUME (R304). -/
def execResume (_inp : Inp) (core : CoreIx) (slot : StrIx) (s : State) : Out := ok (resumeStream s core slot)
/-- ABORT (R304). -/
def execAbort (_inp : Inp) (core : CoreIx) (slot : StrIx) (s : State) : Out := ok (abortStream s core slot)
/-- CONFIRM_RESUME (R321). -/
def execConfirmResume (core : CoreIx) (ctx : CtxIx) (s : State) : Out := ok (confirmResume s core ctx)
/-- CONFIRM_COMPLETE (R321). -/
def execConfirmComplete (core : CoreIx) (ctx : CtxIx) (s : State) : Out := ok (confirmComplete s core ctx)
/-- SQUASH_COMPLETE (R322). -/
def execSquashComplete (core : CoreIx) (ctx : CtxIx) (tag : TagIx) (s : State) : Out :=
  ok (squashComplete s core ctx tag)
/-- CLEAR (R314). -/
def execEhtClear (_inp : Inp) (core : CoreIx) (s : State) : Out := ok (ehtClear s core)

end Sys2Proof.Machine
end

