-- ==== Sys2Proof/Machine/RowsHost.lean ====
section
/-! DEFINITION.
The host stream channels (spec 18).  One definition a row; each calls the shared operation that holds the rule. -/

namespace Sys2Proof.Machine

/-- HCH_BIND_WRITE (R516). -/
def execHchBindWrite (_inp : Inp) (ch : HchIx) (value : W64) (s : State) : Out := ok (hchBindWrite s ch value)
/-- HOST_LINE_TIMEOUT (R519). -/
def execHostLineTimeout (ch : HchIx) (id : Nat) (s : State) : Out := ok (hostTimeout s ch id)
/-- HTTSYNC (R521). -/
def execHttsync (_inp : Inp) (s : State) : Out := ok (httsync s)
/-- HTTSYNC_DONE (R521). -/
def execHttsyncDone (s : State) : Out := ok (httsyncDone s)
/-- DBELL (R523). -/
def execDbell (inp : Inp) (value : W64) (s : State) : Out := ok (dbell s inp value)

end Sys2Proof.Machine
end

