-- ==== Sys2Proof/Machine/RowsKeeper.lean ====
section
/-! DEFINITION.
The Keeper members, sensors, comparators, log and stream engines (spec 20).  One definition a row; each calls the shared operation that holds the rule. -/

namespace Sys2Proof.Machine

/-- BEAT (R548). -/
def execBeat (inp : Inp) (s : State) : Out := ok (beatOp s inp)
/-- TAKEOVER (R548). -/
def execTakeover (s : State) : Out := ok (Machine.takeover s)
/-- STANDBY_LOST (R552). -/
def execStandbyLost (s : State) : Out := ok (Machine.standbyLost s)
/-- ROLE_SWAP (R549). -/
def execRoleSwap (inp : Inp) (s : State) : Out := ok (Machine.roleSwap s inp)
/-- RESTART (R549). -/
def execRestart (inp : Inp) (s : State) : Out := ok (Machine.restart s inp)
/-- NOTICE (R553). -/
def execNotice (inp : Inp) (target : B5) (s : State) : Out := ok (noticeWrite s inp target.toNat)
/-- SENSOR_SAMPLE_SET (R554). -/
def execSensorSampleSet (samples : Samples) (s : State) : Out := ok (sensorSet s samples)
/-- COMPARATOR_TRIP (R555). -/
def execComparatorTrip (k : CmpIx) (code : W10) (s : State) : Out := ok (Machine.comparatorTrip s k code.toNat)
/-- COMPARATOR_CLEAR (R555). -/
def execComparatorClear (k : CmpIx) (code : W10) (s : State) : Out := ok (Machine.comparatorClear s k code.toNat)
/-- LOG_APPEND (R558). -/
def execLogAppend (severity : B4) (source : W16) (code : W16) (data : Bytes) (s : State) : Out :=
  ok (Machine.logAppend s severity.toNat source.toNat code data)
/-- SECTOR_ERASE (R558). -/
def execSectorErase (s : State) : Out := ok (Machine.sectorErase s)
/-- KEEPER_STREAM_PIECE (R571). -/
def execKeeperStreamPiece (member : EdgeIx) (m : EdgeIx) (out : Bool) (flash : Bool) (sram : W32) (addr : W64) (len : W17) (s : State) : Out :=
  ok (streamPiece s member m out flash sram.toNat addr.toNat len.toNat)
/-- KSTR_RESUME (R571). -/
def execKstrResume (inp : Inp) (m : EdgeIx) (s : State) : Out := ok (Machine.kstrResume s inp m)
/-- KSTR_ABORT (R571). -/
def execKstrAbort (inp : Inp) (m : EdgeIx) (s : State) : Out := ok (Machine.kstrAbort s inp m)

end Sys2Proof.Machine
end

