-- ==== Sys2Proof/Machine/RowsManage.lean ====
section
/-! DEFINITION.
Management messages: MCTP, PLDM, SPDM, IDE key management, updates and the life cycle (spec 18, 20).  One definition a row; each calls the shared operation that holds the rule. -/

namespace Sys2Proof.Machine

/-- MAILBOX_MCTP_COMMAND (R524). -/
def execMailboxMctpCommand (msg : Bytes) (s : State) : Out := ok (mailboxMctp s msg)
/-- SET_ENDPOINT_ID (R560). -/
def execSetEndpointId (eid : B8) (s : State) : Out := ok (setEndpoint s eid.toNat)
/-- PLDM_DISCOVERY (R560). -/
def execPldmDiscovery (cmd : B8) (s : State) : Out := ok (Machine.pldmDiscovery s cmd.toNat)
/-- GET_VERSION (R566). -/
def execGetVersion (msg : Bytes) (s : State) : Out := ok (Machine.getVersion s msg)
/-- GET_CAPABILITIES (R566). -/
def execGetCapabilities (msg : Bytes) (s : State) : Out := ok (Machine.getCapabilities s msg)
/-- NEGOTIATE_ALGORITHMS (R566). -/
def execNegotiateAlgorithms (msg : Bytes) (s : State) : Out := ok (Machine.negotiateAlgorithms s msg)
/-- GET_DIGESTS (R566). -/
def execGetDigests (msg : Bytes) (s : State) : Out := ok (Machine.getDigests s msg)
/-- GET_CERTIFICATE (R566). -/
def execGetCertificate (slot : B4) (off : W16) (len : W16) (s : State) : Out :=
  ok (Machine.getCertificate s slot.toNat off.toNat len.toNat)
/-- CHALLENGE (R566). -/
def execChallenge (slot : B4) (msg : Bytes) (s : State) : Out := ok (Machine.challenge s slot.toNat msg)
/-- GET_MEASUREMENTS (R567). -/
def execGetMeasurements (index : B8) (sig : Bool) (msg : Bytes) (s : State) : Out :=
  ok (Machine.getMeasurements s index.toNat sig msg)
/-- KEY_EXCHANGE (R566). -/
def execKeyExchange (msg : Bytes) (s : State) : Out := ok (Machine.keyExchange s msg)
/-- FINISH (R566). -/
def execFinish (msg : Bytes) (s : State) : Out := ok (Machine.finish s msg)
/-- KEY_UPDATE (R566). -/
def execKeyUpdate (op : B8) (s : State) : Out := ok (Machine.keyUpdate s op.toNat)
/-- HEARTBEAT (R566). -/
def execHeartbeat (s : State) : Out := ok (Machine.heartbeat s)
/-- END_SESSION (R566). -/
def execEndSession (s : State) : Out := ok (Machine.endSession s)
/-- IDE_KM (R525). -/
def execIdeKm (io : Bool) (op : B2) (keyset : Bool) (key : Key) (s : State) : Out :=
  ok (Machine.ideKm s io op.toNat keyset key)
/-- REQUEST_UPDATE (R563). -/
def execRequestUpdate (comps : B4) (s : State) : Out := ok (Machine.requestUpdate s comps.toNat)
/-- REQUEST_FIRMWARE_DATA (R560). -/
def execRequestFirmwareData (comp : B2) (off : Nat) (data : Bytes) (s : State) : Out :=
  ok (firmwareData s (comp.toNat + 1) off data)
/-- VERIFY_COMPLETE (R563). -/
def execVerifyComplete (comp : B2) (s : State) : Out := ok (Machine.verifyComplete s (comp.toNat + 1))
/-- ACTIVATE_FIRMWARE (R564). -/
def execActivateFirmware (s : State) : Out := ok (Machine.activateFirmware s)
/-- CP_IMAGE_ACTIVATION (R564). -/
def execCpImageActivation (s : State) : Out := ok (cpActivation s)
/-- LANE_CODE_BANK_SWITCH (R564). -/
def execLaneCodeBankSwitch (link : LinkIx) (s : State) : Out := ok (laneSwitch s link)
/-- LIFE_CYCLE_TRANSITION (R568). -/
def execLifeCycleTransition (target : B4) (sig : Bytes) (s : State) : Out := ok (lifeCycle s target.toNat sig)
/-- TRANSITION_NONCE (R568). -/
def execTransitionNonce (s : State) : Out := ok (Machine.transitionNonce s)
/-- UNLOCK (R569). -/
def execUnlock (sig : Bytes) (s : State) : Out := ok (Machine.unlock s sig)
/-- FENCE_REQUEST (R595). -/
def execFenceRequest (core : CoreIx) (s : State) : Out := ok (Machine.fenceRequest s core)

end Sys2Proof.Machine
end

