-- ==== Sys2Proof/Machine/RowsPort.lean ====
section
/-! DEFINITION.
The host port (spec 18, 23).  One definition a row; each calls the shared operation that holds the rule. -/

namespace Sys2Proof.Machine

/-- HOST_MEMORY_REQUEST (R513). -/
def execHostMemoryRequest (wr : Bool) (bar : B2) (off : Nat) (data : Bytes) (len : Nat) (s : State) : Out :=
  ok (hostRequest s wr bar.toNat off data len)
/-- CONFIGURATION_REQUEST (R620). -/
def execConfigurationRequest (wr : Bool) (off : W16) (data : W32) (s : State) : Out :=
  ok (configRequest s wr off.toNat data)
/-- LINK_TRAINING (R511). -/
def execLinkTraining (agreed : Bool) (width : B5) (rate : B2) (lopt : Bool) (s : State) : Out :=
  ok (Machine.linkTraining s agreed width.toNat rate.toNat lopt)
/-- PORT_RESET (R527). -/
def execPortReset (kind : B2) (s : State) : Out := ok (Machine.portReset s kind.toNat)
/-- IDE_CHECK_FAILED (R526). -/
def execIdeCheckFailed (io : Bool) (s : State) : Out := ok (Machine.ideCheckFailed s io)
/-- HOST_LINE_RESPONSE (R517). -/
def execHostLineResponse (ch : HchIx) (id : Nat) (status : B2) (data : Line) (s : State) : Out :=
  ok (hostLineIn s ch id status.toNat data)
/-- SNOOP (R510). -/
def execSnoop (_addr : W64) (s : State) : Out := ok (Machine.snoop s)
/-- MSI_X_UNMASK (R522). -/
def execMsiXUnmask (vector : VecIx) (s : State) : Out := ok (msixUnmask s vector)
/-- DOE_DISCOVERY (R524). -/
def execDoeDiscovery (box : Bool) (index : B8) (s : State) : Out := ok (Machine.doeDiscovery s box index.toNat)
/-- TABLE_ACCESS (R524). -/
def execTableAccess (handle : W16) (s : State) : Out := ok (Machine.tableAccess s handle.toNat)
/-- GET_EVENT_RECORDS (R526). -/
def execGetEventRecords (opcode : W16) (s : State) : Out := ok (eventRecords s opcode.toNat)

end Sys2Proof.Machine
end

