-- ==== Sys2Proof/Machine/RowsPower.lean ====
section
/-! DEFINITION.
Power states, limits and the throttle (spec 21).  One definition a row; each calls the shared operation that holds the rule. -/

namespace Sys2Proof.Machine

/-- BUDGET_WINDOW (R364). -/
def execBudgetWindow (die : DieIx) (s : State) : Out := ok (budgetWindow s die)
/-- NAP (R574). -/
def execNap (inp : Inp) (core : CoreIx) (value : W64) (s : State) : Out :=
  ok (pwrCtl s inp core (setBits value 1 0 1))
/-- DEEP (R574). -/
def execDeep (inp : Inp) (core : CoreIx) (value : W64) (s : State) : Out :=
  ok (pwrCtl s inp core (setBits value 1 0 2))
/-- WAKE (R579). -/
def execWake (inp : Inp) (core : CoreIx) (value : W64) (s : State) : Out :=
  ok (pwrCtl s inp core (setBits value 1 0 3))
/-- ENTRY_COMPLETE (R575). -/
def execEntryComplete (core : CoreIx) (s : State) : Out := ok (entryComplete s core)
/-- CORE_WAKE (R579). -/
def execCoreWake (core : CoreIx) (source : B4) (s : State) : Out := ok (coreWake s core source.toNat)
/-- TIMER_WAKE (R582). -/
def execTimerWake (core : CoreIx) (s : State) : Out := ok (timerWake s core)
/-- WAKE_STEP_READY (R580). -/
def execWakeStepReady (core : CoreIx) (s : State) : Out := ok (wakeReady s core)
/-- WAKEFAIL (R584). -/
def execWakefail (core : CoreIx) (s : State) : Out := ok (wakeFail s core)
/-- ARRAY_READY (R578). -/
def execArrayReady (core : CoreIx) (s : State) : Out := ok (arrayReady s core)
/-- CAP_WRITE (R586). -/
def execCapWrite (inp : Inp) (value : W64) (s : State) : Out :=
  ok (s.byKeeper inp (fun t => Machine.capWrite t value) id)
/-- BUDGET_WRITE (R587). -/
def execBudgetWrite (inp : Inp) (die : DieIx) (value : W64) (s : State) : Out :=
  ok (s.byKeeper inp (fun t => Machine.budgetWrite t die value) id)
/-- BUDGET_TAKES_EFFECT (R367). -/
def execBudgetTakesEffect (die : DieIx) (s : State) : Out := ok (budgetEffect s die)
/-- POWER_AVERAGE (R589). -/
def execPowerAverage (watts : W16) (s : State) : Out := ok (powerAverage s watts.toNat)
/-- THROTTLE_TRIP (R589). -/
def execThrottleTrip (s : State) : Out := ok (throttleTrip s)
/-- THROTTLE_START (R590). -/
def execThrottleStart (s : State) : Out := ok (throttleStart s)
/-- THROTTLE_END (R591). -/
def execThrottleEnd (s : State) : Out := ok (throttleEnd s)
/-- GLADE_RESUME (R414). -/
def execGladeResume (s : State) : Out := ok (gladeResume s)

end Sys2Proof.Machine
end

