-- ==== Sys2Proof/Machine/RowsProcIns.lean ====
section
/-! DEFINITION.
Loads, stores and control of the Adsiem-S processors (spec 03, 19).  One definition a row; each calls the shared operation that holds the rule. -/

namespace Sys2Proof.Machine

/-- S_LD8 (R103). -/
def execSLd8 (w : Iss) (op : W32) (s : State) : Out := ok (issueAt w (.sLd8 w op) 0x80 (pLoad 1) op s)
/-- S_LD16 (R103). -/
def execSLd16 (w : Iss) (op : W32) (s : State) : Out := ok (issueAt w (.sLd16 w op) 0x81 (pLoad 2) op s)
/-- S_LD32 (R103). -/
def execSLd32 (w : Iss) (op : W32) (s : State) : Out := ok (issueAt w (.sLd32 w op) 0x82 (pLoad 4) op s)
/-- S_LD64 (R103). -/
def execSLd64 (w : Iss) (op : W32) (s : State) : Out := ok (issueAt w (.sLd64 w op) 0x83 (pLoad 8) op s)
/-- S_ST8 (R103). -/
def execSSt8 (w : Iss) (op : W32) (s : State) : Out := ok (issueAt w (.sSt8 w op) 0x84 (pStore 1) op s)
/-- S_ST16 (R103). -/
def execSSt16 (w : Iss) (op : W32) (s : State) : Out := ok (issueAt w (.sSt16 w op) 0x85 (pStore 2) op s)
/-- S_ST32 (R103). -/
def execSSt32 (w : Iss) (op : W32) (s : State) : Out := ok (issueAt w (.sSt32 w op) 0x86 (pStore 4) op s)
/-- S_ST64 (R103). -/
def execSSt64 (w : Iss) (op : W32) (s : State) : Out := ok (issueAt w (.sSt64 w op) 0x87 (pStore 8) op s)
/-- S_WFE (R540). -/
def execSWfe (w : Iss) (op : W32) (s : State) : Out := ok (issueAt w (.sWfe w op) 0x88 pWfe op s)
/-- S_RDCSR (R531). -/
def execSRdcsr (w : Iss) (op : W32) (s : State) : Out := ok (issueAt w (.sRdcsr w op) 0x89 pRdcsr op s)
/-- S_WRCSR (R531). -/
def execSWrcsr (w : Iss) (op : W32) (s : State) : Out := ok (issueAt w (.sWrcsr w op) 0x8A pWrcsr op s)
/-- S_ERET (R532). -/
def execSEret (w : Iss) (op : W32) (s : State) : Out := ok (issueAt w (.sEret w op) 0x8B pEret op s)

end Sys2Proof.Machine
end

