-- ==== Sys2Proof/Machine/RowsScalar.lean ====
section
/-! DEFINITION.
Scalar and comparator instructions (spec 03).  One definition a row; each calls the shared operation that holds the rule. -/

namespace Sys2Proof.Machine

/-- NOP (R74). -/
def execNop (w : Iss) (op : W32) (s : State) : Out := ok (issueAt w (.nop w op) 0x00 pNop op s)
/-- S_ADD (R79). -/
def execSAdd (w : Iss) (op : W32) (s : State) : Out := ok (issueAt w (.sAdd w op) 0x01 (pR valAdd 1) op s)
/-- S_SUB (R79). -/
def execSSub (w : Iss) (op : W32) (s : State) : Out := ok (issueAt w (.sSub w op) 0x02 (pR valSub 1) op s)
/-- S_AND (R79). -/
def execSAnd (w : Iss) (op : W32) (s : State) : Out := ok (issueAt w (.sAnd w op) 0x03 (pR valAnd 1) op s)
/-- S_OR (R79). -/
def execSOr (w : Iss) (op : W32) (s : State) : Out := ok (issueAt w (.sOr w op) 0x04 (pR valOr 1) op s)
/-- S_XOR (R79). -/
def execSXor (w : Iss) (op : W32) (s : State) : Out := ok (issueAt w (.sXor w op) 0x05 (pR valXor 1) op s)
/-- S_SHL (R79). -/
def execSShl (w : Iss) (op : W32) (s : State) : Out := ok (issueAt w (.sShl w op) 0x06 (pR valShl 1) op s)
/-- S_SHR (R79). -/
def execSShr (w : Iss) (op : W32) (s : State) : Out := ok (issueAt w (.sShr w op) 0x07 (pR valShr 1) op s)
/-- S_SRA (R79). -/
def execSSra (w : Iss) (op : W32) (s : State) : Out := ok (issueAt w (.sSra w op) 0x08 (pR valSra 1) op s)
/-- S_MUL (R79). -/
def execSMul (w : Iss) (op : W32) (s : State) : Out := ok (issueAt w (.sMul w op) 0x09 (pR valMul 3) op s)
/-- S_MULH (R79). -/
def execSMulh (w : Iss) (op : W32) (s : State) : Out := ok (issueAt w (.sMulh w op) 0x0A (pR valMulh 3) op s)
/-- S_MIN (R79). -/
def execSMin (w : Iss) (op : W32) (s : State) : Out := ok (issueAt w (.sMin w op) 0x0B (pR valMin 1) op s)
/-- S_MAX (R79). -/
def execSMax (w : Iss) (op : W32) (s : State) : Out := ok (issueAt w (.sMax w op) 0x0C (pR valMax 1) op s)
/-- S_MINU (R79). -/
def execSMinu (w : Iss) (op : W32) (s : State) : Out := ok (issueAt w (.sMinu w op) 0x0D (pR valMinu 1) op s)
/-- S_MAXU (R79). -/
def execSMaxu (w : Iss) (op : W32) (s : State) : Out := ok (issueAt w (.sMaxu w op) 0x0E (pR valMaxu 1) op s)
/-- S_ADDI (R79). -/
def execSAddi (w : Iss) (op : W32) (s : State) : Out := ok (issueAt w (.sAddi w op) 0x10 (pI valAdd 1) op s)
/-- S_ANDI (R79). -/
def execSAndi (w : Iss) (op : W32) (s : State) : Out := ok (issueAt w (.sAndi w op) 0x11 (pI valAnd 1) op s)
/-- S_ORI (R79). -/
def execSOri (w : Iss) (op : W32) (s : State) : Out := ok (issueAt w (.sOri w op) 0x12 (pI valOr 1) op s)
/-- S_XORI (R79). -/
def execSXori (w : Iss) (op : W32) (s : State) : Out := ok (issueAt w (.sXori w op) 0x13 (pI valXor 1) op s)
/-- S_SHLI (R79). -/
def execSShli (w : Iss) (op : W32) (s : State) : Out := ok (issueAt w (.sShli w op) 0x14 (pI valShl 1) op s)
/-- S_SHRI (R79). -/
def execSShri (w : Iss) (op : W32) (s : State) : Out := ok (issueAt w (.sShri w op) 0x15 (pI valShr 1) op s)
/-- S_SRAI (R79). -/
def execSSrai (w : Iss) (op : W32) (s : State) : Out := ok (issueAt w (.sSrai w op) 0x16 (pI valSra 1) op s)
/-- S_MULI (R79). -/
def execSMuli (w : Iss) (op : W32) (s : State) : Out := ok (issueAt w (.sMuli w op) 0x17 (pI valMul 3) op s)
/-- S_LI (R79). -/
def execSLi (w : Iss) (op : W32) (s : State) : Out := ok (issueAt w (.sLi w op) 0x18 pLi op s)
/-- S_LIX (R79). -/
def execSLix (w : Iss) (op : W32) (s : State) : Out := ok (issueAt w (.sLix w op) 0x19 pLix op s)
/-- S_RDCT (R81). -/
def execSRdct (w : Iss) (op : W32) (s : State) : Out := ok (issueAt w (.sRdct w op) 0x20 pRdct op s)
/-- S_RDJT (R81). -/
def execSRdjt (w : Iss) (op : W32) (s : State) : Out := ok (issueAt w (.sRdjt w op) 0x21 pRdjt op s)
/-- S_RDCYC (R79). -/
def execSRdcyc (w : Iss) (op : W32) (s : State) : Out := ok (issueAt w (.sRdcyc w op) 0x22 pRdcyc op s)
/-- S_RDREP (R79). -/
def execSRdrep (w : Iss) (op : W32) (s : State) : Out := ok (issueAt w (.sRdrep w op) 0x23 pNone op s)
/-- S_RDNS (R192). -/
def execSRdns (w : Iss) (op : W32) (s : State) : Out := ok (issueAt w (.sRdns w op) 0x24 pNone op s)
/-- S_CLRNS (R192). -/
def execSClrns (w : Iss) (op : W32) (s : State) : Out := ok (issueAt w (.sClrns w op) 0x25 pNone op s)
/-- S_RDCTX (R79). -/
def execSRdctx (w : Iss) (op : W32) (s : State) : Out := ok (issueAt w (.sRdctx w op) 0x26 pNone op s)
/-- C_SET (R82). -/
def execCSet (w : Iss) (op : W32) (s : State) : Out := ok (issueAt w (.cSet w op) 0x30 pCSet op s)
/-- C_SETI (R82). -/
def execCSeti (w : Iss) (op : W32) (s : State) : Out := ok (issueAt w (.cSeti w op) 0x31 pCSeti op s)
/-- C_STEP (R82). -/
def execCStep (w : Iss) (op : W32) (s : State) : Out := ok (issueAt w (.cStep w op) 0x32 pCStep op s)
/-- C_RD (R82). -/
def execCRd (w : Iss) (op : W32) (s : State) : Out := ok (issueAt w (.cRd w op) 0x33 pCRd op s)

end Sys2Proof.Machine
end

