-- ==== Sys2Proof/Machine/RowsSlice.lean ====
section
/-! DEFINITION.
Slices and the Understory at work (spec 08, 11).  One definition a row; each calls the shared operation that holds the rule. -/

namespace Sys2Proof.Machine

/-- REMOTE_ACCESS_ARRIVAL (R243). -/
def execRemoteAccessArrival (core : CoreIx) (id : Nat) (s : State) : Out := ok (remoteArrival s core id)
/-- REMOTE_BUFFER_APPLY (R241). -/
def execRemoteBufferApply (core : CoreIx) (s : State) : Out := ok (remoteApply s core)
/-- SEQUENCER_APPLY (R387). -/
def execSequencerApply (core : CoreIx) (s : State) : Out := ok (sequencerApply s core)
/-- ROW_REWRITE (R260). -/
def execRowRewrite (core : CoreIx) (s : State) : Out := ok (rowRewrite s core)
/-- SCRUB_STEP (R264). -/
def execScrubStep (core : CoreIx) (s : State) : Out := ok (scrubStep s core)
/-- REPAIR (R265). -/
def execRepair (_inp : Inp) (core : CoreIx) (value : W64) (s : State) : Out := ok (repairWrite s core value)
/-- SPARE_ROW_REPAIR_DONE (R265). -/
def execSpareRowRepairDone (core : CoreIx) (s : State) : Out := ok (repairDone s core)
/-- SHADOW_WRITE (R258). -/
def execShadowWrite (_inp : Inp) (core : CoreIx) (value : W64) (s : State) : Out := ok (shadowWrite s core value)
/-- COPY_GO (R269). -/
def execCopyGo (_inp : Inp) (core : CoreIx) (value : W64) (s : State) : Out := ok (copyGo s core value)
/-- COPY_ROW (R268). -/
def execCopyRow (core : CoreIx) (s : State) : Out := ok (copyRow s core)
/-- COPY_DONE (R268). -/
def execCopyDone (core : CoreIx) (s : State) : Out := ok (copyDone s core)
/-- GET_ROW_RETURN (R338). -/
def execGetRowReturn (core : CoreIx) (id : Nat) (s : State) : Out := ok (getRowReturn s core id)
/-- XFER_STATUS_ARRIVAL (R339). -/
def execXferStatusArrival (core : CoreIx) (id : Nat) (s : State) : Out := ok (xferStatusArrival s core id)
/-- XFER_LOST (R340). -/
def execXferLost (core : CoreIx) (ctx : CtxIx) (id : Nat) (s : State) : Out := ok (xferLost s core ctx id)
/-- OPERATION_RECORD_DISCARD (R339). -/
def execOperationRecordDiscard (core : CoreIx) (id : Nat) (s : State) : Out := ok (recordDiscard s core id)
/-- SIGNAL_ARRIVAL (R344). -/
def execSignalArrival (core : CoreIx) (id : Nat) (s : State) : Out := ok (signalArrival s core id)
/-- FLAGOWN_WRITE (R343). -/
def execFlagownWrite (_inp : Inp) (core : CoreIx) (ctx : CtxIx) (value : W64) (s : State) : Out :=
  ok (flagownWrite s core ctx value)
/-- WQOWN_WRITE (R347). -/
def execWqownWrite (_inp : Inp) (core : CoreIx) (value : W64) (s : State) : Out := ok (wqownWrite s core value)
/-- BIND_WRITE (R349). -/
def execBindWrite (_inp : Inp) (core : CoreIx) (ctx : CtxIx) (b : BindIx) (value : W64) (s : State) : Out :=
  ok (bindWrite s core ctx b value)
/-- WAGGLE_MESSAGE_JUDGE (R351). -/
def execWaggleMessageJudge (core : CoreIx) (id : Nat) (s : State) : Out := ok (waggleJudge s core id)
/-- SEND_STATUS (R353). -/
def execSendStatus (core : CoreIx) (id : Nat) (s : State) : Out := ok (sendStatusArrival s core id)

end Sys2Proof.Machine
end

