-- ==== Sys2Proof/Machine/RowsSwarm.lean ====
section
/-! DEFINITION.
The buckets, the chain reduction units and the commit unit (spec 16).  One definition a row; each calls the shared operation that holds the rule. -/

namespace Sys2Proof.Machine

/-- BUCKET_WRITE (R460). -/
def execBucketWrite (_inp : Inp) (j : JobIx) (word : B2) (value : W64) (s : State) : Out :=
  ok (Machine.bucketWrite s j word.toNat value)
/-- BUCKET_PART_FULL (R461). -/
def execBucketPartFull (j : JobIx) (core : CoreIx) (s : State) : Out := ok (bucketPart s j core)
/-- BUCKET_DEADLINE (R462). -/
def execBucketDeadline (j : JobIx) (s : State) : Out := ok (Machine.bucketDeadline s j)
/-- STAGE_WRITE (R475). -/
def execStageWrite (_inp : Inp) (cru : EdgeIx) (k : JobIx) (word : Bool) (value : W64) (s : State) : Out :=
  ok (Machine.stageWrite s cru k word value)
/-- RED_FLIT_ACCEPT (R476). -/
def execRedFlitAccept (link : LinkIx) (s : State) : Out := ok (redAccept s link)
/-- STAGE_FLIT_FORM (R477). -/
def execStageFlitForm (cru : EdgeIx) (k : JobIx) (s : State) : Out := ok (stageFlit s cru k)
/-- COMMIT_ARRIVAL (R376). -/
def execCommitArrival (s : State) : Out := ok (Machine.commitArrival s)
/-- ARRIVE (R485). -/
def execArrive (_inp : Inp) (s : State) : Out := ok (Machine.arrive s)
/-- RUNTIME_FAIL (R481). -/
def execRuntimeFail (_inp : Inp) (s : State) : Out := ok (Machine.runtimeFail s)
/-- CMT_CONFIG_WRITE (R491). -/
def execCmtConfigWrite (_inp : Inp) (off : Nat) (value : W64) (s : State) : Out := ok (cmtConfig s off value)
/-- ARRIVED (R485). -/
def execArrived (link : LinkIx) (relno : W32) (time : W64) (s : State) : Out :=
  ok (Machine.arrived s link relno time.toNat)
/-- RELEASE (R486). -/
def execRelease (relno : W32) (time : W64) (s : State) : Out := ok (Machine.release s relno time.toNat)
/-- STEP_RELEASE (R486). -/
def execStepRelease (s : State) : Out := ok (Machine.stepRelease s)
/-- READY (R482). -/
def execReady (link : LinkIx) (relno : W32) (s : State) : Out := ok (Machine.ready s link relno)
/-- ALLREADY (R483). -/
def execAllready (relno : W32) (s : State) : Out := ok (Machine.allready s relno)
/-- FAIL (R481). -/
def execFailToken (relno : W32) (_cause : B8) (s : State) : Out := ok (Machine.failToken s relno)
/-- STEP_DEADLINE (R482). -/
def execStepDeadline (s : State) : Out := ok (Machine.stepDeadline s)
/-- COMMIT_POINT (R483). -/
def execCommitPoint (s : State) : Out := ok (Machine.commitPoint s)

end Sys2Proof.Machine
end

