-- ==== Sys2Proof/Machine/RowsUnitIns.lean ====
section
/-! DEFINITION.
Matrix, vector and epilogue instructions (spec 04, 05, 07).  One definition a row; each calls the shared operation that holds the rule. -/

namespace Sys2Proof.Machine

/-- M_GANG (R109). -/
def execMGang (w : Iss) (op : W32) (s : State) : Out := ok (issueAt w (.mGang w op) 0x01 pNone op s)
/-- M_MASK (R125). -/
def execMMask (w : Iss) (op : W32) (s : State) : Out := ok (issueAt w (.mMask w op) 0x02 pNone op s)
/-- M_PASS (R121). -/
def execMPass (w : Iss) (op : W32) (s : State) : Out := ok (issueAt w (.mPass w op) 0x03 pNone op s)
/-- M_PASSR (R141). -/
def execMPassr (w : Iss) (op : W32) (s : State) : Out := ok (issueAt w (.mPassr w op) 0x04 pNone op s)
/-- M_FREE (R111). -/
def execMFree (w : Iss) (op : W32) (s : State) : Out := ok (issueAt w (.mFree w op) 0x05 pNone op s)
/-- TM_LD (R150). -/
def execTmLd (w : Iss) (op : W32) (s : State) : Out := ok (issueAt w (.tmLd w op) 0x08 pNone op s)
/-- TM_ST (R150). -/
def execTmSt (w : Iss) (op : W32) (s : State) : Out := ok (issueAt w (.tmSt w op) 0x09 pNone op s)
/-- MV_CFG (R156). -/
def execMvCfg (w : Iss) (op : W32) (s : State) : Out := ok (issueAt w (.mvCfg w op) 0x10 pNone op s)
/-- MV_LDV (R157). -/
def execMvLdv (w : Iss) (op : W32) (s : State) : Out := ok (issueAt w (.mvLdv w op) 0x11 pNone op s)
/-- MV_PASS (R163). -/
def execMvPass (w : Iss) (op : W32) (s : State) : Out := ok (issueAt w (.mvPass w op) 0x12 pNone op s)
/-- MV_FREE (R154). -/
def execMvFree (w : Iss) (op : W32) (s : State) : Out := ok (issueAt w (.mvFree w op) 0x13 pNone op s)
/-- V_OP (R202). -/
def execVOp (w : Iss) (op : W32) (s : State) : Out := ok (issueAt w (.vOp w op) 0x01 pNone op s)
/-- V_BLD (R213). -/
def execVBld (w : Iss) (op : W32) (s : State) : Out := ok (issueAt w (.vBld w op) 0x02 pNone op s)
/-- V_EXT (R214). -/
def execVExt (w : Iss) (op : W32) (s : State) : Out := ok (issueAt w (.vExt w op) 0x03 pNone op s)
/-- V_SEED (R205). -/
def execVSeed (w : Iss) (op : W32) (s : State) : Out := ok (issueAt w (.vSeed w op) 0x04 pNone op s)
/-- EP_RUN (R225). -/
def execEpRun (w : Iss) (op : W32) (s : State) : Out := ok (issueAt w (.epRun w op) 0x08 pNone op s)

end Sys2Proof.Machine
end

