-- ==== Sys2Proof/Machine/RowsUnits.lean ====
section
/-! DEFINITION.
The units of a core at work: arrays, tile moves, matrix-vector path, vector unit, epilogue (spec 04, 05, 07).  One definition a row; each calls the shared operation that holds the rule. -/

namespace Sys2Proof.Machine

/-- PASS_ACCUMULATE_START (R121). -/
def execPassAccumulateStart (core : CoreIx) (base : ArrIx) (s : State) : Out := ok (passStart s core base)
/-- BLOCK_ACCUMULATE (R132). -/
def execBlockAccumulate (core : CoreIx) (base : ArrIx) (s : State) : Out := ok (passBlock s core base)
/-- PASS_RESUME (R118). -/
def execPassResume (core : CoreIx) (base : ArrIx) (s : State) : Out := ok (passResume s core base)
/-- PASS_SWAP (R106). -/
def execPassSwap (core : CoreIx) (base : ArrIx) (s : State) : Out := ok (passSwap s core base)
/-- PASS_DRAIN_COMPLETE (R121). -/
def execPassDrainComplete (core : CoreIx) (base : ArrIx) (s : State) : Out := ok (passDrain s core base)
/-- TILES_WRITE (R146). -/
def execTilesWrite (_inp : Inp) (core : CoreIx) (ctx : CtxIx) (value : W64) (s : State) : Out :=
  ok (tilesWrite s core ctx value)
/-- TILE_MOVE_COMPLETE (R150). -/
def execTileMoveComplete (core : CoreIx) (s : State) : Out := ok (tileMoveDone s core)
/-- MV_LDV_COMPLETE (R157). -/
def execMvLdvComplete (core : CoreIx) (s : State) : Out := ok (mvLoadDone s core)
/-- MV_BLOCK_WRITE (R163). -/
def execMvBlockWrite (core : CoreIx) (s : State) : Out := ok (mvBlock s core)
/-- MV_PASS_COMPLETE (R163). -/
def execMvPassComplete (core : CoreIx) (s : State) : Out := ok (mvPassDone s core)
/-- MVP_CLEAR_COMPLETE (R155). -/
def execMvpClearComplete (core : CoreIx) (s : State) : Out := ok (mvpClearDone s core)
/-- V_ADD (R206). -/
def execVAdd (core : CoreIx) (s : State) : Out := ok (svuRun s core 0)
/-- V_SUB (R206). -/
def execVSub (core : CoreIx) (s : State) : Out := ok (svuRun s core 1)
/-- V_MUL (R206). -/
def execVMul (core : CoreIx) (s : State) : Out := ok (svuRun s core 2)
/-- V_FMAS (R206). -/
def execVFmas (core : CoreIx) (s : State) : Out := ok (svuRun s core 3)
/-- V_MAX (R206). -/
def execVMax (core : CoreIx) (s : State) : Out := ok (svuRun s core 4)
/-- V_MIN (R206). -/
def execVMin (core : CoreIx) (s : State) : Out := ok (svuRun s core 5)
/-- V_ABS (R206). -/
def execVAbs (core : CoreIx) (s : State) : Out := ok (svuRun s core 6)
/-- V_NEG (R206). -/
def execVNeg (core : CoreIx) (s : State) : Out := ok (svuRun s core 7)
/-- V_SCL (R206). -/
def execVScl (core : CoreIx) (s : State) : Out := ok (svuRun s core 8)
/-- V_ADDS (R206). -/
def execVAdds (core : CoreIx) (s : State) : Out := ok (svuRun s core 9)
/-- V_CMP (R206). -/
def execVCmp (core : CoreIx) (s : State) : Out := ok (svuRun s core 10)
/-- V_SEL (R206). -/
def execVSel (core : CoreIx) (s : State) : Out := ok (svuRun s core 11)
/-- V_CVT (R206). -/
def execVCvt (core : CoreIx) (s : State) : Out := ok (svuRun s core 12)
/-- V_RSUM (R207). -/
def execVRsum (core : CoreIx) (s : State) : Out := ok (svuRun s core 13)
/-- V_RMAX (R207). -/
def execVRmax (core : CoreIx) (s : State) : Out := ok (svuRun s core 14)
/-- V_RMIN (R207). -/
def execVRmin (core : CoreIx) (s : State) : Out := ok (svuRun s core 15)
/-- V_GATH (R208). -/
def execVGath (core : CoreIx) (s : State) : Out := ok (svuRun s core 16)
/-- V_TRN (R209). -/
def execVTrn (core : CoreIx) (s : State) : Out := ok (svuRun s core 17)
/-- V_OP_COMPLETE (R210). -/
def execVOpComplete (core : CoreIx) (s : State) : Out := ok (svuDone s core)
/-- EP_RUN_COMPLETE (R225). -/
def execEpRunComplete (core : CoreIx) (s : State) : Out := ok (epDone s core)

end Sys2Proof.Machine
end

