-- ==== Sys2Proof/Machine/Dispatch.lean ====
section
/-! DEFINITION.
The dispatch: one arm for each command. -/

namespace Sys2Proof.Machine

def exec (i : Instr) (s : State) : Host.Outcome State Fault Refusal :=
  match i with
  | .nop w op => Sys2Proof.Machine.execNop w op s
  | .sAdd w op => Sys2Proof.Machine.execSAdd w op s
  | .sSub w op => Sys2Proof.Machine.execSSub w op s
  | .sAnd w op => Sys2Proof.Machine.execSAnd w op s
  | .sOr w op => Sys2Proof.Machine.execSOr w op s
  | .sXor w op => Sys2Proof.Machine.execSXor w op s
  | .sShl w op => Sys2Proof.Machine.execSShl w op s
  | .sShr w op => Sys2Proof.Machine.execSShr w op s
  | .sSra w op => Sys2Proof.Machine.execSSra w op s
  | .sMul w op => Sys2Proof.Machine.execSMul w op s
  | .sMulh w op => Sys2Proof.Machine.execSMulh w op s
  | .sMin w op => Sys2Proof.Machine.execSMin w op s
  | .sMax w op => Sys2Proof.Machine.execSMax w op s
  | .sMinu w op => Sys2Proof.Machine.execSMinu w op s
  | .sMaxu w op => Sys2Proof.Machine.execSMaxu w op s
  | .sAddi w op => Sys2Proof.Machine.execSAddi w op s
  | .sAndi w op => Sys2Proof.Machine.execSAndi w op s
  | .sOri w op => Sys2Proof.Machine.execSOri w op s
  | .sXori w op => Sys2Proof.Machine.execSXori w op s
  | .sShli w op => Sys2Proof.Machine.execSShli w op s
  | .sShri w op => Sys2Proof.Machine.execSShri w op s
  | .sSrai w op => Sys2Proof.Machine.execSSrai w op s
  | .sMuli w op => Sys2Proof.Machine.execSMuli w op s
  | .sLi w op => Sys2Proof.Machine.execSLi w op s
  | .sLix w op => Sys2Proof.Machine.execSLix w op s
  | .sRdct w op => Sys2Proof.Machine.execSRdct w op s
  | .sRdjt w op => Sys2Proof.Machine.execSRdjt w op s
  | .sRdcyc w op => Sys2Proof.Machine.execSRdcyc w op s
  | .sRdrep w op => Sys2Proof.Machine.execSRdrep w op s
  | .sRdns w op => Sys2Proof.Machine.execSRdns w op s
  | .sClrns w op => Sys2Proof.Machine.execSClrns w op s
  | .sRdctx w op => Sys2Proof.Machine.execSRdctx w op s
  | .cSet w op => Sys2Proof.Machine.execCSet w op s
  | .cSeti w op => Sys2Proof.Machine.execCSeti w op s
  | .cStep w op => Sys2Proof.Machine.execCStep w op s
  | .cRd w op => Sys2Proof.Machine.execCRd w op s
  | .br w op => Sys2Proof.Machine.execBr w op s
  | .brC w op => Sys2Proof.Machine.execBrC w op s
  | .brNc w op => Sys2Proof.Machine.execBrNc w op s
  | .brR w op => Sys2Proof.Machine.execBrR w op s
  | .call w op => Sys2Proof.Machine.execCall w op s
  | .loop w op => Sys2Proof.Machine.execLoop w op s
  | .waitAt w op => Sys2Proof.Machine.execWaitAt w op s
  | .waitAtTargetReached core ctx => Sys2Proof.Machine.execWaitAtTargetReached core ctx s
  | .waitQ w op => Sys2Proof.Machine.execWaitQ w op s
  | .waitF w op => Sys2Proof.Machine.execWaitF w op s
  | .waitSb w op => Sys2Proof.Machine.execWaitSb w op s
  | .waitConditionMet core ctx => Sys2Proof.Machine.execWaitConditionMet core ctx s
  | .contextSwitch core => Sys2Proof.Machine.execContextSwitch core s
  | .gatedWake core => Sys2Proof.Machine.execGatedWake core s
  | .taskStart w op => Sys2Proof.Machine.execTaskStart w op s
  | .taskEnd w op => Sys2Proof.Machine.execTaskEnd w op s
  | .replayWait w op => Sys2Proof.Machine.execReplayWait w op s
  | .icachePreload w op => Sys2Proof.Machine.execIcachePreload w op s
  | .icacheLock w op => Sys2Proof.Machine.execIcacheLock w op s
  | .icacheUnlock w op => Sys2Proof.Machine.execIcacheUnlock w op s
  | .icacheMiss core ctx => Sys2Proof.Machine.execIcacheMiss core ctx s
  | .icacheFillComplete core line => Sys2Proof.Machine.execIcacheFillComplete core line s
  | .start inp core ctx entry => Sys2Proof.Machine.execStart inp core ctx entry s
  | .endCmd inp core ctx => Sys2Proof.Machine.execEndCmd inp core ctx s
  | .go inp core ctx => Sys2Proof.Machine.execGo inp core ctx s
  | .paramWrite inp core ctx j value => Sys2Proof.Machine.execParamWrite inp core ctx j value s
  | .contextClearBegin core ctx => Sys2Proof.Machine.execContextClearBegin core ctx s
  | .contextClearEnd core ctx => Sys2Proof.Machine.execContextClearEnd core ctx s
  | .backgroundTileClear core => Sys2Proof.Machine.execBackgroundTileClear core s
  | .tileRushComplete core => Sys2Proof.Machine.execTileRushComplete core s
  | .mGang w op => Sys2Proof.Machine.execMGang w op s
  | .mMask w op => Sys2Proof.Machine.execMMask w op s
  | .mPass w op => Sys2Proof.Machine.execMPass w op s
  | .mPassr w op => Sys2Proof.Machine.execMPassr w op s
  | .mFree w op => Sys2Proof.Machine.execMFree w op s
  | .passAccumulateStart core base => Sys2Proof.Machine.execPassAccumulateStart core base s
  | .blockAccumulate core base => Sys2Proof.Machine.execBlockAccumulate core base s
  | .passResume core base => Sys2Proof.Machine.execPassResume core base s
  | .passSwap core base => Sys2Proof.Machine.execPassSwap core base s
  | .passDrainComplete core base => Sys2Proof.Machine.execPassDrainComplete core base s
  | .tilesWrite inp core ctx value => Sys2Proof.Machine.execTilesWrite inp core ctx value s
  | .tmLd w op => Sys2Proof.Machine.execTmLd w op s
  | .tmSt w op => Sys2Proof.Machine.execTmSt w op s
  | .tileMoveComplete core => Sys2Proof.Machine.execTileMoveComplete core s
  | .mvCfg w op => Sys2Proof.Machine.execMvCfg w op s
  | .mvLdv w op => Sys2Proof.Machine.execMvLdv w op s
  | .mvLdvComplete core => Sys2Proof.Machine.execMvLdvComplete core s
  | .mvPass w op => Sys2Proof.Machine.execMvPass w op s
  | .mvBlockWrite core => Sys2Proof.Machine.execMvBlockWrite core s
  | .mvPassComplete core => Sys2Proof.Machine.execMvPassComplete core s
  | .mvFree w op => Sys2Proof.Machine.execMvFree w op s
  | .mvpClearComplete core => Sys2Proof.Machine.execMvpClearComplete core s
  | .vOp w op => Sys2Proof.Machine.execVOp w op s
  | .vAdd core => Sys2Proof.Machine.execVAdd core s
  | .vSub core => Sys2Proof.Machine.execVSub core s
  | .vMul core => Sys2Proof.Machine.execVMul core s
  | .vFmas core => Sys2Proof.Machine.execVFmas core s
  | .vMax core => Sys2Proof.Machine.execVMax core s
  | .vMin core => Sys2Proof.Machine.execVMin core s
  | .vAbs core => Sys2Proof.Machine.execVAbs core s
  | .vNeg core => Sys2Proof.Machine.execVNeg core s
  | .vScl core => Sys2Proof.Machine.execVScl core s
  | .vAdds core => Sys2Proof.Machine.execVAdds core s
  | .vCmp core => Sys2Proof.Machine.execVCmp core s
  | .vSel core => Sys2Proof.Machine.execVSel core s
  | .vCvt core => Sys2Proof.Machine.execVCvt core s
  | .vRsum core => Sys2Proof.Machine.execVRsum core s
  | .vRmax core => Sys2Proof.Machine.execVRmax core s
  | .vRmin core => Sys2Proof.Machine.execVRmin core s
  | .vGath core => Sys2Proof.Machine.execVGath core s
  | .vTrn core => Sys2Proof.Machine.execVTrn core s
  | .vOpComplete core => Sys2Proof.Machine.execVOpComplete core s
  | .vBld w op => Sys2Proof.Machine.execVBld w op s
  | .vExt w op => Sys2Proof.Machine.execVExt w op s
  | .vSeed w op => Sys2Proof.Machine.execVSeed w op s
  | .epRun w op => Sys2Proof.Machine.execEpRun w op s
  | .epRunComplete core => Sys2Proof.Machine.execEpRunComplete core s
  | .wOpen w op => Sys2Proof.Machine.execWOpen w op s
  | .wClose w op => Sys2Proof.Machine.execWClose w op s
  | .remoteAccessArrival core id => Sys2Proof.Machine.execRemoteAccessArrival core id s
  | .remoteBufferApply core => Sys2Proof.Machine.execRemoteBufferApply core s
  | .sequencerApply core => Sys2Proof.Machine.execSequencerApply core s
  | .combApertureAccess inp => Sys2Proof.Machine.execCombApertureAccess inp s
  | .rowRewrite core => Sys2Proof.Machine.execRowRewrite core s
  | .scrubStep core => Sys2Proof.Machine.execScrubStep core s
  | .repair inp core value => Sys2Proof.Machine.execRepair inp core value s
  | .spareRowRepairDone core => Sys2Proof.Machine.execSpareRowRepairDone core s
  | .shadowWrite inp core value => Sys2Proof.Machine.execShadowWrite inp core value s
  | .copyGo inp core value => Sys2Proof.Machine.execCopyGo inp core value s
  | .copyRow core => Sys2Proof.Machine.execCopyRow core s
  | .copyDone core => Sys2Proof.Machine.execCopyDone core s
  | .fStart w op => Sys2Proof.Machine.execFStart w op s
  | .streamProgramRead core slot => Sys2Proof.Machine.execStreamProgramRead core slot s
  | .fStop w op => Sys2Proof.Machine.execFStop w op s
  | .fTake w op => Sys2Proof.Machine.execFTake w op s
  | .rowOperationGrant core slot => Sys2Proof.Machine.execRowOperationGrant core slot s
  | .fwaitGrant core slot => Sys2Proof.Machine.execFwaitGrant core slot s
  | .signalGrant core slot => Sys2Proof.Machine.execSignalGrant core slot s
  | .foragerWrite core => Sys2Proof.Machine.execForagerWrite core s
  | .cellarRowLand core queue entry => Sys2Proof.Machine.execCellarRowLand core queue entry s
  | .readQueueDelivery core queue => Sys2Proof.Machine.execReadQueueDelivery core queue s
  | .writeQueueCommit core queue entry => Sys2Proof.Machine.execWriteQueueCommit core queue entry s
  | .streamEnd core slot => Sys2Proof.Machine.execStreamEnd core slot s
  | .streamHalt core slot reason => Sys2Proof.Machine.execStreamHalt core slot reason s
  | .resume inp core slot => Sys2Proof.Machine.execResume inp core slot s
  | .abort inp core slot => Sys2Proof.Machine.execAbort inp core slot s
  | .spOpen w op => Sys2Proof.Machine.execSpOpen w op s
  | .confirm w op => Sys2Proof.Machine.execConfirm w op s
  | .confirmResume core ctx => Sys2Proof.Machine.execConfirmResume core ctx s
  | .confirmComplete core ctx => Sys2Proof.Machine.execConfirmComplete core ctx s
  | .squash w op => Sys2Proof.Machine.execSquash w op s
  | .squashComplete core ctx tag => Sys2Proof.Machine.execSquashComplete core ctx tag s
  | .spTrain w op => Sys2Proof.Machine.execSpTrain w op s
  | .ehtClear inp core => Sys2Proof.Machine.execEhtClear inp core s
  | .put w op => Sys2Proof.Machine.execPut w op s
  | .putAdd w op => Sys2Proof.Machine.execPutAdd w op s
  | .get w op => Sys2Proof.Machine.execGet w op s
  | .getRowReturn core id => Sys2Proof.Machine.execGetRowReturn core id s
  | .xferStatusArrival core id => Sys2Proof.Machine.execXferStatusArrival core id s
  | .xferLost core ctx id => Sys2Proof.Machine.execXferLost core ctx id s
  | .operationRecordDiscard core id => Sys2Proof.Machine.execOperationRecordDiscard core id s
  | .xSig w op => Sys2Proof.Machine.execXSig w op s
  | .xSigr w op => Sys2Proof.Machine.execXSigr w op s
  | .signalArrival core id => Sys2Proof.Machine.execSignalArrival core id s
  | .flagownWrite inp core ctx value => Sys2Proof.Machine.execFlagownWrite inp core ctx value s
  | .wqownWrite inp core value => Sys2Proof.Machine.execWqownWrite inp core value s
  | .bindWrite inp core ctx b value => Sys2Proof.Machine.execBindWrite inp core ctx b value s
  | .qSend w op => Sys2Proof.Machine.execQSend w op s
  | .waggleMessageJudge core id => Sys2Proof.Machine.execWaggleMessageJudge core id s
  | .sendStatus core id => Sys2Proof.Machine.execSendStatus core id s
  | .qPop w op => Sys2Proof.Machine.execQPop w op s
  | .qSkip w op => Sys2Proof.Machine.execQSkip w op s
  | .qStat w op => Sys2Proof.Machine.execQStat w op s
  | .qSstat w op => Sys2Proof.Machine.execQSstat w op s
  | .cmtArrive w op => Sys2Proof.Machine.execCmtArrive w op s
  | .commitArrival => Sys2Proof.Machine.execCommitArrival s
  | .budgetWindow die => Sys2Proof.Machine.execBudgetWindow die s
  | .imageWrite inp core value => Sys2Proof.Machine.execImageWrite inp core value s
  | .orderedWrite inp value => Sys2Proof.Machine.execOrderedWrite inp value s
  | .mapWrite inp n value => Sys2Proof.Machine.execMapWrite inp n value s
  | .remap n => Sys2Proof.Machine.execRemap n s
  | .droopAlarm glade level => Sys2Proof.Machine.execDroopAlarm glade level s
  | .lag glade => Sys2Proof.Machine.execLag glade s
  | .opreqWrite inp value => Sys2Proof.Machine.execOpreqWrite inp value s
  | .operatingPointChange => Sys2Proof.Machine.execOperatingPointChange s
  | .jobepochWrite inp value => Sys2Proof.Machine.execJobepochWrite inp value s
  | .tctlWrite inp value => Sys2Proof.Machine.execTctlWrite inp value s
  | .hallPpsEdge => Sys2Proof.Machine.execHallPpsEdge s
  | .ppsLost => Sys2Proof.Machine.execPpsLost s
  | .hallRefLoss => Sys2Proof.Machine.execHallRefLoss s
  | .hallRefGood => Sys2Proof.Machine.execHallRefGood s
  | .linkEstimate => Sys2Proof.Machine.execLinkEstimate s
  | .timeStep => Sys2Proof.Machine.execTimeStep s
  | .acquireComplete => Sys2Proof.Machine.execAcquireComplete s
  | .holdoverExpiry => Sys2Proof.Machine.execHoldoverExpiry s
  | .slot link => Sys2Proof.Machine.execSlot link s
  | .slotReceive link n image fec rx => Sys2Proof.Machine.execSlotReceive link n image fec rx s
  | .retryRequestTimeout link => Sys2Proof.Machine.execRetryRequestTimeout link s
  | .sideResend link => Sys2Proof.Machine.execSideResend link s
  | .dmaGo inp edge ch value => Sys2Proof.Machine.execDmaGo inp edge ch value s
  | .dmaRowRead edge ch => Sys2Proof.Machine.execDmaRowRead edge ch s
  | .bankSwap inp => Sys2Proof.Machine.execBankSwap inp s
  | .slotTableSwap => Sys2Proof.Machine.execSlotTableSwap s
  | .laneFailure link lane => Sys2Proof.Machine.execLaneFailure link lane s
  | .laneDegrade link => Sys2Proof.Machine.execLaneDegrade link s
  | .schedEntry link => Sys2Proof.Machine.execSchedEntry link s
  | .recal inp link => Sys2Proof.Machine.execRecal inp link s
  | .fullRecalibration link txoff alpha delay delayr => Sys2Proof.Machine.execFullRecalibration link txoff alpha delay delayr s
  | .bucketWrite inp j word value => Sys2Proof.Machine.execBucketWrite inp j word value s
  | .bucketPartFull j core => Sys2Proof.Machine.execBucketPartFull j core s
  | .bucketDeadline j => Sys2Proof.Machine.execBucketDeadline j s
  | .stageWrite inp cru k word value => Sys2Proof.Machine.execStageWrite inp cru k word value s
  | .redFlitAccept link => Sys2Proof.Machine.execRedFlitAccept link s
  | .stageFlitForm cru k => Sys2Proof.Machine.execStageFlitForm cru k s
  | .arrive inp => Sys2Proof.Machine.execArrive inp s
  | .runtimeFail inp => Sys2Proof.Machine.execRuntimeFail inp s
  | .cmtConfigWrite inp off value => Sys2Proof.Machine.execCmtConfigWrite inp off value s
  | .arrived link relno time => Sys2Proof.Machine.execArrived link relno time s
  | .release relno time => Sys2Proof.Machine.execRelease relno time s
  | .stepRelease => Sys2Proof.Machine.execStepRelease s
  | .ready link relno => Sys2Proof.Machine.execReady link relno s
  | .allready relno => Sys2Proof.Machine.execAllready relno s
  | .failToken relno cause => Sys2Proof.Machine.execFailToken relno cause s
  | .stepDeadline => Sys2Proof.Machine.execStepDeadline s
  | .commitPoint => Sys2Proof.Machine.execCommitPoint s
  | .cellarApertureAccess inp => Sys2Proof.Machine.execCellarApertureAccess inp s
  | .linkEccReread ch burst clean => Sys2Proof.Machine.execLinkEccReread ch burst clean s
  | .checkBufferFlush ch => Sys2Proof.Machine.execCheckBufferFlush ch s
  | .perBankRefresh ch rank => Sys2Proof.Machine.execPerBankRefresh ch rank s
  | .mr4Poll ch rank field linkce => Sys2Proof.Machine.execMr4Poll ch rank field linkce s
  | .refreshPatternChange dev => Sys2Proof.Machine.execRefreshPatternChange dev s
  | .wck2dqTracking ch rank count => Sys2Proof.Machine.execWck2dqTracking ch rank count s
  | .shareWrite inp value => Sys2Proof.Machine.execShareWrite inp value s
  | .shareChange => Sys2Proof.Machine.execShareChange s
  | .retrain inp value => Sys2Proof.Machine.execRetrain inp value s
  | .fullRetraining dev => Sys2Proof.Machine.execFullRetraining dev s
  | .ppr inp value => Sys2Proof.Machine.execPpr inp value s
  | .postPackageRepair => Sys2Proof.Machine.execPostPackageRepair s
  | .hostMemoryRequest wr bar off data len => Sys2Proof.Machine.execHostMemoryRequest wr bar off data len s
  | .configurationRequest wr off data => Sys2Proof.Machine.execConfigurationRequest wr off data s
  | .linkTraining agreed width rate lopt => Sys2Proof.Machine.execLinkTraining agreed width rate lopt s
  | .portReset kind => Sys2Proof.Machine.execPortReset kind s
  | .hchBindWrite inp ch value => Sys2Proof.Machine.execHchBindWrite inp ch value s
  | .hostLineResponse ch id status data => Sys2Proof.Machine.execHostLineResponse ch id status data s
  | .hostLineTimeout ch id => Sys2Proof.Machine.execHostLineTimeout ch id s
  | .httsync inp => Sys2Proof.Machine.execHttsync inp s
  | .httsyncDone => Sys2Proof.Machine.execHttsyncDone s
  | .dbell inp value => Sys2Proof.Machine.execDbell inp value s
  | .ideCheckFailed io => Sys2Proof.Machine.execIdeCheckFailed io s
  | .mailboxMctpCommand msg => Sys2Proof.Machine.execMailboxMctpCommand msg s
  | .getVersion msg => Sys2Proof.Machine.execGetVersion msg s
  | .getCapabilities msg => Sys2Proof.Machine.execGetCapabilities msg s
  | .negotiateAlgorithms msg => Sys2Proof.Machine.execNegotiateAlgorithms msg s
  | .getDigests msg => Sys2Proof.Machine.execGetDigests msg s
  | .getCertificate slot off len => Sys2Proof.Machine.execGetCertificate slot off len s
  | .challenge slot msg => Sys2Proof.Machine.execChallenge slot msg s
  | .getMeasurements index sig msg => Sys2Proof.Machine.execGetMeasurements index sig msg s
  | .keyExchange msg => Sys2Proof.Machine.execKeyExchange msg s
  | .finish msg => Sys2Proof.Machine.execFinish msg s
  | .keyUpdate op => Sys2Proof.Machine.execKeyUpdate op s
  | .heartbeat => Sys2Proof.Machine.execHeartbeat s
  | .endSession => Sys2Proof.Machine.execEndSession s
  | .ideKm io op keyset key => Sys2Proof.Machine.execIdeKm io op keyset key s
  | .requestUpdate comps => Sys2Proof.Machine.execRequestUpdate comps s
  | .requestFirmwareData comp off data => Sys2Proof.Machine.execRequestFirmwareData comp off data s
  | .verifyComplete comp => Sys2Proof.Machine.execVerifyComplete comp s
  | .activateFirmware => Sys2Proof.Machine.execActivateFirmware s
  | .cpImageActivation => Sys2Proof.Machine.execCpImageActivation s
  | .sLd8 w op => Sys2Proof.Machine.execSLd8 w op s
  | .sLd16 w op => Sys2Proof.Machine.execSLd16 w op s
  | .sLd32 w op => Sys2Proof.Machine.execSLd32 w op s
  | .sLd64 w op => Sys2Proof.Machine.execSLd64 w op s
  | .sSt8 w op => Sys2Proof.Machine.execSSt8 w op s
  | .sSt16 w op => Sys2Proof.Machine.execSSt16 w op s
  | .sSt32 w op => Sys2Proof.Machine.execSSt32 w op s
  | .sSt64 w op => Sys2Proof.Machine.execSSt64 w op s
  | .sWfe w op => Sys2Proof.Machine.execSWfe w op s
  | .sRdcsr w op => Sys2Proof.Machine.execSRdcsr w op s
  | .sWrcsr w op => Sys2Proof.Machine.execSWrcsr w op s
  | .sEret w op => Sys2Proof.Machine.execSEret w op s
  | .storeError p => Sys2Proof.Machine.execStoreError p s
  | .interruptEntry p => Sys2Proof.Machine.execInterruptEntry p s
  | .wfeWake p => Sys2Proof.Machine.execWfeWake p s
  | .claim p => Sys2Proof.Machine.execClaim p s
  | .complete p value => Sys2Proof.Machine.execComplete p value s
  | .eventRaise die source => Sys2Proof.Machine.execEventRaise die source s
  | .swraise inp die value => Sys2Proof.Machine.execSwraise inp die value s
  | .pendingClear inp die source => Sys2Proof.Machine.execPendingClear inp die source s
  | .cpRun inp p entry => Sys2Proof.Machine.execCpRun inp p entry s
  | .cpHalt inp p => Sys2Proof.Machine.execCpHalt inp p s
  | .cpReset inp p => Sys2Proof.Machine.execCpReset inp p s
  | .serviceBusGrant => Sys2Proof.Machine.execServiceBusGrant s
  | .registerWrite inp off size value => Sys2Proof.Machine.execRegisterWrite inp off size value s
  | .beat inp => Sys2Proof.Machine.execBeat inp s
  | .takeover => Sys2Proof.Machine.execTakeover s
  | .standbyLost => Sys2Proof.Machine.execStandbyLost s
  | .roleSwap inp => Sys2Proof.Machine.execRoleSwap inp s
  | .restart inp => Sys2Proof.Machine.execRestart inp s
  | .notice inp target => Sys2Proof.Machine.execNotice inp target s
  | .sensorSampleSet samples => Sys2Proof.Machine.execSensorSampleSet samples s
  | .comparatorTrip k code => Sys2Proof.Machine.execComparatorTrip k code s
  | .logAppend severity source code data => Sys2Proof.Machine.execLogAppend severity source code data s
  | .sectorErase => Sys2Proof.Machine.execSectorErase s
  | .lifeCycleTransition target sig => Sys2Proof.Machine.execLifeCycleTransition target sig s
  | .transitionNonce => Sys2Proof.Machine.execTransitionNonce s
  | .unlock sig => Sys2Proof.Machine.execUnlock sig s
  | .fenceRequest core => Sys2Proof.Machine.execFenceRequest core s
  | .keeperStreamPiece member m out flash sram addr len => Sys2Proof.Machine.execKeeperStreamPiece member m out flash sram addr len s
  | .kstrResume inp m => Sys2Proof.Machine.execKstrResume inp m s
  | .kstrAbort inp m => Sys2Proof.Machine.execKstrAbort inp m s
  | .acquire inp value => Sys2Proof.Machine.execAcquire inp value s
  | .leaseRelease inp value => Sys2Proof.Machine.execLeaseRelease inp value s
  | .adopt inp value => Sys2Proof.Machine.execAdopt inp value s
  | .nap inp core value => Sys2Proof.Machine.execNap inp core value s
  | .deep inp core value => Sys2Proof.Machine.execDeep inp core value s
  | .wake inp core value => Sys2Proof.Machine.execWake inp core value s
  | .entryComplete core => Sys2Proof.Machine.execEntryComplete core s
  | .coreWake core source => Sys2Proof.Machine.execCoreWake core source s
  | .timerWake core => Sys2Proof.Machine.execTimerWake core s
  | .wakeStepReady core => Sys2Proof.Machine.execWakeStepReady core s
  | .wakefail core => Sys2Proof.Machine.execWakefail core s
  | .arrayReady core => Sys2Proof.Machine.execArrayReady core s
  | .capWrite inp value => Sys2Proof.Machine.execCapWrite inp value s
  | .budgetWrite inp die value => Sys2Proof.Machine.execBudgetWrite inp die value s
  | .budgetTakesEffect die => Sys2Proof.Machine.execBudgetTakesEffect die s
  | .powerAverage watts => Sys2Proof.Machine.execPowerAverage watts s
  | .throttleTrip => Sys2Proof.Machine.execThrottleTrip s
  | .throttleStart => Sys2Proof.Machine.execThrottleStart s
  | .throttleEnd => Sys2Proof.Machine.execThrottleEnd s
  | .gladeResume => Sys2Proof.Machine.execGladeResume s
  | .thermalTrip core => Sys2Proof.Machine.execThermalTrip core s
  | .gate inp core => Sys2Proof.Machine.execGate inp core s
  | .fenceDeepEntry core => Sys2Proof.Machine.execFenceDeepEntry core s
  | .probe inp core => Sys2Proof.Machine.execProbe inp core s
  | .fenceReturn inp core => Sys2Proof.Machine.execFenceReturn inp core s
  | .returnComplete core => Sys2Proof.Machine.execReturnComplete core s
  | .rollback origin step => Sys2Proof.Machine.execRollback origin step s
  | .v48Good => Sys2Proof.Machine.execV48Good s
  | .inputLost => Sys2Proof.Machine.execInputLost s
  | .stageComplete found => Sys2Proof.Machine.execStageComplete found s
  | .stageTimeout cause => Sys2Proof.Machine.execStageTimeout cause s
  | .moduleReset inp => Sys2Proof.Machine.execModuleReset inp s
  | .coreReset inp core => Sys2Proof.Machine.execCoreReset inp core s
  | .canopyTrain link lanes => Sys2Proof.Machine.execCanopyTrain link lanes s
  | .repay glade => Sys2Proof.Machine.execRepay glade s
  | .comparatorClear k code => Sys2Proof.Machine.execComparatorClear k code s
  | .retrainingEnd dev => Sys2Proof.Machine.execRetrainingEnd dev s
  | .hpprComplete => Sys2Proof.Machine.execHpprComplete s
  | .snoop addr => Sys2Proof.Machine.execSnoop addr s
  | .serviceCompletion inp => Sys2Proof.Machine.execServiceCompletion inp s
  | .msiXUnmask vector => Sys2Proof.Machine.execMsiXUnmask vector s
  | .doeDiscovery box index => Sys2Proof.Machine.execDoeDiscovery box index s
  | .tableAccess handle => Sys2Proof.Machine.execTableAccess handle s
  | .getEventRecords opcode => Sys2Proof.Machine.execGetEventRecords opcode s
  | .setEndpointId eid => Sys2Proof.Machine.execSetEndpointId eid s
  | .pldmDiscovery cmd => Sys2Proof.Machine.execPldmDiscovery cmd s
  | .laneCodeBankSwitch link => Sys2Proof.Machine.execLaneCodeBankSwitch link s
  | .testPortInstruction ins => Sys2Proof.Machine.execTestPortInstruction ins s

end Sys2Proof.Machine
end

