-- ==== Sys2Proof/Machine/Step.lean ====
section
/-! DEFINITION.
One step of the module: the command at the front of the queue takes effect; with no command waiting, one ct
passes (DESIGN CHOICE, log entry 1). -/

namespace Sys2Proof.Machine

/-- The step. -/
def step (s : State) : Host.Outcome State Fault Refusal :=
  match s.pending with
  | [] => .next (s.toCt (s.ct + 1))
  | c :: rest => exec c { s with pending := rest }

/-- `s` with the command that a word spells put at the front of its queue; `s` itself where it spells none. -/
def State.withFetchWord (s : State) (nbits w : Nat) : State :=
  match decodeTableWord nbits w with
  | some c => { s with pending := c :: s.pending }
  | none => s

end Sys2Proof.Machine
end

