-- ==== Sys2Proof/Safety.lean ====
section
/-! DEFINITION.
What a safe run keeps: the canonical form of the memories (keys strictly rising, no listed byte equal to what an unlisted
one reads as), and a step that goes on. -/

namespace Sys2Proof.Machine

/-- The canonical form of a memory whose unlisted bytes read as `d`. -/
def Memory.wf (d : Byte) (m : Tab Byte) : Bool := Tab.wf d m

/-- The canonical form of every memory of the module: the Comb and the Cellar, unlisted bytes zero (R570), and the flash, unlisted
bytes erased. -/
def State.memoryWf (s : State) : Bool := Memory.wf 0 s.comb && Memory.wf 0 s.cellar && Memory.wf 0xFF s.nv.flash

/-- A step that goes on. -/
def Out.goesOn : Out → Bool
  | .next _ => true
  | .fault _ => false
  | .refused _ => false

/-- Context `n` of core `i` is about to issue, in the present cycle, a bundle of one slot with header `hdr`: it runs, its line
is present, no slot waits with it, its registers are written, and the header is legal (03 R70–R73, R80, 10 R310, 12 R365). -/
def State.readyFor (s : State) (i n : Nat) (hdr : W16) : Bool :=
  let x := s.ctx i n
  s.canIssue i n && x.gather.isEmpty && x.gone.isEmpty && decide ((s.core i).nextIssue ≤ s.cycOf i) &&
  x.late.all (fun p => decide (p.2 ≤ s.cycOf i)) && !(bit hdr 13) &&
  (!(bit hdr 14) || (!x.fresh && x.timed && bits hdr 12 10 == 0)) &&
  (bits hdr 12 10 == 0 || (x.getTag (bits hdr 12 10)).st == 1) &&
  (tokensOf hdr == 0 || (!((s.core i).budgetWaits (s.cycOf i)) && s.charges_ i (tokensOf hdr)))

/-- The state after the one slot of a bundle has taken effect: the issue begins, the slot's effect, the issue ends. -/
def State.issued (s : State) (i n : Nat) (hdr : W16) (jump : Option (W32 × Nat)) (eff : State → State) : State :=
  (eff (s.bundleBegin i n hdr)).bundleEnd i n hdr (s.cycOf i) (s.ctx i n).pc jump

/-- The first cycle of core `i` whose edge falls at or after canopy time `target`, and the state in it (R40, R45). -/
def State.targetCyc (s : State) (i target : Nat) : Nat :=
  let u := s.toCt target
  if target ≤ u.edgeCt i then u.cycOf i else u.cycOf i + 1
def State.atTarget (s : State) (i target : Nat) : State := (s.toCt target).toCyc i (s.targetCyc i target)

/-! ### Slot instructions, on a core and on an Adsiem-S processor -/

/-- imm18, sign-extended to 64 bits (R78). -/
def imm18 (op : W32) : W64 := (BitVec.ofNat 18 (bits op 17 0)).signExtend 64

/-- An instruction of slot `sl`, given in a bundle of its own that may issue, under `pre`: the bundle issues with the branch
`jump` and the effect `eff`. -/
def CoreSlot (c : Iss → W32 → Instr) (sl : Slot) (pre : State → Nat → Nat → W16 → W32 → Bool)
    (jump : State → Nat → Nat → W32 → Option (W32 × Nat)) (eff : State → Nat → Nat → W16 → W32 → State → State) : Prop :=
  ∀ (s : State) (i : CoreIx) (n : CtxIx) (hdr : W16) (op : W32),
    s.readyFor i n hdr = true → pre s i n hdr op = true →
    exec (c (.slot i n sl hdr false) op) s = .next (s.issued i n hdr (jump s i n op) (eff s i n hdr op))

/-- The bundle's tag is 0: its header's SPEC field (R71). -/
def untagged (hdr : W16) : Bool := bits hdr 12 10 == 0

/-- An instruction of slots S0 and S1 that issues in a bundle of its own takes the effect `eff`. -/
def CoreScalar (c : Iss → W32 → Instr) (legal : W32 → Bool) (eff : State → Nat → Nat → W32 → State → State) : Prop :=
  ∀ (s : State) (i : CoreIx) (n : CtxIx) (sl : Slot) (hdr : W16) (op : W32),
    s.readyFor i n hdr = true → sl = .s0 ∨ sl = .s1 → legal op = true →
    exec (c (.slot i n sl hdr false) op) s = .next (s.issued i n hdr none (eff s i n op))

/-- An instruction that a running processor fetches issues once the registers it names are written, where no interrupt is
taken before it (R534), and takes the effect `eff`. -/
def ProcScalar (c : Iss → W32 → Instr) (legal : W32 → Bool) (named : W32 → List Nat) (eff : Nat → W32 → State → State) : Prop :=
  ∀ (s : State) (p : ProcIx) (op : W32),
    (s.proc p).st = 1 → (s.proc p).load = none → (s.procIssue p (named op)).interrupts p = false → legal op = true →
    exec (c (.proc p) op) s =
      .next ((eff p op (s.procIssue p (named op))).procDone p (s.procIssue p (named op)).rootNow none)

/-- A slot instruction that raises no fault cause and does not stall. -/
def clears (m : Sem) (b : BC) : Bool := (m.judge b).isEmpty && (m.judgeV b).isEmpty && !(m.stall b)

/-- Form R: rd = f(src1, src2), readable after `lat` cycles (R78, R79, R80). -/
def RunsR (c : Iss → W32 → Instr) (f : W64 → W64 → W64) (lat : Nat) : Prop :=
  CoreScalar c (fun op => srcOk (fSrc1 op) && srcOk (fSrc2 op) && fSrc3 op == 0)
    (fun s i n op t => t.writeReg i n (fRd op) (f (srcVal (s.core i) n (fSrc1 op)) (srcVal (s.core i) n (fSrc2 op))) lat) ∧
  ProcScalar c (fun op => srcOkP (fSrc1 op) && srcOkP (fSrc2 op) && fSrc3 op == 0)
    (fun op => [fSrc1 op, fSrc2 op].filter (· < 32) ++ [fRd op])
    (fun p op t => t.procWrite p (fRd op) lat (f ((t.proc p).a op) ((t.proc p).b op)))

/-- Form I: rd = f(src1, sext(imm18)) (R78, R79). -/
def RunsI (c : Iss → W32 → Instr) (f : W64 → W64 → W64) (lat : Nat) : Prop :=
  CoreScalar c (fun op => srcOk (fSrc1 op))
    (fun s i n op t => t.writeReg i n (fRd op) (f (srcVal (s.core i) n (fSrc1 op)) (imm18 op)) lat) ∧
  ProcScalar c (fun op => srcOkP (fSrc1 op)) (fun op => [fSrc1 op].filter (· < 32) ++ [fRd op])
    (fun p op t => t.procWrite p (fRd op) lat (f ((t.proc p).a op) (imm18 op)))

/-- Form L with a zero immediate: rd = what the context reads. -/
def ReadsCore (c : Iss → W32 → Instr) (v : State → Nat → Nat → W64) : Prop :=
  CoreScalar c (fun op => bits op 26 0 == 0) (fun s i n op t => t.writeReg i n (fRd op) (v s i n) 1)

/-- The same on a processor. -/
def ReadsProc (c : Iss → W32 → Instr) (v : State → Nat → W64) : Prop :=
  ProcScalar c (fun op => bits op 26 0 == 0) (fun op => [fRd op]) (fun p op t => t.procWrite p (fRd op) 1 (v t p))

/-- The command of vector function `f`: the operation that streams performs the function to its last stream cycle; where none of the
function streams, nothing comes of it (R206, R210, R211). -/
def RunsVector (c : CoreIx → Instr) (f : Nat) : Prop :=
  ∀ (s : State) (i : CoreIx), exec (c i) s = .next (match (s.core i).svu with
    | some o => if o.func = f then s.toCyc i (o.issued + 1 + o.cycles + o.holds + 1) else s
    | none => s)

end Sys2Proof.Machine
end

