-- ==== Sys2Proof/Certificates/Slice0/Obligations.lean ====
section
/-! DEFINITION.
The statements about the machine, for the provers. -/

open Sys2Proof Sys2Proof.Machine

/-- With command c at the front of the queue, step is exec of c on the state with the rest of the queue; with no command waiting,
step answers the state one unit of canopy time later (the model's choice, log entry 1). A 40-bit slot word picks its
instruction by its slot and bits [39:32], with its operands in bits [31:0]; NOP, opcode 0, in every slot.
(01_module_and_dataflow.md, 95_what_each_step_holds.md, 03_adsiem_bundles.md R74, 03_adsiem_bundles.md R76) -/
def Obligations.StepRunsFrontCommand : Prop :=
  (∀ (s : State) (c : Instr) (rest : List Instr), s.pending = c :: rest → step s = exec c { s with pending := rest }) ∧
  (∀ s : State, s.pending = [] → step s = .next (s.toCt (s.ct + 1))) ∧
  (∀ (i : CoreIx) (n : CtxIx) (hdr : W16) (more : Bool) (p : ProcIx),
     decodeSlot (.slot i n .s0 hdr more) 0x101C440005 = some (.sAddi (.slot i n .s0 hdr more) 0x1C440005) ∧
     decodeSlot (.slot i n .s0 hdr more) 0x7018000000 = some (.taskStart (.slot i n .s0 hdr more) 0x18000000) ∧
     decodeSlot (.slot i n .s1 hdr more) 0x4000000001 = none ∧
     decodeSlot (.slot i n .m hdr more) 0x0300000007 = some (.mPass (.slot i n .m hdr more) 7) ∧
     decodeSlot (.slot i n .v hdr more) 0x0300000007 = some (.vExt (.slot i n .v hdr more) 7) ∧
     decodeSlot (.slot i n .v hdr more) 0x0800000007 = some (.epRun (.slot i n .v hdr more) 7) ∧
     decodeSlot (.slot i n .f hdr more) 0x0300000007 = some (.fTake (.slot i n .f hdr more) 7) ∧
     decodeSlot (.slot i n .x hdr more) 0x5280000000 = some (.get (.slot i n .x hdr more) 0x80000000) ∧
     decodeSlot (.proc p) 0x8B00000000 = some (.sEret (.proc p) 0) ∧
     decodeSlot (.proc p) 0x2500000000 = none) ∧
  (∀ (i : CoreIx) (n : CtxIx) (sl : Slot) (hdr : W16) (more : Bool) (op : BitVec 32),
     decodeSlot (.slot i n sl hdr more) (op.setWidth 40) = some (.nop (.slot i n sl hdr more) op))

/-- The state in which a bundle whose one slot writes scalar register rd has issued (the next state of every form of the
statements ScalarRegisterForms, ScalarImmediateForms and ScalarStateReads): rd holds the value; every other scalar register of
the context, its comparators, tags, loop records, mode and flags are as before, and its c registers but for the count of a
loop whose body ends at this bundle; every other context and every other core is as before; on the core only the contexts, the
instruction cache with its fills, the next issue cycle and the counter CRDREQ of its fills may differ; of the module only the
core, the tokens charged and, where that counter saturates, the register of its event source differ: every byte of the Comb,
of the Cellar and of the flash, and time, stay. (03_adsiem_bundles.md R77, 03_adsiem_bundles.md R78, 03_adsiem_bundles.md R83,
03_adsiem_bundles.md R84, 12_schedule_contract.md R365) -/
def Obligations.ScalarInstructionFrame : Prop :=
  (∀ (s : State) (i : CoreIx) (n : CtxIx) (hdr : W16) (jump : Option (W32 × Nat)) (rd : Nat) (v : W64) (lat : Nat),
     let t := s.issued i n hdr jump (fun u => u.writeReg i n rd v lat)
     (t.ctx i n).sreg rd = v ∧ (∀ r : Nat, r ≠ rd → (t.ctx i n).sreg r = (s.ctx i n).sreg r) ∧
     (∀ m : Nat, m ≠ n.val → t.ctx i m = s.ctx i m) ∧ (∀ j : Nat, j ≠ i.val → t.core j = s.core j)) ∧
  (∀ (s : State) (i : CoreIx) (n : CtxIx) (hdr : W16) (jump : Option (W32 × Nat)) (rd : Nat) (v : W64) (lat : Nat),
     let t := s.issued i n hdr jump (fun u => u.writeReg i n rd v lat)
     (t.ctx i n).cmp = (s.ctx i n).cmp ∧ (t.ctx i n).tags = (s.ctx i n).tags ∧ (t.ctx i n).loops = (s.ctx i n).loops ∧
     (t.ctx i n).mode = (s.ctx i n).mode ∧ (t.ctx i n).faulted = (s.ctx i n).faulted ∧ (t.ctx i n).arrived = (s.ctx i n).arrived ∧
     ((t.ctx i n).c = (s.ctx i n).c ∨ ∃ j, (s.ctx i n).loopAt (s.ctx i n).pc = some j ∧ (∀ r : Nat, r ≠ j → (t.ctx i n).creg r = (s.ctx i n).creg r) ∧
     (t.ctx i n).creg j = (if (s.ctx i n).creg j = 1 then 0 else (s.ctx i n).creg j - 1))) ∧
  (∀ (s : State) (i : CoreIx) (n : CtxIx) (hdr : W16) (jump : Option (W32 × Nat)) (rd : Nat) (v : W64) (lat : Nat),
     let t := s.issued i n hdr jump (fun u => u.writeReg i n rd v lat)
     (∃ rg cx ic st fl ni, t.core i = { s.core i with regs := rg, ctx := cx, icache := ic, stamp := st, fills := fl, nextIssue := ni }) ∧
     (∀ off : Nat, off ≠ 0x710 → (t.core i).reg off = (s.core i).reg off) ∧
     (∃ cs ch rg mk, t = { s with cores := cs, charges := ch, regs := rg, marks := mk }) ∧
     (∀ off : Nat, off ≠ blkEVC (dieOf i) + 0x1000 + 8 * (8 * posOf i + 7) → t.reg off = s.reg off))

/-- After a whole-row write of program-visible row r of slice i, the physical row that the slice's map gives for r holds the value
written, and every byte of the Comb outside that row's 512 bytes, the whole Cellar and the flash are as before; a checked read
of a row leaves every byte of the Comb, the Cellar and the flash as before, and of a row without an error it delivers the bits
held. (08_comb.md R231, 08_comb.md R232, 08_comb.md R234) -/
def Obligations.CombRowWrites : Prop :=
  (∀ (s : State) (i r : Nat) (v : Row), (s.writeComb i r v).physRow i ((s.core i).phys r) = v) ∧
  (∀ (s : State) (i r : Nat) (v : Row) (a : Nat), a < combAddr i ((s.core i).phys r) ∨ combAddr i ((s.core i).phys r) + 512 ≤ a →
     Tab.get 0 (s.writeComb i r v).comb a = Tab.get 0 s.comb a) ∧
  (∀ (s : State) (i r : Nat) (v : Row), (s.writeComb i r v).cellar = s.cellar ∧ (s.writeComb i r v).nv = s.nv) ∧
  (∀ (s : State) (i r : Nat), (s.readComb i r).1.comb = s.comb ∧ (s.readComb i r).1.cellar = s.cellar ∧ (s.readComb i r).1.nv = s.nv) ∧
  (∀ (s : State) (i r : Nat), (s.core i).badWords ((s.core i).phys r) = [] → s.readComb i r = (s, some (readRow s.comb (combAddr i ((s.core i).phys r)))))

/-- At reset no command waits, the Comb and the Cellar list no byte (every byte reads zero), every memory is in its canonical
form; every core has no task in any context, all registers zero but for the slice's scrub control (EN 1, INTERVAL 11,900) and
the fence state of a position that is no active one, and is in Run where active (which positions are active, and the identity
core map, are the model's choice, log entry 4); MOD.ID names part 0008 stepping A1, MOD.BOOT is at stage 1, the die budgets
are 184,320 tokens, the fuse counter F is 0, and no context, transfer, message or bus access is in progress.
(01_module_and_dataflow.md R30, 08_comb.md R271, 14_glades_canopy_time.md R428, 20_keeper.md R570, 21_power.md R593,
23_bring_up_first_use.md R622) -/
def Obligations.ResetState : Prop :=
  (State.reset.pending = [] ∧ State.reset.comb = [] ∧ State.reset.cellar = [] ∧ State.reset.memoryWf = true ∧ State.reset.nv.f = 0 ∧
     State.reset.ct = 0 ∧ State.reset.flights = [] ∧ State.reset.ctls = [] ∧ State.reset.out = []) ∧
  (∀ (i : CoreIx) (n : CtxIx), State.reset.ctx i n = {} ∧ ((State.reset.ctx i n).mode = .noTask)) ∧
  (∀ (i : CoreIx) (off : Nat), off ≠ 0x8048 → off ≠ 0x0B28 → (State.reset.core i).reg off = 0) ∧
  (∀ i : CoreIx, (State.reset.core i).reg 0x8048 = BitVec.ofNat 64 (2 ^ 31 + 11900)) ∧
  (∀ i : CoreIx, fuseOf i = .active → (State.reset.core i).power = .run ∧ (State.reset.core i).reg 0x0B28 = 0) ∧
  (State.reset.reg 0 = 0x000800A1 ∧ State.reset.reg 0x28 = 1 ∧ State.reset.reg blkPWR = 64 ∧ (∀ d : Fin 4, State.reset.budget d = 184320))

/-- For every state s and every step from s that goes on to t: where the Comb, the Cellar and the flash of s are in canonical
form, those of t are; where F is at most 64 in s, it is at most 64 in t and no lower than in s; where the life cycle state is
Retired it stays Retired; and the commands that wait in t are those of s without the first. (The canonical form and the queue
are the model's own; F never decreases by R562, and Retired cannot be left by R568.) (08_comb.md, 17_cellar.md, 20_keeper.md
R562, 20_keeper.md R568, 20_keeper.md R570, 95_what_each_step_holds.md) -/
def Obligations.StepInvariant : Prop :=
  (∀ s t : State, step s = .next t → s.memoryWf = true → t.memoryWf = true) ∧
  (∀ s t : State, step s = .next t → s.nv.f ≤ 64 → t.nv.f ≤ 64 ∧ s.nv.f ≤ t.nv.f) ∧
  (∀ s t : State, step s = .next t → s.nv.lc = 4 → t.nv.lc = 4) ∧
  (∀ s t : State, step s = .next t → t.pending = s.pending.tail)

/-- In every step that goes on, F of at most 64 stays at most 64 and never decreases; where a component's image with ADVANCE 1 and
an SVN above F completes activation, F becomes that SVN; without ADVANCE, or with an SVN not above F, F stays; at F = 64 an
image with ADVANCE 1 leaves F at 64 and appends the log event ROLLBACK_LIMIT (4), after the directory has taken the
component's new copy; and at F = 64 an image with SVN 64 is valid exactly where its signature and digest are. (20_keeper.md
R562) -/
def Obligations.FuseCounter : Prop :=
  (∀ s t : State, step s = .next t → s.nv.f ≤ 64 → t.nv.f ≤ 64 ∧ s.nv.f ≤ t.nv.f) ∧
  (∀ (s : State) (c : Nat), slotByte (s.newSlot c) 7 % 2 = 1 → s.nv.f < slotByte (s.newSlot c) 6 → slotByte (s.newSlot c) 6 ≤ 64 →
     (s.markActive c).nv.f = slotByte (s.newSlot c) 6) ∧
  (∀ (s : State) (c : Nat), s.nv.f ≠ 64 → slotByte (s.newSlot c) 7 % 2 = 0 ∨ slotByte (s.newSlot c) 6 ≤ s.nv.f →
     (s.markActive c).nv.f = s.nv.f) ∧
  (∀ (s : State) (c : Nat), s.nv.f = 64 → slotByte (s.newSlot c) 7 % 2 = 1 →
     s.markActive c = ((s.runs c (s.newSlot c)).setNv (fun n => { n with dir := Tab.put n.dir (2 * c + s.spareHalf c) { active := true, seq := (Tab.get {} n.dir (2 * c + (1 - s.spareHalf c))).seq + 1 } })).log 1 2 4 ∧ (s.markActive c).nv.f = 64) ∧
  (∀ (s : State) (c : Nat), s.nv.f = 64 → slotByte (s.newSlot c) 6 = 64 → s.imageValid c = Config.imageSigned (s.newSlot c))

/-- CONTEXT_SWITCH, in the second switch cycle c after context r: the first context ready in that cycle in the order r+1, r+2,
r+3, r runs and issues from c+1, and with none ready the core gates, or, where a wait met in the sample's cycle or later makes
a context ready from t, wakes to sample in t + 2 (the model's reading, log entry 51); GATED_WAKE does the same in its sample
cycle, counted from the context that ran last; WAIT_AT_TARGET_REACHED goes to the first cycle whose edge falls at or after the
target: on a gated or idle core the context issues in it, or in the next where that cycle ends a switch after which the core
gates (log entry 51), and on a running core, or before a switch's sample, the context is ready from the next cycle; a context
that waits no more there (a loss of QUAL that reached its core before the target, at most 1,000 ct after the loss, has faulted
it, log entry 23) stays as it is; WAIT_CONDITION_MET makes a context whose condition holds at the start of cycle t ready, from
t+1 for a flag or a queue and from t where the last cycle freed what it waits for, and a wait on a flag with CLR clears the
flag in t+1, where no signal sets it in that cycle; a second wait of the same bundle follows the first (log entry 84).
(02_cores_contexts_scoreboard.md R37, 02_cores_contexts_scoreboard.md R40, 02_cores_contexts_scoreboard.md R42,
02_cores_contexts_scoreboard.md R44, 02_cores_contexts_scoreboard.md R45, 03_adsiem_bundles.md R90, 03_adsiem_bundles.md R94,
14_glades_canopy_time.md R427) -/
def Obligations.ContextScheduling : Prop :=
  (∀ (s : State) (i : CoreIx) (r c m : Nat), (s.core i).phase = .switching r c → [(r + 1) % 4, (r + 2) % 4, (r + 3) % 4, r % 4].find? (fun m => ((s.toCyc i c).core i).readyIn m c) = some m →
     exec (.contextSwitch i) s = .next ((s.toCyc i c).modCore i (fun k => { k.modCtx m (fun x => { x with mode := .running }) with phase := .running m, nextIssue := c + 1, lastRun := m }))) ∧
  (∀ (s : State) (i : CoreIx) (r c : Nat), (s.core i).phase = .switching r c → [(r + 1) % 4, (r + 2) % 4, (r + 3) % 4, r % 4].find? (fun m => ((s.toCyc i c).core i).readyIn m c) = none →
     [0, 1, 2, 3].filterMap ((s.toCyc i c).core i).readyFrom = [] →
     exec (.contextSwitch i) s = .next ((s.toCyc i c).modCore i (fun k => { k with phase := .gated, lastRun := r, nextIssue := c + 1 }))) ∧
  (∀ (s : State) (i : CoreIx) (r c t : Nat), (s.core i).phase = .switching r c → [(r + 1) % 4, (r + 2) % 4, (r + 3) % 4, r % 4].find? (fun m => ((s.toCyc i c).core i).readyIn m c) = none →
     [0, 1, 2, 3].filterMap ((s.toCyc i c).core i).readyFrom = [t] →
     exec (.contextSwitch i) s = .next ((s.toCyc i c).modCore i (fun k => { k with phase := .waking (t + 2), lastRun := r, nextIssue := c + 1 }))) ∧
  (∀ (s : State) (i : CoreIx) (c m : Nat), (s.core i).phase = .waking c → [(((s.toCyc i c).core i).lastRun + 1) % 4, (((s.toCyc i c).core i).lastRun + 2) % 4, (((s.toCyc i c).core i).lastRun + 3) % 4, ((s.toCyc i c).core i).lastRun % 4].find? (fun m => ((s.toCyc i c).core i).readyIn m c) = some m →
     exec (.gatedWake i) s = .next ((s.toCyc i c).modCore i (fun k => { k.modCtx m (fun x => { x with mode := .running }) with phase := .running m, nextIssue := c + 1, lastRun := m }))) ∧
  (∀ (s : State) (i : CoreIx) (c : Nat), (s.core i).phase = .waking c → [(((s.toCyc i c).core i).lastRun + 1) % 4, (((s.toCyc i c).core i).lastRun + 2) % 4, (((s.toCyc i c).core i).lastRun + 3) % 4, ((s.toCyc i c).core i).lastRun % 4].find? (fun m => ((s.toCyc i c).core i).readyIn m c) = none →
     [0, 1, 2, 3].filterMap ((s.toCyc i c).core i).readyFrom = [] →
     exec (.gatedWake i) s = .next ((s.toCyc i c).modCore i (fun k => { k with phase := .gated, lastRun := k.lastRun, nextIssue := c + 1 }))) ∧
  (∀ (s : State) (i : CoreIx) (n : CtxIx) (target : Nat), (s.ctx i n).mode = .waiting (.at target) → ((s.atTarget i target).ctx i n).mode = .waiting (.at target) → ((s.atTarget i target).core i).power = .run → ((s.atTarget i target).core i).phase = .gated ∨ ((s.atTarget i target).core i).phase = .idle →
     exec (.waitAtTargetReached i n) s = .next ((s.atTarget i target).modCore i (fun k => { k.modCtx n (fun x => { x with mode := .running }) with phase := .running n, nextIssue := Nat.max (s.targetCyc i target) k.nextIssue, lastRun := n }))) ∧
  (∀ (s : State) (i : CoreIx) (n : CtxIx) (target : Nat), (s.ctx i n).mode = .waiting (.at target) → ((s.atTarget i target).ctx i n).mode ≠ .waiting (.at target) →
     exec (.waitAtTargetReached i n) s = .next (s.atTarget i target)) ∧
  (∀ (s : State) (i : CoreIx) (n : CtxIx) (target r x : Nat), (s.ctx i n).mode = .waiting (.at target) → ((s.atTarget i target).ctx i n).mode = .waiting (.at target) → ((s.atTarget i target).core i).power = .run → ((s.atTarget i target).core i).phase = .switching r x → x ≤ s.targetCyc i target →
     [(r + 1) % 4, (r + 2) % 4, (r + 3) % 4, r % 4].find? (fun m => ((s.atTarget i target).core i).readyIn m x) = none →
     [0, 1, 2, 3].filterMap ((s.atTarget i target).core i).readyFrom = [] →
     exec (.waitAtTargetReached i n) s = .next ((s.atTarget i target).modCore i (fun k => { k.modCtx n (fun x => { x with mode := .running }) with phase := .running n, nextIssue := Nat.max (s.targetCyc i target) (x + 1), lastRun := n }))) ∧
  (∀ (s : State) (i : CoreIx) (n : CtxIx) (target r : Nat), (s.ctx i n).mode = .waiting (.at target) → ((s.atTarget i target).ctx i n).mode = .waiting (.at target) → ((s.atTarget i target).core i).phase = .running r ∨ (∃ c, ((s.atTarget i target).core i).phase = .switching r c ∧ s.targetCyc i target < c) →
     exec (.waitAtTargetReached i n) s = .next ((s.atTarget i target).makeReady i n (s.targetCyc i target))) ∧
  (∀ (s : State) (i : CoreIx) (n : CtxIx) (target : Nat), (s.ctx i n).mode = .waiting (.at target) → (s.ctx i n).after = none → s.tu.qualNo ≠ 0 → s.flag rTstat 3 = false → s.tu.qualAt + 1000 < target → s.tu.qualAt + 1000 ≤ s.edgeCt i → (∀ m : CtxIx, m ≠ n → (s.ctx i m).mode = .noTask) →
     lossCycle s i = s.faultAsync i n fTIMEUNQ 6) ∧
  (∀ (s : State) (i : CoreIx) (n : CtxIx) (w : Wait), (s.ctx i n).mode = .waiting w → (s.core i).waitMet n (s.cycOf i) w = true →
     exec (.waitConditionMet i n) s = .next (let t := s.cycOf i; match w with | .flag true f => ((s.makeReady i n t).toCyc i (t + 1)).modCore i (fun k => k.takeFlag f (t + 1)) | .region .. => s.makeReady i n (t - 1) | .confirm .. => s.makeReady i n (t - 1) | _ => s.makeReady i n t)) ∧
  (∀ (s : State) (i n t : Nat), (s.ctx i n).after = none → s.makeReady i n t = s.modCore i (fun k =>
     let k1 := k.modCtx n (fun x => { x with mode := .ready (t + 1), after := none })
     if k.power = .run ∧ (k.phase = .gated ∨ k.phase = .idle) then { k1 with phase := .waking (t + 3) } else k1)) ∧
  (∀ (s : State) (i n t : Nat) (w : Wait), (s.ctx i n).after = some w → (∀ target, w ≠ .at target) → s.makeReady i n t = s.modCtx i n (fun x => { x with mode := .waiting w, after := none }))

/-- A GO command given while context n waits at REPLAY.WAIT, on a core that is not powered off: the replay counter advances by one
modulo 2^32, the context becomes ready, no longer at the gate so that parameter writes close, and a counter that advances from
0xFFFF_FFFF sets WRAP and raises REPLAY_WRAP (source 8c+4 of its die). GO given while the context does not wait there, on a
core that is not powered off, changes nothing but GO_REFUSED, which it sets. (02_cores_contexts_scoreboard.md R49,
02_cores_contexts_scoreboard.md R52) -/
def Obligations.ReplayGate : Prop :=
  (∀ (s : State) (inp : Inp) (i : CoreIx) (n : CtxIx), (s.core i).off = false → (s.ctx i n).mode = .waiting .replay →
     exec (.go inp i n) s = .next (let s0 := s.wakeSource i 4; let v := (s0.core i).fld (offReplay n) 31 0;
        let r := ((s0.modCore i (fun k => k.setReg (offReplay n) (BitVec.ofNat 64 ((v + 1) % 2 ^ 32)))).modCtx i n (fun x => { x with arrived := false })).makeReady i n (s.cycOf i); if v + 1 = 2 ^ 32 then (r.coreEvent i (offStat n) 8).raiseCore i 4 else r)) ∧
  (∀ (s : State) (inp : Inp) (i : CoreIx) (n : CtxIx), (s.core i).off = false → (s.ctx i n).mode ≠ .waiting .replay →
     exec (.go inp i n) s = .next (s.coreEvent i (offStat n) 10))

/-- START to a context that holds no task, after bring-up on a running core that is not in its reset, begins the opening clear of
a task at its entry and leaves 256 cycles of it, its tiles no longer listed for the tile clear; to one that holds a task it
sets only CMD_REFUSED. END to a context that runs, waits or is ready stops it for the closing clear, and to a context with no
task does nothing. A parameter write is stored where the context holds no task or waits at REPLAY.WAIT, and sets only
PARAM_REFUSED elsewhere; on a powered-off core it sets only the refusal bit of the power state register.
(02_cores_contexts_scoreboard.md R47, 02_cores_contexts_scoreboard.md R53, 02_cores_contexts_scoreboard.md R54, 21_power.md
R576) -/
def Obligations.TaskCommands : Prop :=
  (∀ (s : State) (inp : Inp) (i : CoreIx) (n : CtxIx) (e : W32), s.bootReady = true → s.lcOpen = true → (s.core i).power = .run → (s.ctx i n).mode = .noTask → (s.core i).resetEnd ≤ s.ct →
     exec (.start inp i n e) s = .next (s.modCore i (fun k => (((k.zeroCtx n).closeQueues n false).unlist n (s.cycOf i)).modCtx n (fun x => { x with mode := .opening (s.cycOf i + 256) false, pc := e, fresh := true, faulted := false })))) ∧
  (∀ (s : State) (inp : Inp) (i : CoreIx) (n : CtxIx) (e : W32), s.bootReady = true → s.lcOpen = true → (s.core i).power = .run → (s.core i).holdsTask n = true →
     exec (.start inp i n e) s = .next (s.coreEvent i (offStat n) 11)) ∧
  (∀ (s : State) (inp : Inp) (i : CoreIx) (n : CtxIx), (s.core i).off = false → (s.ctx i n).mode = .running ∨ (∃ w, (s.ctx i n).mode = .waiting w) ∨ (∃ c, (s.ctx i n).mode = .ready c) →
     exec (.endCmd inp i n) s = .next (s.deschedule i n (s.cycOf i) (.ending true))) ∧
  (∀ (s : State) (inp : Inp) (i : CoreIx) (n : CtxIx), (s.ctx i n).mode = .noTask →
     exec (.endCmd inp i n) s = .next (s)) ∧
  (∀ (s : State) (inp : Inp) (i : CoreIx) (n : CtxIx) (j : B8) (v : W64), (s.core i).off = false → (s.ctx i n).mode = .noTask ∨ (s.ctx i n).mode = .waiting .replay →
     exec (.paramWrite inp i n j v) s = .next (s.modCore i (fun k => k.setReg (0x1000 + n * 0x800 + 8 * j.toNat) v))) ∧
  (∀ (s : State) (inp : Inp) (i : CoreIx) (n : CtxIx) (j : B8) (v : W64), (s.core i).off = false → (s.ctx i n).mode ≠ .noTask → (s.ctx i n).mode ≠ .waiting .replay →
     exec (.paramWrite inp i n j v) s = .next (s.coreEvent i (offStat n) 9)) ∧
  (∀ (s : State) (inp : Inp) (i : CoreIx) (n : CtxIx) (j : B8) (v : W64), (s.core i).off = true →
     exec (.paramWrite inp i n j v) s = .next (s.event (rPwrStat i) 63))

/-- CONTEXT_CLEAR_BEGIN of a context past its task, on a core in Run, where an END ended it or its scoreboard entries and statuses
and its V.OPs are done, begins the clear: 256 cycles from the present one. CONTEXT_CLEAR_END of a closing clear, on a core in
Run, leaves the context with no task; of an opening one, on an idle or gated core, the context issues from that cycle, and
elsewhere it is ready; either starts or restarts the clear of the tiles it owns. BACKGROUND_TILE_CLEAR clears the lowest tile
to do 4 cycles after the clear came to it, where no rush has abandoned it; TILE_RUSH_COMPLETE clears the first rushed tile 8
cycles after its stall began or the rush before it ended. (02_cores_contexts_scoreboard.md R54,
02_cores_contexts_scoreboard.md R55, 02_cores_contexts_scoreboard.md R56, 02_cores_contexts_scoreboard.md R57,
02_cores_contexts_scoreboard.md R58, 02_cores_contexts_scoreboard.md R59) -/
def Obligations.ContextClears : Prop :=
  (∀ (s : State) (i : CoreIx) (n : CtxIx) (ab : Bool), (s.ctx i n).mode = .ending ab → (s.core i).power = .run → ab = true ∨ ((s.core i).sb.all (fun e => e.ctx ≠ n) = true ∧ (s.core i).outstanding n = 0 ∧ ((s.core i).svuTail ++ (s.core i).svu.toList).all (fun o => o.ctx ≠ n) = true) →
     exec (.contextClearBegin i n) s = .next (s.beginClear i n)) ∧
  (∀ (s : State) (i n : Nat), s.beginClear i n = (s.modCore i (fun k =>
     let k1 := ((k.dropOps (fun m _ => m == n)).freeUnits n (s.cycOf i)).stopStreams n
     (((((k1.abandon n).orphan n).zeroCtx n).unlist n (s.cycOf i)).closeQueues n true).modCtx n (fun x => { x with mode := .closing (s.cycOf i + 256) }))).closeWindows i n) ∧
  (∀ (s : State) (i : CoreIx) (n : CtxIx) (u : Nat), (s.ctx i n).mode = .closing u → (s.core i).power = .run →
     exec (.contextClearEnd i n) s = .next ((s.toCyc i u).modCore i (fun k => (k.addClear (k.tilesOf n) u true).modCtx n (fun x => { x with mode := .noTask, faulted := false })))) ∧
  (∀ (s : State) (i : CoreIx) (n : CtxIx) (u : Nat), (s.ctx i n).mode = .opening u false → (s.core i).power = .run → ((s.toCyc i u).core i).phase = .gated ∨ ((s.toCyc i u).core i).phase = .idle →
     exec (.contextClearEnd i n) s = .next ((s.toCyc i u).modCore i (fun k => { (k.addClear (k.tilesOf n) u true).modCtx n (fun x => { x with mode := .running }) with phase := .running n, nextIssue := Nat.max u k.nextIssue, lastRun := n }))) ∧
  (∀ (s : State) (i : CoreIx) (a : Nat) (rest : List Nat), (s.core i).power = .run → (s.core i).clear.todo = a :: rest → (s.core i).clear.rush = [] →
     exec (.backgroundTileClear i) s = .next (let e := (s.core i).clear.from_ + 4; (s.toCyc i e).modCore i (fun k => { k.zeroTile a with clear := { todo := rest, from_ := e, rush := [] } }))) ∧
  (∀ (s : State) (i : CoreIx) (a b : Nat) (rest : List (Nat × Nat)), (s.core i).clear.rush = (a, b) :: rest →
     exec (.tileRushComplete i) s = .next (let e := Nat.max b (s.core i).clear.from_ + 8; (s.toCyc i e).modCore i (fun k => { k.zeroTile a with clear := { todo := (s.core i).clear.todo.filter (· ≠ a), from_ := e, rush := rest } })))

/-- ICACHE_MISS of the running context whose next line is absent, untimed and within the Cellar: ICMISS counts it, ICMISS_CT holds
the canopy time of the cycle's edge and ICMISS_AT the context and bundle, a fill starts unless one is running, and the context
waits for the line. ICACHE_FILL_COMPLETE of a line whose fill holds its request credit, on a core that is not muted and with
the row not held: 176 cycles or more after the request, once no refresh blocks its banks, the line is read, the fill leaves,
the line stands in the cache, and its waiters go on, a missing context no earlier than 180 cycles after its miss.
(02_cores_contexts_scoreboard.md R63, 02_cores_contexts_scoreboard.md R64, 12_schedule_contract.md R374) -/
def Obligations.CacheMissAndFill : Prop :=
  (∀ (s : State) (i : CoreIx) (n : CtxIx), (s.core i).phase = .running n → (s.ctx i n).mode = .running → (s.core i).present ((s.ctx i n).pc.toNat / 8) = false → (s.ctx i n).timed = false → (s.core i).nextIssue ≤ s.cycOf i → (s.core i).lineRow ((s.ctx i n).pc.toNat / 8) ≤ lastCellarRow →
     exec (.icacheMiss i n) s = .next (let line := (s.ctx i n).pc.toNat / 8;
        let u := (s.count48 i 0x10 1).modCore i (fun k => (k.setReg 0x18 (BitVec.ofNat 64 (s.edgeCt i))).setReg 0x20 (BitVec.ofNat 64 ((s.ctx i n).pc.toNat + n * 2 ^ 32 + (s.ctx i n).timed.toNat * 2 ^ 34))); let r := if (u.core i).filling line then u else u.startFill i line n false; r.deschedule i n (r.cycOf i) (.waiting (.miss line (r.cycOf i))))) ∧
  (∀ (s : State) (i : CoreIx) (line : Nat) (f : Fill), (s.core i).fills.find? (fun g => g.line == line) = some f → f.credit = true → s.mutes i = false →
     let v := s.toCyc i (f.since + 176)
     let row := (v.core i).lineRow line
     let q := (v.toCt (v.lineFree row (line % 2))).readLine row (line % 2)
     v.rowHeld row = false → q.2 = true →
     exec (.icacheFillComplete i line) s = .next (let u := q.1.modCore i (fun k => { k with fills := k.fills.filter (fun g => g.line ≠ line) }); let w := u.modCore i (fun k => k.fillLine line); (if f.lock || (u.core i).lockWaits line then w.lockLine i line else w).lineFilled i line)) ∧
  (∀ (s : State) (i n line since : Nat), (s.core i).lineWaiters line = [n] → (s.ctx i n).mode = .waiting (.miss line since) →
     s.lineFilled i line = (s.makeReady i n (s.cycOf i)).modCtx i n (fun x => { x with mode := .ready (Nat.max (s.cycOf i + 1) (since + 179)) }))

/-- PASS_ACCUMULATE_START passes the cycles up to t + 3 of the pending pass, or where a pass accumulates before it to max(t + 3, σ
of that pass + 1); in it the pending pass becomes the accumulating one. BLOCK_ACCUMULATE passes the cycles of the present
block of 32 steps. In each of them a pass with the rows of both queues at hand takes them and adds the block's products; a
missing row is a hold cycle, which counts, and a pass that holds sees a row in the second cycle after it entered; a row of a
tag it may not use ends it with SPEC_LEAK. PASS_RESUME passes a hold cycle. PASS_SWAP comes to σ = max(end of the pass, last
swap + 32b), where the live values move to the drain registers. PASS_DRAIN_COMPLETE comes to σ + 2 + 32b, with the last column
of the drain, which frees the entry, raises the flags and counts the pass; each cycle before it writes one column.
(04_matrix_arrays.md R106, 04_matrix_arrays.md R118, 04_matrix_arrays.md R121, 04_matrix_arrays.md R122, 04_matrix_arrays.md
R132, 04_matrix_arrays.md R136, 04_matrix_arrays.md R137) -/
def Obligations.MatrixPassEvents : Prop :=
  (∀ (s : State) (i : CoreIx) (b : ArrIx) (g : Gang) (p : Pass), (s.core i).gang b = some g → g.pend = some p →
     exec (.passAccumulateStart i b) s = .next (s.toCyc i (match g.acc with
     | some q => Nat.max (p.issued + 3) (Nat.max (q.first + stepCycles g.fmtA g.fmtB q.k + q.holds - 1) (match g.swap with | some x => x + 32 * (shapeRC g.shape).2 | none => 0) + 1)
     | none => p.issued + 3))) ∧
  (∀ (s : State) (i : CoreIx) (b : ArrIx) (g : Gang) (p : Pass), (s.core i).gang b = some g → g.acc = some p → p.done < stepCycles g.fmtA g.fmtB p.k →
     exec (.blockAccumulate i b) s = .next (s.toCyc i (Nat.max p.first (s.cycOf i) + (stepCycles g.fmtA g.fmtB 32 - p.done % stepCycles g.fmtA g.fmtB 32)))) ∧
  (∀ (s : State) (i : CoreIx) (b : ArrIx) (g : Gang) (p : Pass), (s.core i).gang b = some g → g.acc = some p → p.hold = true →
     exec (.passResume i b) s = .next (s.toCyc i (s.cycOf i + 1))) ∧
  (∀ (s : State) (i : CoreIx) (b : ArrIx) (g : Gang) (p : Pass), (s.core i).gang b = some g → g.acc = some p →
     exec (.passSwap i b) s = .next (s.toCyc i (Nat.max (p.first + stepCycles g.fmtA g.fmtB p.k + p.holds - 1) (match g.swap with | some x => x + 32 * (shapeRC g.shape).2 | none => 0) + 1))) ∧
  (∀ (s : State) (i : CoreIx) (b : ArrIx) (g : Gang) (d : Drain) (l : List Drain), (s.core i).gang b = some g → g.drn = d :: l →
     exec (.passDrainComplete i b) s = .next (s.toCyc i (d.swap + 2 + 32 * (shapeRC g.shape).2 + 1))) ∧
  (∀ (g : Gang) (p : Pass) (c : Nat), g.pend = some p → g.acc = none →
     g.start c = if p.issued + 3 ≤ c then { g with pend := none, acc := some { p with first := c } } else g) ∧
  (∀ (s : State) (i b c : Nat) (g : Gang) (p : Pass) (fa fb : Fmt), (s.core i).gang b = some g → (g.start c).acc = some p → fmtOf g.fmtA = some fa → fmtOf g.fmtB = some fb →
     p.done < stepCycles g.fmtA g.fmtB p.k → g.start c = g →
     let st := stepsIn g.fmtA g.fmtB p.done
     let d := stepsBy g.fmtA g.fmtB (p.done + 1)
     let dA := cycleNeed (32 * (shapeRC g.shape).1) fa p.k st.1 st.2 d
     let dB := cycleNeed (32 * (shapeRC g.shape).2) fb p.k st.1 st.2 d
     let s0 := s.modCore i (fun k => k.setGang b g)
     let lA := lookNeed (s0.core i) p.qa p.tag c p.popA p.hold dA
     let lB := lookNeed (s0.core i) p.qb p.tag c p.popB p.hold dB
     (∀ rA rB, lA = .here rA → lB = .here rB → passCycle s i b c = s0.modCore i (fun k => passStep k b g p fa fb dA dB rA rB)) ∧
     (lA ≠ .leak → lB ≠ .leak → lA = .lack ∨ lB = .lack → passCycle s i b c = (s0.count48 i 0x408 1).modCore i (fun k => k.setGang b { g with acc := some { p with hold := true, holds := p.holds + 1 } })) ∧
     (lA = .leak ∨ lB = .leak → passCycle s i b c = (s0.modCore i (fun k => (k.freeSb p.entry).setGang b { g with acc := none, live := [] })).faultAsync i g.ctx fSPECLEAK 3)) ∧
  (∀ (k : Core) (b : Nat) (g : Gang) (p : Pass) (fa fb : Fmt) (dA dB : CycleNeed) (rA rB : List QRow),
     let n := 32 * (shapeRC g.shape).1
     let m := 32 * (shapeRC g.shape).2
     let blk := (stepsIn g.fmtA g.fmtB p.done).1 / 32
     let a := capture dA p.popA (stepRows n fa (32 * blk)).1 p.stA p.scA rA
     let c := capture dB p.popB (stepRows m fb (32 * blk)).1 p.stB p.scB rB
     (32 * (blk + 1) ≤ stepsBy g.fmtA g.fmtB (p.done + 1) →
     let r := gangBlock g p (blockNeed n g.fmtA (p.k / 32) blk) (blockNeed m g.fmtB (p.k / 32) blk) a.1 c.1 a.2 c.2
     passStep k b g p fa fb dA dB rA rB = ((k.useRows p.qa (dA.upTo - p.popA)).useRows p.qb (dB.upTo - p.popB)).setGang b { g with live := r.1, acc := some { p with done := p.done + 1, hold := false, stA := [], stB := [], scA := a.2, scB := c.2, popA := dA.upTo, popB := dB.upTo, flags := p.flags ||| r.2 } }) ∧
     (stepsBy g.fmtA g.fmtB (p.done + 1) < 32 * (blk + 1) →
     passStep k b g p fa fb dA dB rA rB = ((k.useRows p.qa (dA.upTo - p.popA)).useRows p.qb (dB.upTo - p.popB)).setGang b { g with acc := some { p with done := p.done + 1, hold := false, stA := a.1, stB := c.1, scA := a.2, scB := c.2, popA := dA.upTo, popB := dB.upTo } })) ∧
  (∀ (r : QRow) (c : Nat), (r.here false c = true ↔ r.at_ + 1 ≤ c) ∧ (r.here true c = true ↔ r.at_ + 2 ≤ c)) ∧
  (∀ (g : Gang) (p : Pass) (c : Nat), g.acc = some p →
     g.swapAt c = if stepCycles g.fmtA g.fmtB p.k ≤ p.done ∧ (match g.swap with | some x => x + 32 * (shapeRC g.shape).2 | none => 0) ≤ c
     then { g with acc := none, drn := g.drn ++ [⟨p, c, g.live⟩], live := [], swap := some c } else g) ∧
  (∀ (s : State) (i b c : Nat) (g : Gang) (d : Drain) (path : Path), (s.core i).gang b = some g → pairing g.fmtA g.fmtB = some path → d.swap + 3 ≤ c →
     let r := drainColumn (s.core i) g d path (c - d.swap - 3)
     drainCycle i b c s d = if c < d.swap + 2 + 32 * (shapeRC g.shape).2
     then s.setCore i (r.1.setGang b { g with drn := g.drn.map (fun x =>
        if x.swap = d.swap then { d with pass := { d.pass with flags := d.pass.flags ||| r.2 } } else x) })
     else ((s.setCore i ((r.1.freeSb d.pass.entry).setGang b { g with drn := g.drn.filter (fun x => x.swap ≠ d.swap) })).raiseFlags i g.ctx d.pass.tag (d.pass.flags ||| r.2)).count48 i 0x410 1) ∧
  (∀ (k : Core) (g : Gang) (d : Drain) (path : Path) (j : Nat) (i : Nat) (v : W32), i < 256 → j < 256 → d.cells.filter (fun e => e.1 % 256 == j) = [(256 * i + j, v)] →
     let t := d.pass.tiles.getD ((i / 32) * (shapeRC g.shape).2 + j / 32) 0
     let w := drainValue path g.sat d.pass.add (k.tileEl t (i % 32) (j % 32)) v
     drainColumn k g d path j = ((k.setTileEl t (i % 32) (j % 32) w.1).tagTiles ((List.range (shapeRC g.shape).1).map (fun x => d.pass.tiles.getD (x * (shapeRC g.shape).2 + j / 32) 0)) d.pass.tag, w.2))

/-- TILES_WRITE of a range that is free, inside the 512 tiles, of a context with no task and no tile left to clear, takes effect;
otherwise only REFUSED is set. TILE_MOVE_COMPLETE comes to the end of the move's last row, t + 8·NT + 3 for a load and t +
8·NT + 2 for a store. In between a load reads Comb row m in cycle t + 2 + m and writes it to four tile rows at the end of t +
4 + m, a store reads its tiles in t + 1 + m and writes Comb row m at the end of t + 3 + m; with the last row the entry and the
ports are free. MV_LDV_COMPLETE comes to cycle t + rows + holds: a row is consumed in every cycle from t + 1 on, a missing one
holds; with the last row the slots are loaded. MV_BLOCK_WRITE and MV_PASS_COMPLETE come to t + 5 + (q+1)·D·f; at its end block
q is written from the weight rows read before it, and with the last block the entry frees and the flags enter;
MVP_CLEAR_COMPLETE comes to the end of the clear. (05_accumulators_matvec.md R146, 05_accumulators_matvec.md R150,
05_accumulators_matvec.md R157, 05_accumulators_matvec.md R163, 05_accumulators_matvec.md R155, 05_accumulators_matvec.md
R169) -/
def Obligations.TileRangeAndMoveEvents : Prop :=
  (∀ (s : State) (inp : Inp) (i : CoreIx) (n : CtxIx) (v : W64),
     bit v 63 = false → bits ((s.core i).reg (offTiles n)) 32 0 ≠ bits v 32 32 * 2 ^ 32 + bits v 25 16 * 2 ^ 16 + bits v 8 0 →
     let k := s.core i
     let legal := (k.holdsTask n == false && (k.uncleared (k.tileRange n).1 (k.tileRange n).2).isEmpty &&
        decide (bits v 8 0 + bits v 25 16 ≤ 512) &&
     [0, 1, 2, 3].all (fun m => m == n.val || !overlap (bits v 8 0) (bits v 25 16) (k.tileRange m).1 (k.tileRange m).2))
     exec (.tilesWrite inp i n v) s = .next (
     if legal then s.modCore i (fun k => ((k.setFld (offTiles n) 8 0 (bits v 8 0)).setFld (offTiles n) 25 16 (bits v 25 16)).setFld (offTiles n) 32 32 (bits v 32 32))
     else s.coreEvent i (offTiles n) 63)) ∧
  (∀ (s : State) (i : CoreIx) (m : TileMove), (s.core i).move = some m →
     exec (.tileMoveComplete i) s = .next (s.toCyc i (m.issued + 8 * m.nt + (if m.ld then 3 else 2) + 1))) ∧
  (∀ (s : State) (i c : Nat) (m : TileMove), (s.core i).move = some m →
     (m.ld = true → m.issued + 2 ≤ c → c < m.issued + 2 + 8 * m.nt → ∀ s1 v, s.readLocal i m.ctx (m.row + (c - (m.issued + 2))) c 3 = (s1, some v) →
     moveRead s i c = s1.modCore i (fun k => { k with move := some { m with got := m.got ++ [v] } })) ∧
     (m.ld = true → m.issued + 2 ≤ c → c < m.issued + 2 + 8 * m.nt → ∀ s1, s.readLocal i m.ctx (m.row + (c - (m.issued + 2))) c 3 = (s1, none) →
     moveRead s i c = s1.modCore i (fun k => { (k.freeSb m.entry).freePort m.entry with move := none })) ∧
     (m.ld = false → m.issued + 1 ≤ c → c < m.issued + 1 + 8 * m.nt → let x := c - (m.issued + 1)
     moveRead s i c = s.modCore i (fun k => { k with move := some { m with got := m.got ++ [packRow 32 ((k.tileQuarter (m.tile + x / 8) (x % 8)).map (·.toNat))] } }))) ∧
  (∀ (s : State) (i c : Nat) (m : TileMove) (v : Row) (rest : List Row), (s.core i).move = some m → m.got = v :: rest →
     (m.ld = true → m.issued + 4 ≤ c → let x := c - (m.issued + 4)
     moveWrite s i c = (s.modCore i (fun k => (k.putQuarter (m.tile + x / 8) (x % 8) (rowWords v)).tagTiles [m.tile + x / 8] m.tag)).modCore i (fun k =>
     if x + 1 = 8 * m.nt then { (k.freeSb m.entry).freePort m.entry with move := none } else { k with move := some { m with got := rest } })) ∧
     (m.ld = false → m.issued + 3 ≤ c → let x := c - (m.issued + 3)
     moveWrite s i c = (s.writeOwn i m.ctx m.tag (m.row + x) v).modCore i (fun k =>
     if x + 1 = 8 * m.nt then { (k.freeSb m.entry).freePort m.entry with move := none } else { k with move := some { m with got := rest } }))) ∧
  (∀ (v : Mvp) (l : VLoad) (all : List Row) (j : Nat), Tab.get {} (v.loaded l all).slots j =
     if l.s ≤ j ∧ j < l.s + l.c then ⟨true, v.fmtV, v.k, l.tag⟩ else Tab.get {} v.slots j) ∧
  (∀ (s : State) (i : CoreIx) (l : VLoad), (s.core i).mvp.load = some l →
     exec (.mvLdvComplete i) s = .next (s.toCyc i (l.issued + vecSpan (s.core i).mvp.fmtV (s.core i).mvp.k * l.c + l.holds + 1))) ∧
  (∀ (s : State) (i c : Nat) (l : VLoad), (s.core i).mvp.load = some l → l.issued < c → l.got.length < vecSpan (s.core i).mvp.fmtV (s.core i).mvp.k * l.c →
     (∀ r, lookRows l.tag c l.hold 1 ((s.core i).free l.q) = .here [r] →
     loadCycle s i c = s.modCore i (fun k => { k.useRows l.q 1 with mvp := { k.mvp with load := some { l with got := l.got ++ [r.row], hold := false } } })) ∧
     (lookRows l.tag c l.hold 1 ((s.core i).free l.q) = .lack →
     loadCycle s i c = s.modCore i (fun k => { k with mvp := { k.mvp with load := some { l with holds := l.holds + 1, hold := true } } })) ∧
     (lookRows l.tag c l.hold 1 ((s.core i).free l.q) = .leak →
     loadCycle s i c = (s.modCore i (fun k => { k with mvp := { k.mvp with load := none } })).faultAsync i l.ctx fSPECLEAK 3)) ∧
  (∀ (k : Core) (l : VLoad), k.mvp.load = some l → loadEnd k = if vecSpan k.mvp.fmtV k.mvp.k * l.c ≤ l.got.length then { k with mvp := k.mvp.loaded l l.got } else k) ∧
  (∀ (s : State) (i : CoreIx) (p : VPass) (rest : List VPass), (s.core i).mvp.passes = p :: rest →
     let v := (s.core i).mvp
     exec (.mvBlockWrite i) s = .next (s.toCyc i (p.issued + 5 + (p.block + 1) * mvD v.fmtW v.k * mvF v.ports + 1)) ∧
     exec (.mvPassComplete i) s = .next (s.toCyc i (p.issued + 5 + p.nb * mvD v.fmtW v.k * mvF v.ports + 1))) ∧
  (∀ (s : State) (i c : Nat) (p : VPass), p.block < p.nb →
     let v := (s.core i).mvp
     let d := mvD v.fmtW v.k
     let r := mvBlockInto (s.core i) p (p.rows.take (2 * d))
     let q : VPass := { p with block := p.block + 1, flags := p.flags ||| r.2, rows := p.rows.drop (2 * d) }
     let s1 := s.setCore i { r.1 with mvp := r.1.mvp.setPass p.entry (some q) }
     (c = p.issued + 5 + (p.block + 1) * d * mvF v.ports → p.block + 1 < p.nb → passWrite i c s p = s1) ∧
     (c = p.issued + 5 + (p.block + 1) * d * mvF v.ports → p.nb ≤ p.block + 1 →
     passWrite i c s p = (s1.modCore i (fun k => { k.freeSb p.entry with mvp := k.mvp.setPass p.entry none })).raiseFlags i p.ctx p.tag (p.flags ||| r.2)) ∧
     (c ≠ p.issued + 5 + (p.block + 1) * d * mvF v.ports → passWrite i c s p = s)) ∧
  (∀ (s : State) (i c : Nat) (p : VPass) (s1 : State) (v : Row), (s.core i).mvp.passes.find? (fun x => x.entry == p.entry) = some p →
     p.issued + 2 ≤ c → c < p.issued + 2 + p.nb * mvD (s.core i).mvp.fmtW (s.core i).mvp.k * 2 → mvF (s.core i).mvp.ports = 2 →
     s.readLocal i p.ctx (p.wrow + (c - (p.issued + 2))) c 3 = (s1, some v) →
     passRead i c s p = s1.modCore i (fun k => { k with mvp := k.mvp.setPass p.entry (some { p with rows := p.rows ++ [v] }) })) ∧
  (∀ (s : State) (i : CoreIx) (e : Nat), (s.core i).mvp.clearEnd = some e →
     exec (.mvpClearComplete i) s = .next (s.toCyc i e)) ∧
  (∀ (s : State) (i c e : Nat), (s.core i).mvp.passes = [] → (s.core i).mvp.load = none → (s.core i).mvp.clearEnd = some e →
     ((mvpEnd s i c).core i).mvp.clearEnd = if e ≤ c + 1 then none else some e)

/-- For each of the eighteen V.OP functions: its command passes the cycles up to the last stream cycle, t + 1 + C + holds, of the
operation that streams, where that is an operation of the function. In each cycle of the stream the operation reads the
elements of its sources, or where a queue lacks a row holds, which counts. Each element-wise result is the exact value of the
function of its inputs (a + b, a - b, a b, a s + b, the larger, the smaller, |a|, -a, a s, a + s, 1 or 0 by the condition, a
or b by the condition with s, a), rounded once into the destination format. (07_vector_units.md R202, 07_vector_units.md R206,
07_vector_units.md R207, 07_vector_units.md R208, 07_vector_units.md R209, 07_vector_units.md R210, 07_vector_units.md R211) -/
def Obligations.VectorFunctions : Prop :=
  (RunsVector .vAdd 0) ∧
  (RunsVector .vSub 1) ∧
  (RunsVector .vMul 2) ∧
  (RunsVector .vFmas 3) ∧
  (RunsVector .vMax 4) ∧
  (RunsVector .vMin 5) ∧
  (RunsVector .vAbs 6) ∧
  (RunsVector .vNeg 7) ∧
  (RunsVector .vScl 8) ∧
  (RunsVector .vAdds 9) ∧
  (RunsVector .vCmp 10) ∧
  (RunsVector .vSel 11) ∧
  (RunsVector .vCvt 12) ∧
  (RunsVector .vRsum 13) ∧
  (RunsVector .vRmax 14) ∧
  (RunsVector .vRmin 15) ∧
  (RunsVector .vGath 16) ∧
  (RunsVector .vTrn 17) ∧
  (∀ (o : SvuOp) (l m : List Machine.Num) (ix : List Nat), let x := ofFp32 o.scalar
     (o.func = 0 → (o.results l m ix).map (·.2) = (List.zip l m).map (fun p => let a := p.1; let b := p.2; a.add b)) ∧
     (o.func = 1 → (o.results l m ix).map (·.2) = (List.zip l m).map (fun p => let a := p.1; let b := p.2; a.add b.negate)) ∧
     (o.func = 2 → (o.results l m ix).map (·.2) = (List.zip l m).map (fun p => let a := p.1; let b := p.2; a.mul b)) ∧
     (o.func = 3 → (o.results l m ix).map (·.2) = (List.zip l m).map (fun p => let a := p.1; let b := p.2; (a.mul x).add b)) ∧
     (o.func = 4 → (o.results l m ix).map (·.2) = (List.zip l m).map (fun p => let a := p.1; let b := p.2; a.max b)) ∧
     (o.func = 5 → (o.results l m ix).map (·.2) = (List.zip l m).map (fun p => let a := p.1; let b := p.2; a.min b)) ∧
     (o.func = 10 → (o.results l m ix).map (·.2) = (List.zip l m).map (fun p => let a := p.1; let b := p.2;
        if o.cond a b then .fin false 1 1 else .fin false 0 1)) ∧
     (o.func = 11 → (o.results l m ix).map (·.2) = (List.zip l m).map (fun p => let a := p.1; let b := p.2;
        if o.cond a x then a else b)) ∧
     (o.func = 6 → (o.results l m ix).map (·.2) = l.map (fun a => a.abs)) ∧
     (o.func = 7 → (o.results l m ix).map (·.2) = l.map (fun a => a.negate)) ∧
     (o.func = 8 → (o.results l m ix).map (·.2) = l.map (fun a => a.mul x)) ∧
     (o.func = 9 → (o.results l m ix).map (·.2) = l.map (fun a => a.add x)) ∧
     (o.func = 12 → (o.results l m ix).map (·.2) = l.map (fun a => a))) ∧
  (∀ (o : SvuOp) (x : Nat), o.func ≠ 16 → (o.encodeBy x).1 =
     (encodeStream o.fmtD o.gl (NC.ofField o.nc) o.seed ((o.results (o.valuesOf o.sa o.fmtA o.inA o.elA (o.performed x))
     (if o.usesB then o.valuesOf o.sb o.fmtB o.inB o.elB (o.performed x) else []) []).map (·.2))).1) ∧
  (∀ (s : State) (i c : Nat) (o : SvuOp), (s.core i).svu = some o → 2 ≤ o.age c →
     let x := o.age c - 2
     let look := (s.core i).lookTwo o.tag c o.hold o.sa (o.rowsA x - o.inA.length) o.sb (o.rowsB x - o.inB.length)
     (∀ rA rB, look = (.here rA, .here rB) → svuCycle s i c = s.modCore i (fun k => k.svuRead o x rA rB)) ∧
     (look.1 ≠ .leak → look.2 ≠ .leak → look.1 = .lack ∨ look.2 = .lack →
     svuCycle s i c = (s.count48 i 0x588 1).modCore i (fun k => { k with svu := some { o with holds := o.holds + 1, hold := true } })) ∧
     (look.1 = .leak ∨ look.2 = .leak → svuCycle s i c = (s.modCore i (fun k => { (match o.entry with | some e => (k.freeSb e).freePort e | none => k) with svu := none })).faultAsync i o.ctx fSPECLEAK 4)) ∧
  (∀ (k : Core) (o : SvuOp) (x : Nat) (rA rB : List QRow), isQueue o.sa = true → isQueue o.sb = true →
     k.svuRead o x rA rB = { (k.useRows o.sa rA.length).useRows o.sb rB.length with svu := some { o with inA := o.inA ++ rA.map (·.row), inB := o.inB ++ rB.map (·.row), hold := false, elA := [], elB := [] } })

/-- V_OP_COMPLETE comes to the end of the cycle t + 1 + C + Λ + holds of the oldest V.OP in progress, EP_RUN_COMPLETE to the end
of the last row of the oldest EP.RUN. At the end of each cycle an operation that does not hold writes the rows due in it; with
the last it frees its entry and its write port and raises its flags for its context, apart under a tag. (07_vector_units.md
R210, 07_vector_units.md R213, 07_vector_units.md R215, 07_vector_units.md R225, 06_number_formats.md R192,
06_number_formats.md R195) -/
def Obligations.VectorAndEpilogueCompletion : Prop :=
  (∀ (s : State) (i : CoreIx) (o : SvuOp) (l : List SvuOp), (s.core i).svuTail ++ (s.core i).svu.toList = o :: l →
     exec (.vOpComplete i) s = .next (s.toCyc i (o.issued + o.holds + (1 + o.cycles + o.latency) + 1))) ∧
  (∀ (s : State) (i : CoreIx) (o : EpOp) (l : List EpOp), (s.core i).epTail ++ (s.core i).ep.toList = o :: l →
     exec (.epRunComplete i) s = .next (s.toCyc i (o.issued + o.holds + (3 + o.batches + o.latency + o.trailing) + 1))) ∧
  (∀ (i c : Nat) (s : State) (o : SvuOp),
     (o.hold = false → o.age c = 1 + o.cycles + o.latency →
     svuEndOne i c s o = ((svuWrite i c s o).modCore i (fun k =>
     let k2 := match o.entry with | some e => ((k.trnOver o).freeSb e).freePort e | none => k.trnOver o
     { k2 with svuTail := k2.svuTail.filter (fun x => x.issued ≠ o.issued) })).raiseFlags i o.ctx o.tag o.flags) ∧
     (o.hold = true ∨ o.age c ≠ 1 + o.cycles + o.latency → svuEndOne i c s o = svuWrite i c s o)) ∧
  (∀ (i c : Nat) (s : State) (o : SvuOp), o.hold = false → o.age c ≠ 0 → o.dk = 0 →
     svuWrite i c s o = (o.writes c).foldl (fun s r => s.writeOwn i o.ctx o.tag (o.daddr + r) ((o.encodeBy (o.age c - 2)).1.getD r 0)) s) ∧
  (∀ (i c : Nat) (s : State) (o : EpOp),
     let s1 := (o.writes c).foldl (fun s r => s.writeOwn i o.ctx o.tag (o.drow + r) ((epCompute o (epResid o)).1.getD r 0)) s
     (o.hold = false → o.age c = 3 + o.batches + o.latency + o.trailing →
     epEndOne i c s o = (s1.modCore i (fun k => { (k.freeSb o.entry).freePort o.entry with epTail := k.epTail.filter (fun x => x.entry ≠ o.entry) })).raiseFlags i o.ctx o.tag (epCompute o (epResid o)).2) ∧
     (o.hold = true ∨ o.age c ≠ 3 + o.batches + o.latency + o.trailing → epEndOne i c s o = s1))

/-- REMOTE_ACCESS_ARRIVAL: a row that its last router lets through is presented in its cycle: a position that refuses it answers
status 8, else the port takes it where the buffer is empty and the port free, or it enters the four-place buffer, or is
refused BUSY. REMOTE_BUFFER_APPLY comes to the end of the next cycle in which the port is free, where the head of the buffer
is applied, or deferred by a local access in its bank, which counts. An access the port takes is refused by the conditions of
R252 or read, written or added. SEQUENCER_APPLY comes to the cycle in which a sequencer applies one row of the ready window;
that window's next row comes 4 cycles later at the earliest. (08_comb.md R241, 08_comb.md R243, 08_comb.md R245, 08_comb.md
R252, 08_comb.md R254, 11_understory_sync_waggle.md R337, 13_ordered_mode.md R385, 13_ordered_mode.md R387) -/
def Obligations.RemoteAccessesAtASlice : Prop :=
  (∀ (s s1 : State) (i : CoreIx) (id : Nat) (f0 : Flight) (a0 : Access),
     s.flights.find? (fun f => f.id == id) = some f0 → f0.cargo = .access a0 → f0.target = i.val →
     (∀ (f : Flight) (a : Access), s.landed i id = (s1, some f) → f.cargo = .access a →
     exec (.remoteAccessArrival i id) s = .next (let s2 := s1.dropFlight id; if s2.refuses i &&
        a.kind != .copy then s2.refusedRow i f f.due else s2.arrive i a (Nat.max f.due (s2.cycOf i)))) ∧
     (s.landed i id = (s1, none) → exec (.remoteAccessArrival i id) s = .next s1)) ∧
  (∀ (s : State) (i : CoreIx) (a : Access) (rest : List Access),
     (s.core i).rbuf = a :: rest → exec (.remoteBufferApply i) s = .next (s.toCyc i (Nat.max (s.cycOf i) (s.core i).rport + 1))) ∧
  (∀ (s : State) (i c : Nat) (a : Access) (rest : List Access), (s.core i).rbuf = a :: rest → (s.core i).rport ≤ c →
     ((s.usesBank i a c && (s.core i).bankBusy a.row c) = false →
     s.portHead i c = ((s.modCore i (fun k => k.takePort_ c (if s.usesBank i a c then some a.row else none))).takeAccess i a c).modCore i (fun k => { k with rbuf := rest })) ∧
     ((s.usesBank i a c && (s.core i).bankBusy a.row c) = true →
     s.portHead i c = (s.count48 i 0x8028 1).modCore i (fun k => k.takePort_ c none))) ∧
  (∀ (s : State) (i c : Nat) (a : Access), s.judge i a c ≠ 0 → a.kind ≠ .copy → s.takeAccess i a c = s.resolve i a (s.judge i a c) c) ∧
  (∀ (s : State) (i c m : Nat) (w : Win) (a : Access), s.judge i a c = 0 → (s.core i).winOf a.row c = some (m, w) →
     (a.kind = .read → s.takeAccess i a c = let q := s.readComb i a.row
     (if q.2.isNone then q.1.resolve i a 5 c else q.1.returnRow i a (q.2.getD 0) c)) ∧
     (a.kind = .add → w.ord = true → s.takeAccess i a c = s.admitOrdered i m a c) ∧
     (a.kind = .add → w.ord = false → s.takeAccess i a c = let q := s.readComb i a.row
     (if q.2.isNone then q.1.resolve i a 5 c else (q.1.writeComb i a.row (addRows w.afmt (q.2.getD 0) a.data)).resolve i a 0 c)) ∧
     (a.kind = .write → s.takeAccess i a c = (s.writeComb i a.row a.data).resolve i a 0 c)) ∧
  (∀ (s : State) (i : CoreIx), ((s.core i).wins.map (fun p => p.2.apply.length)).sum ≠ 0 →
     exec (.sequencerApply i) s = .next (s.await i (fun t => decide (((t.core i).wins.map (fun p => p.2.apply.length)).sum < ((s.core i).wins.map (fun p => p.2.apply.length)).sum)) bankFuel)) ∧
  (∀ (s : State) (i c n : Nat) (w : Win) (a : Access), (s.core i).rport ≤ c → (s.core i).readySeq c = some (n, w, a) →
     seqCycle s i c = (let s1 := s.modCore i (fun k => { k.takePort_ c (some a.row) with wins := Tab.put k.wins n { w with apply := w.apply.drop 1 }, seqNext := Tab.put k.seqNext n (c + 4) })
     let q := s1.readComb i a.row
     let s2 := if q.2.isNone then q.1.resolve i a 5 c else (q.1.writeComb i a.row (addRows w.afmt (q.2.getD 0) a.data)).resolve i a 0 c
     if a.endsTurn && a.src == w.turn then s2.passTurn i n else s2)) ∧
  (∀ (s : State) (i c : Nat) (a : Access), (s.core i).array = none →
     ((s.core i).rbuf = [] → (s.core i).rport ≤ c → s.usesBank i a c = false ∨ (s.core i).bankBusy a.row c = false →
     s.arrive i a c = (s.modCore i (fun k => k.takePort_ c (if s.usesBank i a c then some a.row else none))).takeAccess i a c) ∧
     (c < (s.core i).rport → (s.core i).rbuf.length < 4 → s.arrive i a c = s.modCore i (fun k => { k with rbuf := k.rbuf ++ [a] }))) ∧
  (∀ (s : State) (i c : Nat) (a : Access), (s.core i).array = none → c < (s.core i).rport → (s.core i).rbuf.length = 4 →
     s.arrive i a c = s.resolve i a 6 c)

/-- ROW_REWRITE comes to the cycle in which the first queued row is rewritten: an idle cycle of its bank, in which its correctable
errors are gone. SCRUB_STEP, while enabled and not suspended, begins the next step when it is due, an interval after the last
one, and comes to the idle cycle that reads the row under the walk, reports its errors and moves the walk on. REPAIR with GO
starts a repair, or sets REFUSED; its DONE moves the row to the lowest spare row of its bank. SHADOW_WRITE takes a legal area
while no context holds a task. COPY_GO starts the copy engine in a clearing; COPY_ROW comes to the cycle in which the next row
is read and sent; COPY_DONE reports the last one written. (08_comb.md R258, 08_comb.md R260, 08_comb.md R263, 08_comb.md R264,
08_comb.md R265, 08_comb.md R266, 08_comb.md R268, 08_comb.md R269) -/
def Obligations.RowCareOfASlice : Prop :=
  (∀ (s : State) (i : CoreIx) (p : Nat) (rest : List Nat), (s.core i).rewrites = p :: rest → (s.core i).array = none →
     exec (.rowRewrite i) s = .next (s.await i (fun t => (t.core i).rewrites.head? != some p) bankFuel)) ∧
  (∀ (s : State) (i : CoreIx), bit ((s.core i).reg 0x8048) 31 = true → (s.core i).repair = none → (s.core i).copy = none → (s.core i).array = none →
     let ivl := Nat.max 100 ((s.core i).fld 0x8048 19 0) * 10000
     let due := (s.core i).scrubAt + ivl
     let t := due + nextMultiple ivl (s.ct - due)
     exec (.scrubStep i) s = .next (((s.toCt t).modCore i (fun k => { k with scrubAt := t, scrubbing := some (k.fld 0x8050 15 0) })).await i (fun t => (t.core i).scrubbing.isNone) bankFuel)) ∧
  (∀ (s : State) (inp : Inp) (i : CoreIx) (v : W64),
     exec (.repair inp i v) s = .next (if bits v 17 16 ≠ 1 then s
     else if ((s.core i).repair.isSome || ((s.core i).spareRow (bits v 15 0 % 16)).isNone || (s.core i).shares (bits v 15 0) 1 ||
        decide (49151 < bits v 15 0)) then (s.modCore i (fun k => k.setFld 0x8060 15 0 (bits v 15 0))).coreEvent i 0x8060 17
     else (s.modCore i (fun k => k.setFld 0x8060 15 0 (bits v 15 0))).modCore i (fun k => { k with repair := some (bits v 15 0) }))) ∧
  (∀ (s : State) (i : CoreIx) (r : Nat), (s.core i).repair = some r → (s.core i).array = none →
     exec (.spareRowRepairDone i) s = .next (s.await i (fun t => (t.core i).repair.isNone) bankFuel)) ∧
  (∀ (s : State) (inp : Inp) (i : CoreIx) (v : W64),
     exec (.shadowWrite inp i v) s = .next (let s1 := if bit v 63 then s.coreClear i 0x8068 63 else s
     if (s.core i).shadow = (bits v 15 0, bits v 29 16) then s1
     else if !(s.core i).anyTask && bits v 15 0 % 16 == 0 && bits v 29 16 % 16 == 0 && decide (bits v 29 16 ≤ 8192) &&
        decide (bits v 15 0 + bits v 29 16 ≤ 49152) then s1.modCore i (fun k => (k.setFld 0x8068 15 0 (bits v 15 0)).setFld 0x8068 29 16 (bits v 29 16))
     else s1.coreEvent i 0x8068 63)) ∧
  (∀ (s : State) (inp : Inp) (i : CoreIx) (v : W64), bit v 0 = true →
     let t := 80 * bits v 9 8 + bits v 7 1
     exec (.copyGo inp i v) s = .next (if s.inClearing && decide (bits v 7 1 < 80) && (s.fence t == 1 || s.fence t == 2) &&
        (s.core i).copy.isNone
     then s.modCore i (fun k => { k.setFld 0x8078 15 0 0 with copy := some ⟨t, 0, 0⟩ }) else s.coreEvent i 0x8078 18)) ∧
  (∀ (s : State) (i : CoreIx) (y : Copy), (s.core i).copy = some y → (s.core i).copyFrom y.row ≤ 49151 →
     exec (.copyRow i) s = .next (s.await i (fun t => (match (t.core i).copy with | some z => z.row | none => 2 ^ 16) != y.row) bankFuel)) ∧
  (∀ (s : State) (i : CoreIx) (y : Copy), (s.core i).copy = some y → 49151 < (s.core i).copyFrom y.row → y.flying = 0 →
     exec (.copyDone i) s = .next ((s.modCore i (fun k => { k.setFld 0x8078 16 16 1 with copy := none })).mark (blkCORE i + 0x8078) 16)) ∧
  (∀ (s : State) (i c p : Nat) (rest : List Nat), (s.core i).rewrites = p :: rest → (s.core i).array = none →
     maintEnd s i c = if (s.core i).bankIdle (p / 3136) c then s.modCore i (fun k => { k.correct p with rewrites := rest }) else s) ∧
  (∀ (s : State) (i c p : Nat), (s.core i).rewrites = [] → (s.core i).repair = none → (s.core i).scrubbing = some p → (s.core i).array = none → (s.core i).bankIdle (p / 3136) c = true →
     maintEnd s i c = (let s3 := if ((s.core i).badWords p).isEmpty then s else s.reportErrors i ((s.core i).visible p) true ((s.core i).badWords p)
     (s3.modCore i (fun k => let k1 := if ((s.core i).badWords p).any (·.2) then k else k.correct p
     if p + 1 < 50176 then k1.setFld 0x8050 15 0 (p + 1) else (k1.setReg 0x8050 (plainCount 63 32 1 (k1.reg 0x8050))).setFld 0x8050 15 0 0)).modCore i (fun k => { k with scrubbing := none }))) ∧
  (∀ (s : State) (i c r q : Nat), (s.core i).rewrites = [] → (s.core i).repair = some r → (s.core i).array = none → (s.core i).bankIdle r c = true → (s.core i).spareRow (r % 16) = some q →
     maintEnd s i c = (let k := s.core i
     let p := k.phys r
     let s3 := ({ s with comb := writeRow s.comb (combAddr i q) (s.physRow i p) }).modCore i (fun k' => { k' with repair := none, rowMap := Tab.put k'.rowMap r q, defects := (k.badWords p).foldl (fun d (w : Nat × Bool) => Tab.put d (q * 64 + w.1) w.2) (k.defects.filter (fun e => e.1 / 64 != p && e.1 / 64 != q)), dead := k'.dead ++ [p], spareUsed := Tab.put k'.spareUsed (r % 16) (Tab.get [] k'.spareUsed (r % 16) ++ [q]) })
     (((if (k.badWords p).any (·.2) then s3.coreEvent i 0x8060 18 else s3).coreEvent i 0x8060 16).recordRepair i r))) ∧
  (∀ (s : State) (i c : Nat) (y : Copy), (s.core i).copy = some y → (s.core i).copyFrom y.row ≤ 49151 → (s.core i).array = none →
     (s.core i).rport ≤ c → (s.core i).rbuf = [] → (s.core i).bankBusy ((s.core i).copyFrom y.row) c = false →
     copyEnd s i c = (let r := (s.core i).copyFrom y.row
     let q := (s.modCore i (fun k => k.takePort_ c (some r))).readComb i r
     if q.2.isNone then q.1.copyStop i r
     else (q.1.modCore i (fun k => let next := Nat.min 49152 (k.copyFrom (r + 1))
     { k.setFld 0x8078 15 0 next with copy := some { y with row := next, flying := y.flying + 1 } })).launch y.target (.copy i) (.access ⟨.copy, r, q.2.getD 0, 0, .copy i, 0, 1, none⟩) (rowHops i y.target (c + 3) outRemote)))

/-- GET_ROW_RETURN makes a returned row that its routers let through a home-slice write; XFER_STATUS_ARRIVAL and SEND_STATUS end
the operation with the reason they carry; XFER_LOST ends it with reason 12, lost, at its deadline; OPERATION_RECORD_DISCARD
drops a record 4096 cycles after its last row; SIGNAL_ARRIVAL sets the flag, unless its owner is in its clear; FLAGOWN, WQOWN
and BIND are written while no task is held, or set REFUSED; WAGGLE_MESSAGE_JUDGE of a message's last row places the whole
message in the open queue of its epoch and sends the reason as status; a fenced position refuses each row.
(11_understory_sync_waggle.md R338, 11_understory_sync_waggle.md R339, 11_understory_sync_waggle.md R340,
11_understory_sync_waggle.md R343, 11_understory_sync_waggle.md R344, 11_understory_sync_waggle.md R347,
11_understory_sync_waggle.md R349, 11_understory_sync_waggle.md R350, 11_understory_sync_waggle.md R351,
11_understory_sync_waggle.md R353) -/
def Obligations.TransfersReturn : Prop :=
  (∀ (s s1 : State) (i : CoreIx) (id : Nat) (f0 f : Flight) (m0 r0 m z n op : Nat) (v0 d : Row) (x : XferOp),
     s.flights.find? (fun f => f.id == id) = some f0 → f0.cargo = .ret m0 v0 r0 → f0.target = i.val →
     s.landed i id = (s1, some f) → (s1.dropFlight id).refuses i = false → f.cargo = .ret m d 0 → f.origin = .core z n op →
     ((s1.dropFlight id).core i).xfers.find? (fun x => x.id == op) = some x →
     exec (.getRowReturn i id) s = .next ((s1.dropFlight id).modCore i (fun k => let rest := k.xfers.filter (fun y => y.id ≠ op)
     let x1 := { x with got := x.got + 1 }
     { k with fwrites := k.fwrites ++ [⟨x.srow + m, d, 0, n, none, x.entry⟩], xfers := if x1.got < x1.n then rest ++ [x1] else rest }))) ∧
  (∀ (s : State) (i : CoreIx) (id : Nat) (r : OpRecord),
     (s.core i).records.find? (fun r => r.id == id) = some r →
     exec (.operationRecordDiscard i id) s = .next ((s.toCyc i (r.last + 4096)).modCore i (fun k => { k with records := k.records.filter (fun x => x.id ≠ id) }))) ∧
  (∀ (s : State) (inp : Inp) (i : CoreIx) (n : CtxIx) (v : W64),
     exec (.flagownWrite inp i n v) s = .next (if (s.core i).holdsTask n = false ∧ [0, 1, 2, 3].all (fun m => m == n.val ||
        ((s.core i).reg (offFlagown m) &&& v) == 0) then s.modCore i (fun k => k.setReg (offFlagown n) v) else s.coreEvent i (offXstat n) 16)) ∧
  (∀ (s : State) (inp : Inp) (i : CoreIx) (n : CtxIx) (v : W64) (b : BindIx),
     exec (.bindWrite inp i n b v) s = .next (if (s.ctx i n).mode = .noTask ∨ (s.ctx i n).mode = .waiting .replay then s.modCore i (fun k =>
     ((k.setReg (offBind n b) (if 287 < bits v 8 0 then setBit (v &&& 0xFFFFFFFF80001FFF) 31 false else v &&& 0xFFFFFFFF80001FFF)).setReg (offSstat n b) 0).uncount n b)
     else s.coreEvent i (offXstat n) 17)) ∧
  (∀ (s : State) (inp : Inp) (i : CoreIx) (v : W64),
     exec (.wqownWrite inp i v) s = .next ((List.range 16).foldl (fun s1 q => if (s.core i).wqOwner q != wqNew v q &&
        ((s.core i).ownerBusy ((s.core i).wqOwner q) || (s.core i).ownerBusy (wqNew v q)) then s1.coreEvent i 0xB18 63
     else s1.modCore i (fun k1 => (k1.setFld 0xB18 (32 + q) (32 + q) (bits v (32 + q) (32 + q))).setFld 0xB18 (2 * q + 1) (2 * q) (bits v (2 * q + 1) (2 * q)))) (if bit v 63 then s.coreClear i 0xB18 63 else s))) ∧
  (∀ (s : State) (i : CoreIx) (id : Nat) (op r : Nat) (x : XferOp),
     s.isStatus id = true →
     s.noteKind i id ≠ some 3 →
     (s.ctlArrives i id).2 = some (.status op r) →
     ((s.ctlArrives i id).1.core i).xfers.find? (fun x => x.id == op) = some x →
     exec (.xferStatusArrival i id) s = .next ((s.ctlArrives i id).1.xferDone i x r)) ∧
  (∀ (s : State) (i : CoreIx) (id : Nat) (op r : Nat) (x : XferOp),
     s.noteKind i id = some 3 →
     (s.ctlArrives i id).2 = some (.status op r) →
     ((s.ctlArrives i id).1.core i).xfers.find? (fun x => x.id == op) = some x →
     exec (.sendStatus i id) s = .next ((s.ctlArrives i id).1.xferDone i x r)) ∧
  (∀ (s : State) (i : CoreIx) (n : CtxIx) (id : Nat) (x : XferOp),
     (s.core i).xfers.find? (fun x => x.id == id && x.ctx == n.val) = some x →
     exec (.xferLost i n id) s = .next ((s.toCyc i x.deadline).xferDone i x 12)) ∧
  (∀ (s : State) (i : CoreIx) (id : Nat) (f : Nat),
     s.isStatus id = false →
     (s.ctlArrives i id).2 = some (.signal f) →
     exec (.signalArrival i id) s = .next (let s1 := (s.ctlArrives i id).1
     if (s1.core i).flagInClear f then s1.count48 i 0xB08 1 else (s1.modCore i (fun k => k.signalFlag f (s1.cycOf i))).wakeSource i 1)) ∧
  (∀ (s s1 : State) (i : CoreIx) (id : Nat) (f0 f : Flight) (q ns m n : Nat) (e : W32) (d : Row),
     s.flights.find? (fun f => f.id == id) = some f0 → f0.cargo = .msg q e ns m n d → f0.target = i.val → s.landed i id = (s1, some f) →
     (s1.refuses i = true → exec (.waggleMessageJudge i id) s = .next ((s1.dropFlight id).sendStatus i f.origin 8 f.due)) ∧
     (s1.refuses i = false → n ≤ m + 1 → n ≤ (s1.msgRows i f.op f.due).length →
     exec (.waggleMessageJudge i id) s = .next (({ s1 with flights := s1.flights.filter (fun g => !(g.target == i.val &&
        g.isMsg && g.op == f.op)) } : State).judgeMsg i f.origin q e ns (rowsNat ((s1.msgRows i f.op f.due).filterMap Flight.msgRow) % 2 ^ (512 * ns)) f.due))) ∧
  (∀ (s : State) (i : CoreIx) (o : Origin) (q ns data a : Nat) (epoch : W32), let w : WaggleQ := Tab.get {} (s.core i).waggle q
     (((s.core i).wqOpen q = false ∨ w.epoch ≠ epoch) → s.judgeMsg i o q epoch ns data a = s.sendStatus i o 9 (a + 1)) ∧
     ((s.core i).wqOpen q = true → w.epoch = epoch →
     s.judgeMsg i o q epoch ns data a = (s.modCore i (fun k => { k with waggle := Tab.put k.waggle q (w.place ns data a).1 })).sendStatus i o (w.place ns data a).2 (a + 1)))

/-- STREAM_PROGRAM_READ reads the program row in the first cycle with a free port; the decoded program runs from its first open
action. ROW_OPERATION_GRANT comes to the cycle in which the pending operation is considered next: the streams that ask are
taken in the order of their slots from CYCLE.COUNT mod 16, each with what those before it leave; one that finds room at its
destination and a port, or its read-queue entry, the grant and a credit, is granted, the others hold. A granted operation out
of range faults STREAM_RANGE, one that leaks SPEC_LEAK; a home-slice row is read, a Cellar or host row takes an entry of its
read queue. FWAIT_GRANT passes a flag that was set at the start of the cycle, clearing it where asked; SIGNAL_GRANT sets its
flag 3 cycles on, once all earlier operations have completed. (09_forager_streams_cellar_queues.md R279,
09_forager_streams_cellar_queues.md R280, 09_forager_streams_cellar_queues.md R282, 09_forager_streams_cellar_queues.md R283,
09_forager_streams_cellar_queues.md R284, 09_forager_streams_cellar_queues.md R285, 09_forager_streams_cellar_queues.md R286,
09_forager_streams_cellar_queues.md R291, 09_forager_streams_cellar_queues.md R303) -/
def Obligations.StreamOperations : Prop :=
  (∀ (s s1 : State) (i : CoreIx) (slot : StrIx) (x : Stream) (w : Row), (s.core i).stream slot = some x → x.st = 1 →
     (s.toCyc i x.from_).await i (fun t => decide (0 < (t.core i).portsLeft (t.cycOf i))) bankFuel = s1 → (s1.core i).stream slot = some x →
     ((s1.core i).shares x.prow 1 && !((s1.core i).inExtent x.ctx x.tag x.prow 1)) = false →
     ((s1.modCore i (fun k => (k.grant (s1.cycOf i) (16 + slot.val)).noteBank x.prow (s1.cycOf i))).readComb i x.prow).2 = some w →
     let q := (s1.modCore i (fun k => (k.grant (s1.cycOf i) (16 + slot.val)).noteBank x.prow (s1.cycOf i))).readComb i x.prow
     let x1 : Stream := { x with words := (programWords w x.half).1, from_ := s1.cycOf i + 3 }
     q.1.loadFaults i x1 (programWords w x.half).2 = [] →
     exec (.streamProgramRead i slot) s = .next (q.1.modCore i (fun k => k.setStream slot { x1 with st := 2, action := x1.actionFrom x1.idx 0 }))) ∧
  (∀ (s u : State) (i : CoreIx) (slot : StrIx) (x0 x : Stream), (s.core i).stream slot = some x0 → x0.runs = true → wordOp x0.word = 4 →
     s.toCyc i x0.next = u → (u.core i).stream slot = some x → x.runs = true → wordOp x.word = 4 →
     exec (.rowOperationGrant i slot) s = .next (if (u.grantPlan i (u.cycOf i)).1.contains slot.val then u.rowGiven i slot x else u.holdStream i slot x)) ∧
  (∀ (s : State) (k : Core) (c : Nat) (a : Avail) (x : Stream), x.moveOp.src = 0 →
     (x.moveOp.toReg = false → s.tryGrant k c a x = (if !(k.fqRoom a x.moveOp.dq x.ctx) then (.lacks, a) else if a.ports = 0 then (.lacksPort, a) else (.given, k.fqTake { a with ports := a.ports - 1 } x.moveOp.dq x.ctx))) ∧
     (x.moveOp.toReg = true → x.moveOp.dst ≠ 2 → s.tryGrant k c a x = (if 16 ≤ (k.wqueue x.moveOp.cq).length + Tab.get 0 a.wq x.moveOp.cq then (.lacks, a) else if a.ports = 0 then (.lacksPort, a)
     else (.given, { a with ports := a.ports - 1, wq := Tab.put a.wq x.moveOp.cq (Tab.get 0 a.wq x.moveOp.cq + 1) })))) ∧
  (∀ (s : State) (k : Core) (c : Nat) (a : Avail) (x : Stream), x.moveOp.src = 1 → x.moveOp.toReg = false →
     s.tryGrant k c a x = (if 16 ≤ (k.rqueue x.moveOp.cq).held c + Tab.get 0 a.rq x.moveOp.cq ∨ k.fqRoom a x.moveOp.dq x.ctx = false ∨ a.cellar = false ∨ a.credits = 0 then (.lacks, a)
     else (.given, { k.fqTake { a with rq := Tab.put a.rq x.moveOp.cq (Tab.get 0 a.rq x.moveOp.cq + 1) } x.moveOp.dq x.ctx with cellar := false, credits := a.credits - 1 }))) ∧
  (∀ (s : State) (k : Core) (c : Nat) (a : Avail) (x : Stream) (pa : Nat), x.moveOp.src = 2 → x.moveOp.toReg = false →
     (k.rqueue x.moveOp.cq).held c + Tab.get 0 a.rq x.moveOp.cq < 16 → k.fqRoom a x.moveOp.dq x.ctx = true → a.host = true →
     (s.hrows x.moveOp.schan).length + Tab.get 0 a.chan x.moveOp.schan < 64 → s.lineUp = true → s.translate x.moveOp.srow false = .inl pa →
     (s.tryGrant k c a x).1 = .given ∧ (s.tryGrant k c a x).2.host = false) ∧
  (∀ (s : State) (i c slot : Nat) (x : Stream), ((s.core i).inOrder c).filter (fun p => p.2.asks c) = [(slot, x)] →
     s.grantPlan i c = (match (s.tryGrant (s.core i) c ((s.core i).avail c) x).1 with | .given => ([slot], []) | .lacksPort => ([], [slot]) | .lacks => ([], []))) ∧
  (∀ (s : State) (i slot : Nat) (x : Stream), (x.moveOp.inRange = false → s.rowGiven i slot x = s.streamFault i slot x.ctx fSTREAMRANGE) ∧
     (x.moveOp.inRange = true → (s.core i).streamLeak x x.moveOp = true → s.rowGiven i slot x = s.streamFault i slot x.ctx fSPECLEAK) ∧
     (x.moveOp.inRange = true → (s.core i).streamLeak x x.moveOp = false → x.moveOp.src = 0 → s.rowGiven i slot x = s.grantHomeRead i slot x x.moveOp (s.cycOf i)) ∧
     (x.moveOp.inRange = true → (s.core i).streamLeak x x.moveOp = false → x.moveOp.src = 1 →
     s.rowGiven i slot x = (s.modCore i (fun k => (k.grant (s.cycOf i) grantCellar).openRead slot x x.moveOp (s.cycOf i) (.cellar x.moveOp.srow))).count48 i 0x710 1) ∧
     (∀ pa, x.moveOp.inRange = true → (s.core i).streamLeak x x.moveOp = false → x.moveOp.src = 2 → s.translate x.moveOp.srow false = .inl pa →
     s.rowGiven i slot x = (({ s.modCore i (fun k => (k.grant (s.cycOf i) grantHost).openRead slot x x.moveOp (s.cycOf i) (.host x.moveOp.schan x.moveOp.srow)) with nextFlight := s.nextFlight + 1 } : State).issueHost x.moveOp.schan { id := s.nextFlight, core := i, slot := slot, stream := x.id, write := false, w := x.moveOp.srow, pa := pa, queue := x.moveOp.cq, entry := (s.core i).nextId, idx := x.idx, action := x.action, m := x.m, data := 0, lines := [], since := s.ct }))) ∧
  (∀ (s : State) (i : CoreIx) (slot : StrIx) (x : Stream) (u : State), (s.core i).stream slot = some x → x.runs = true → wordOp x.word = 5 →
     s.toCyc i x.from_ = u → (u.core i).stream slot = some x → x.from_ < u.cycOf i → (u.core i).flagWas (bits x.word 5 0) (u.cycOf i) = true →
     exec (.fwaitGrant i slot) s = .next (u.modCore i (fun k => (if bit x.word 50 then k.takeFlag (bits x.word 5 0) (u.cycOf i) else k).setStream slot (x.granted (u.cycOf i))))) ∧
  (∀ (s : State) (i : CoreIx) (slot : StrIx) (x : Stream) (u : State), (s.core i).stream slot = some x → x.runs = true → wordOp x.word = 5 →
     s.toCyc i x.from_ = u → (u.core i).stream slot = some x → (u.core i).flagWas (bits x.word 5 0) (u.cycOf i) = false → (u.core i).flag (bits x.word 5 0) = false →
     exec (.fwaitGrant i slot) s = .next (u.holdStream i slot x)) ∧
  (∀ (s : State) (i : CoreIx) (slot : StrIx) (x : Stream), (s.core i).stream slot = some x → x.runs = true → wordOp x.word = 6 → x.open_ = 0 → x.uncommitted = 0 →
     let t := Nat.max (s.cycOf i) (Nat.max x.from_ x.doneAt)
     ((s.toCyc i t).core i).stream slot = some x →
     exec (.signalGrant i slot) s = .next (((s.toCyc i t).modCore i (fun k => k.setStream slot (x.granted t))).sendCtl i (.signal (bits x.word 5 0)) ([], t + 3))) ∧
  (∀ (s s2 : State) (i slot c : Nat) (x : Stream) (o : MoveOp) (v : Row), o.toReg = false → (s.modCore i (fun k => (k.grant c slot).noteBank o.srow c)).readComb i o.srow = (s2, some v) →
     s.grantHomeRead i slot x o c = s2.modCore i (fun k => { k.setStream slot { x.granted c with doneAt := c + 2 } with fq := Tab.put k.fq o.dq { k.queue o.dq with rows := (k.queue o.dq).rows ++ [{ row := v, tag := x.tag, at_ := c + 1 }], owner := some x.ctx } }))

/-- CELLAR_ROW_LAND: a Cellar row lands 176 cycles after its grant, once no refresh blocks its banks, unless it is held; older
reads at its channels land before it. READ_QUEUE_DELIVERY: a landed head row goes to its Forager queue, counting a token where
asked, or becomes a home-slice write, where no queue before it in the cycle's order has one. FORAGER_WRITE writes the next row
in the first cycle without a holder's write. WRITE_QUEUE_COMMIT writes the Cellar row, or ends a completed host write, and
frees the entry. STREAM_END frees the slot; STREAM_HALT halts a host stream with its reason; RESUME and ABORT of a halted
stream restart it and fault its context, and otherwise only record the refusal. (08_comb.md R240,
09_forager_streams_cellar_queues.md R281, 09_forager_streams_cellar_queues.md R291, 09_forager_streams_cellar_queues.md R292,
09_forager_streams_cellar_queues.md R293, 09_forager_streams_cellar_queues.md R294, 09_forager_streams_cellar_queues.md R303,
09_forager_streams_cellar_queues.md R304) -/
def Obligations.StreamQueuesAndEnds : Prop :=
  (∀ (s : State) (i : CoreIx) (queue : RqIx) (entry : Nat) (e : RqEntry) (r : Nat),
     ((s.core i).rqueue queue).entries.find? (fun e => e.id == entry) = some e → e.src = .cellar r → e.row = none → e.err = false → s.mutes i = false →
     (s.toCyc i (e.since + 176)).rowHeld r = false →
     exec (.cellarRowLand i queue entry) s = .next (let s0 := s.toCyc i (e.since + 176)
     let s1 := s0.toCt (s0.rowFree r)
     (s1.serveFirst (s1.readsBefore r e.since) (fun s x => s.landRow x.1 x.2.1 x.2.2.1 x.2.2.2)).landRow i queue entry r)) ∧
  (∀ (s : State) (i : CoreIx) (queue : RqIx) (e : RqEntry) (rest : List RqEntry) (v : Row) (d : Nat),
     ((s.core i).rqueue queue).entries = e :: rest →
     e.err = false →
     e.row = some v →
     e.dead = false →
     (e.tok && decide (255 ≤ ((s.core i).rqueue queue).tokens)) = false →
     e.dest = .fq d →
     exec (.readQueueDelivery i queue) s = .next (let s2 := (s.modCore i (fun k => k.popEntry queue rest (s.cycOf i))).modCore i (fun k => if e.tok then { k with rq := Tab.put k.rq queue { k.rqueue queue with tokens := (k.rqueue queue).tokens + 1 } } else k)
     s2.modCore i (fun k => ({ k with fq := Tab.put k.fq d ((k.queue d).enter v e.tag (s.cycOf i)) } : Machine.Core).streamDone e.stream (s.cycOf i)))) ∧
  (∀ (s : State) (i : CoreIx) (queue : RqIx) (e : RqEntry) (rest : List RqEntry) (v : Row) (r : Nat),
     ((s.core i).rqueue queue).entries = e :: rest →
     e.err = false →
     e.row = some v →
     e.dead = false →
     (e.tok && decide (255 ≤ ((s.core i).rqueue queue).tokens)) = false →
     e.dest = .home r →
     (((s.core i).granted (s.cycOf i)).contains grantHome || (s.core i).homeAhead queue (s.cycOf i)) = false →
     exec (.readQueueDelivery i queue) s = .next (let s2 := (s.modCore i (fun k => k.popEntry queue rest (s.cycOf i))).modCore i (fun k => if e.tok then { k with rq := Tab.put k.rq queue { k.rqueue queue with tokens := (k.rqueue queue).tokens + 1 } } else k)
     s2.modCore i (fun k => { k.grant (s.cycOf i) grantHome with fwrites := k.fwrites ++ [⟨r, v, e.tag, e.ctx, some e.stream, none⟩] }))) ∧
  (∀ (s s0 : State) (i : CoreIx) (w : FWrite) (rest : List FWrite) (t : Nat),
     (s.core i).fwrites = w :: rest → w.stream = some t → w.op = none →
     s.await i (fun u => decide ((u.core i).fwNext ≤ u.cycOf i) && ((u.core i).writesAt (u.cycOf i)).isEmpty) bankFuel = s0 →
     exec (.foragerWrite i) s = .next (((s0.modCore i (fun k => { k.noteBank w.row (s0.cycOf i) with fwrites := rest, fwNext := s0.cycOf i + 1 })).writeOwn i w.ctx w.tag w.row w.data).modCore i (fun k => k.streamDone t (s0.cycOf i)))) ∧
  (∀ (s s0 : State) (i : CoreIx) (w : FWrite) (rest : List FWrite) (e : Nat),
     (s.core i).fwrites = w :: rest → w.stream = none → w.op = some e →
     s.await i (fun u => decide ((u.core i).fwNext ≤ u.cycOf i) && ((u.core i).writesAt (u.cycOf i)).isEmpty) bankFuel = s0 →
     exec (.foragerWrite i) s = .next (let s2 := (s0.modCore i (fun k => { k.noteBank w.row (s0.cycOf i) with fwrites := rest, fwNext := s0.cycOf i + 1 })).writeOwn i w.ctx w.tag w.row w.data
     if rest.any (fun y => y.op == some e) ||
        (s2.core i).xfers.any (fun x => x.entry == some e) then s2 else s2.modCore i (fun k => k.freeSb e))) ∧
  (∀ (s : State) (i : CoreIx) (queue : WqIx) (entry : Nat) (e : WqEntry) (r : Nat),
     ((s.core i).wqueue queue).find? (fun e => e.id == entry) = some e → e.dest = .cellar r → (s.toCyc i (e.at_ + 1)).rowHeld r = false →
     exec (.writeQueueCommit i queue entry) s = .next (let u := s.toCyc i (e.at_ + 1)
     let s1 := u.toCt (u.rowFree r)
     (s1.serveFirst (s1.writesBefore r e.at_) (fun s x => s.commitRow x.1 x.2.1 x.2.2.1)).commitRow i queue entry)) ∧
  (∀ (s : State) (i : CoreIx) (queue : WqIx) (entry : Nat) (e : WqEntry) (ch r : Nat),
     ((s.core i).wqueue queue).find? (fun e => e.id == entry) = some e →
     e.dest = .host ch r →
     e.ready = true →
     exec (.writeQueueCommit i queue entry) s = .next ((s.toCyc i (e.at_ + 1)).modCore i (fun k => k.dropEntry queue e))) ∧
  (∀ (s : State) (i : CoreIx) (slot : StrIx) (x : Stream),
     (s.core i).stream slot = some x →
     x.st = 5 ∨ x.action = 32 ∧ (x.st = 2 ∨ x.st = 3) →
     x.open_ = 0 →
     exec (.streamEnd i slot) s = .next (((s.toCyc i x.doneAt).modCore i (fun k => { k with streams := Tab.erase k.streams slot })).freeHalt x)) ∧
  (∀ (s : State) (i : CoreIx) (slot : StrIx) (reason : B8) (x : Stream),
     (s.core i).stream slot = some x →
     x.runs = true →
     wordOp x.word = 4 →
     x.moveOp.inRange = true →
     x.moveOp.src = 2 →
     reason = 3 →
     ((s.toCyc i x.from_).core i).stream slot = some x →
     (s.toCyc i x.from_).lineUp = false →
     exec (.streamHalt i slot reason) s = .next ((s.toCyc i x.from_).haltAt i slot x.id x.moveOp.schan 3 x.moveOp.srow false x.idx x.action x.m)) ∧
  (∀ (s : State) (inp : Inp) (i : CoreIx) (slot : StrIx) (x : Stream),
     (s.core i).stream slot = some x →
     x.st = 4 →
     exec (.resume inp i slot) s = .next ((s.modCore i (fun k => k.setStream slot { x with st := 2, reason := 0, from_ := s.cycOf i + 1 })).unhalt x.chan)) ∧
  (∀ (s : State) (inp : Inp) (i : CoreIx) (slot : StrIx),
     (s.core i).stream slot = none →
     exec (.resume inp i slot) s = .next (s.coreEvent i (0x800 + 0x20 * slot.val) 11)) ∧
  (∀ (s : State) (inp : Inp) (i : CoreIx) (slot : StrIx) (x : Stream),
     (s.core i).stream slot = some x →
     x.st = 4 →
     exec (.abort inp i slot) s = .next ((s.streamFault i slot x.ctx fSTREAMABORTED).unhalt x.chan)) ∧
  (∀ (s : State) (inp : Inp) (i : CoreIx) (slot : StrIx),
     (s.core i).stream slot = none →
     exec (.abort inp i slot) s = .next (s.coreEvent i (0x800 + 0x20 * slot.val) 11)) ∧
  (∀ (s : State) (i q id r : Nat), s.landRow i q id r = (let p := s.readCellar r 0
     p.1.modCore i (fun k => k.setEntries q ((k.rqueue q).entries.map (fun y =>
        if y.id = id then { y with row := p.2, err := p.2.isNone } else y))))) ∧
  (∀ (s : State) (i q id : Nat) (e : WqEntry) (r : Nat), ((s.core i).wqueue q).find? (fun e => e.id == id) = some e → e.dest = .cellar r →
     s.commitRow i q id = (s.writeCellar r 1 e.row).modCore i (fun k => k.dropEntry q e))

/-- CONFIRM_RESUME of a running context whose tag is confirming takes the write port and a scoreboard entry, makes the tag's
products untagged and writes CONFIRM's result; while the port or the scoreboard is held it waits a cycle. CONFIRM_COMPLETE
comes to the end of the confirmation's last rename; rename m exchanges, in cycle c + 1 + m, the row-map entries of one written
row and its target, which counts as a write of it; with the last one the confirmation frees what it held and counts.
SQUASH_COMPLETE makes the tag idle once its streams have ended. CLEAR erases the expert history table, unless a context holds
a task. (10_speculative_streams.md R314, 10_speculative_streams.md R321, 10_speculative_streams.md R322,
10_speculative_streams.md R324, 10_speculative_streams.md R320) -/
def Obligations.SpeculationEnds : Prop :=
  (∀ (s : State) (i : CoreIx) (n : CtxIx) (t : Nat) (u : State),
     (s.core i).phase = .running n.val →
     (s.ctx i n).confirmPending = some t →
     (s.ctx i n).mode = .running →
     s.toCyc i (s.core i).nextIssue = u →
     ((u.core i).portBusy .confirm || (u.core i).sbFull ||
        (u.core i).sbHit false ((s.ctx i n).getTag t).tb ((s.ctx i n).getTag t).nr) = false →
     exec (.confirmResume i n) s = .next (let g := (s.ctx i n).getTag t
     (((u.modCore i (fun k => { (((k.takePort .confirm k.nextId).takeSb false g.tb g.nr n .confirm 0).untag n t).modCtx n (fun x => x.setTag t { g with done := u.cycOf i + 1 + g.written.length, held := 0 }) with nextIssue := u.cycOf i + 1 })).raiseFlags i n 0 g.held).writeReg i n g.rd 1 1))) ∧
  (∀ (s : State) (i : CoreIx) (n : CtxIx) (t : Nat) (u : State),
     (s.core i).phase = .running n.val →
     (s.ctx i n).confirmPending = some t →
     (s.ctx i n).mode = .running →
     s.toCyc i (s.core i).nextIssue = u →
     ((u.core i).portBusy .confirm || (u.core i).sbFull ||
        (u.core i).sbHit false ((s.ctx i n).getTag t).tb ((s.ctx i n).getTag t).nr) = true →
     exec (.confirmResume i n) s = .next (u.modCore i (fun k => { k with nextIssue := u.cycOf i + 1 }))) ∧
  (∀ (s : State) (i : CoreIx) (n : CtxIx) (t : Nat) (g : Tag),
     (s.ctx i n).tags.find? (fun t => t.2.st == 2 && t.2.done != 0) = some (t, g) →
     exec (.confirmComplete i n) s = .next (s.toCyc i (g.done + 1))) ∧
  (∀ (s : State) (i : CoreIx) (n : CtxIx) (tag : TagIx),
     ((s.core i).getCtx n |>.getTag tag).st = 3 →
     (s.core i).streams.any (fun p => p.2.ctx == n.val && p.2.tag == tag.val) = false →
     exec (.squashComplete i n tag) s = .next (s.modCore i (fun k => { k.modCtx n (fun x => { x with tags := Tab.erase x.tags tag }) with sb := k.sb.filter (fun e => !(e.ctx == n.val && e.tag == tag.val)) }))) ∧
  (∀ (s : State) (inp : Inp) (i : CoreIx),
     exec (.ehtClear inp i) s = .next (if (s.core i).anyTask then s.coreEvent i 0xA08 63 else s.modCore i (fun k => { k with regs := k.regs.filter (fun p => ¬ (0x3000 ≤ p.1 ∧ p.1 < 0x5000)) }))) ∧
  (∀ (i n c t : Nat) (s : State) (r : Nat), let g := (s.ctx i n).getTag t
     g.st = 2 → g.done ≠ 0 → g.rename c = some r →
     let s1 := (s.modCore i (fun k => k.exchange r (g.tb + (r - g.sb)))).watchWrite i (g.tb + (r - g.sb))
     (c < g.done → renameEnd i n c t s = s1) ∧
     (g.done ≤ c → renameEnd i n c t s = (s1.modCore i (fun k => (((k.sb.filter (fun e => e.unit == .confirm && e.ctx == n &&
        e.first == g.tb)).map (·.id)).foldl (fun k id => (k.freePort id).freeSb id) k).modCtx n (fun x => { x with tags := Tab.erase x.tags t }))).count48 i 0xA10 1))

/-- GATE of an active position gates it, PROBE of a fenced one without a logical core marks it, RETURN of a fenced one that
nothing is copying zeroes its state and its slice; any other OP sets REFUSED; a gated core enters Deep once its clears have
completed, or 10 µs after the write, and a RETURN completes after 50,176 cycles as a spare. MAP_WRITE leaves a change pending,
or sets REFUSED; REMAP takes it inside a clearing. ACQUIRE, RELEASE and ADOPT change the lease table. From the standby Keeper
each sets only WREFUSED. ORDERED_WRITE and IMAGE_WRITE act while no task is held, and set REFUSED otherwise. ROLLBACK raises a
notice once; again it only renews its pair among those seen. (01_module_and_dataflow.md R31, 12_schedule_contract.md R374,
13_ordered_mode.md R393, 22_fencing_maintenance_errors.md R596, 22_fencing_maintenance_errors.md R597,
22_fencing_maintenance_errors.md R603, 22_fencing_maintenance_errors.md R606, 22_fencing_maintenance_errors.md R607,
22_fencing_maintenance_errors.md R609, 22_fencing_maintenance_errors.md R611) -/
def Obligations.FencesMapsAndLeases : Prop :=
  (∀ (s : State) (inp : Inp) (v : W64),
     exec (.orderedWrite inp v) s = .next (if bit v 0 = s.flag 0x8 0 then s else if s.anyTask then s.event 0x10 1 else (s.setFld 0x8 0 0 (bits v 0 0)).setFld 0x10 0 0 (bits v 0 0))) ∧
  (∀ (s : State) (inp : Inp) (i : CoreIx) (v : W64),
     exec (.imageWrite inp i v) s = .next (let s1 := if bit v 63 then s.coreClear i 0xD48 63 else s
     if (s.core i).fld 0xD48 30 0 = bits v 30 0 then s1
     else if (s.core i).anyTask then s1.coreEvent i 0xD48 63
     else s1.modCore i (fun k => k.setFld 0xD48 30 0 (bits v 30 0)))) ∧
  (∀ (s : State) (inp : Inp) (i : CoreIx),
     exec (.gate inp i) s = .next (if inp.val = s.activeKeeper then (if s.fence i = 0 then s.gate i else s.coreEvent i offFence 26) else if inp.val = 17 ∨ inp.val = 18 then s.event rRole 63 else s.coreEvent i offFence 26)) ∧
  (∀ (s s1 : State) (i : CoreIx) (t u : Nat),
     (s.core i).gateAt = some t → (s.core i).clearsEnd = some u → s.toCt (Nat.min (s.edgeOf u) (t + 100000)) = s1 → (s1.core i).power = .run →
     exec (.fenceDeepEntry i) s = .next (((s1.modCore i (fun k => { k with gateAt := none })).freeHalts i).enter i true)) ∧
  (∀ (s s1 : State) (i : CoreIx) (t : Nat),
     (s.core i).gateAt = some t → (s.core i).clearsEnd = none → s.toCt (t + 100000) = s1 → (s1.core i).power = .run →
     exec (.fenceDeepEntry i) s = .next (((s1.modCore i (fun k => { k with gateAt := none })).freeHalts i).enter i true)) ∧
  (∀ (s : State) (inp : Inp) (i : CoreIx),
     exec (.probe inp i) s = .next (if inp.val = s.activeKeeper then (if s.fence i = 2 ∧ (s.logicalOf i).isNone then s.modCore i (fun k => k.setFld offFence 5 5 1) else s.coreEvent i offFence 26) else if inp.val = 17 ∨ inp.val = 18 then s.event rRole 63 else s.coreEvent i offFence 26)) ∧
  (∀ (s : State) (inp : Inp) (i : CoreIx),
     exec (.fenceReturn inp i) s = .next (if inp.val = s.activeKeeper then (if s.fence i = 2 ∧ s.copying i = false then (((s.recordFence i 1).wipeSlice i).freeHalts i).modCore i (fun k => { (k.wiped).setFld offFence 5 5 0 with gateAt := none, wipeAt := some (s.cycOf i + 50176) }) else s.coreEvent i offFence 26) else if inp.val = 17 ∨ inp.val = 18 then s.event rRole 63 else s.coreEvent i offFence 26)) ∧
  (∀ (s : State) (i : CoreIx) (t : Nat),
     (s.core i).wipeAt = some t →
     exec (.returnComplete i) s = .next ((s.toCt (if t ≤ s.cyc then s.ct else s.edgeOf t)).modCore i (fun k => { k.setFld offFence 3 2 1 with wipeAt := none }))) ∧
  (∀ (s : State) (inp : Inp) (v : W64) (n : LCoreIx),
     exec (.mapWrite inp n v) s = .next (if inp.val = s.activeKeeper then (if bit v 8 ∧ s.mapOk n (bits v 6 0) = false then s.event rMapStat 0 else { s.setFlag (rMap n) 16 with mapPend := Tab.put s.mapPend n (v &&& 0x17F) }) else if inp.val = 17 ∨ inp.val = 18 then s.event rRole 63 else s.event rMapStat 0)) ∧
  (∀ (s : State) (n : LCoreIx) (v : W64) (s0 : State),
     Tab.find s.mapPend n = some v →
     (if s.inClearing then s else s.toCt (s.reg rClrBegin).toNat) = s0 →
     s0.inClearing = true →
     bit v 8 = true →
     s0.physOf n = 80 * (n.val / 72) + bits v 6 0 →
     exec (.remap n) s = .next ((({ s0.clrFlag (rMap n) 16 with mapPend := Tab.erase s0.mapPend n } : State)).setFlag (rMap n) 8)) ∧
  (∀ (s : State) (n : LCoreIx) (v : W64) (s0 : State),
     Tab.find s.mapPend n = some v →
     (if s.inClearing then s else s.toCt (s.reg rClrBegin).toNat) = s0 →
     s0.inClearing = true →
     bit v 8 = false →
     s0.inService n = false →
     exec (.remap n) s = .next ((((({ s0.clrFlag (rMap n) 16 with mapPend := Tab.erase s0.mapPend n } : State)).setFld (rMap n) 6 0 (bits v 6 0)).setFld (rMap n) 8 8 0))) ∧
  (∀ (s : State) (inp : Inp) (v : W64),
     exec (.acquire inp v) s = .next (if inp.val = s.activeKeeper then Machine.acquire s (18 - inp.val) v else if inp.val = 17 ∨ inp.val = 18 then s.event rRole 63 else s)) ∧
  (∀ (s : State) (inp : Inp) (v : W64),
     exec (.leaseRelease inp v) s = .next (if inp.val = s.activeKeeper then (let m := bits v 61 56
     let w := s.reg (rLease m)
     let s1 := s.setReg (rLease m) 0
     if leaseState w = 0 ∨ !(s1.leasesIn (leaseKey w) 1).isEmpty ∨ !(s1.leasesIn (leaseKey w) 4).isEmpty then s1
     else match s1.leasesIn (leaseKey w) 3, s1.leasesIn (leaseKey w) 2 with
     | x :: _, _ => s1.setLease x (s1.reg (rLease x)) 1
     | [], x :: _ => s1.setLease x (s1.reg (rLease x)) 1
     | [], [] => s1) else if inp.val = 17 ∨ inp.val = 18 then s.event rRole 63 else s)) ∧
  (∀ (s : State) (inp : Inp) (v : W64),
     exec (.adopt inp v) s = .next (if inp.val = s.activeKeeper then (if leaseState (s.reg (rLease (bits v 61 56))) = 4 then s.setLease (bits v 61 56) (setBits (s.reg (rLease (bits v 61 56))) 60 60 (18 - inp.val)) 1 else s) else if inp.val = 17 ∨ inp.val = 18 then s.event rRole 63 else s)) ∧
  (∀ (s : State) (owner a n : Nat) (v : W64) (k : Nat) (rep pre : Bool), bits v 55 51 = a → activity a = some (k, rep, pre) →
     k = bits v 50 48 → leaseGroup k (bits v 47 38) = true → (List.range 64).find? (fun n => leaseState (s.reg (rLease n)) == 0) = some n →
     let w : W64 := BitVec.ofNat 64 (owner * 2 ^ 60 + a * 2 ^ 55 + k * 2 ^ 52 + bits v 47 38 * 2 ^ 42)
     s.leasesIn (leaseKey w) 1 = [] → s.leasesIn (leaseKey w) 4 = [] →
     Machine.acquire s owner v = ((s.setLease n w 1).setFld rLeaseStat 5 0 n).setFld rLeaseStat 8 6 1) ∧
  (∀ (s : State) (origin : W17) (step : W64),
     s.floods.contains (origin.toNat, step.toNat % 8192 * 8 + 6) = false →
     exec (.rollback origin step) s = .next (let fid := step.toNat % 8192 * 8 + 6
     let body : BitVec 2048 := BitVec.ofNat 2048 (2 + 2 ^ 8 + step.toNat * 2 ^ 32)
     if origin.toNat = s.fld rModid 16 0 then (s.flood s.activeMember fid body).noticeAll else ((s.seeFlood origin.toNat fid).queueUp (s.activeMember, 15) none ⟨true, origin.toNat, fid, body⟩).noticeAll)) ∧
  (∀ (s : State) (origin : W17) (step : W64),
     s.floods.contains (origin.toNat, step.toNat % 8192 * 8 + 6) = true →
     exec (.rollback origin step) s = .next (s.seeFlood origin.toNat (step.toNat % 8192 * 8 + 6)))

/-- NAP, DEEP and WAKE, from inputs 1 to 18, write the wake mask and take effect by the core's state: NAP and DEEP of a core whose
conditions hold begin the entry, with the arrays in retention, CORE.CYCLE at the last edge's number and the entry's end 1 or 5
µs later; otherwise they set REFUSED. WAKE of a core in a low state or entering one whose mask enables it is a wake source,
and of another changes nothing more. ENTRY_COMPLETE ends the entry at its instant. CORE_WAKE of the source that is due begins
the wake. TIMER_WAKE brings time to the earliest timer, a wake source. WAKE_STEP_READY comes to the step's nominal time,
asserts its ready signals and begins the next step; the last one places the core's first edge, unless the throttle holds it.
WAKEFAIL at twice the nominal time sets its bit and leaves the core in its low state. ARRAY_READY makes the arrays active at
its instant. (21_power.md R574, 21_power.md R575, 21_power.md R578, 21_power.md R579, 21_power.md R580, 21_power.md R581,
21_power.md R582, 21_power.md R584, 21_power.md R585) -/
def Obligations.PowerStates : Prop :=
  (∀ (s : State) (inp : Inp) (i : CoreIx) (v : W64), inp.val ≠ 0 → let u := s.setReg (rPwrCtl i) (setBits v 1 0 1 &&& 0xFF78)
     (u.napOk i = true → exec (.nap inp i v) s = .next (u.enter i false)) ∧ (u.napOk i = false → exec (.nap inp i v) s = .next (u.event (rPwrStat i) 63))) ∧
  (∀ (s : State) (inp : Inp) (i : CoreIx) (v : W64),
     inp.val = 0 →
     exec (.nap inp i v) s = .next (s)) ∧
  (∀ (s : State) (inp : Inp) (i : CoreIx) (v : W64), inp.val ≠ 0 → let u := s.setReg (rPwrCtl i) (setBits v 1 0 2 &&& 0xFF78)
     (u.deepOk i = true → exec (.deep inp i v) s = .next (u.enter i true)) ∧ (u.deepOk i = false → exec (.deep inp i v) s = .next (u.event (rPwrStat i) 63))) ∧
  (∀ (s : State) (inp : Inp) (i : CoreIx) (v : W64),
     inp.val = 0 →
     exec (.deep inp i v) s = .next (s)) ∧
  (∀ (s : State) (inp : Inp) (i : CoreIx) (v : W64), inp.val ≠ 0 → let u := s.setReg (rPwrCtl i) (setBits v 1 0 3 &&& 0xFF78)
     ((u.core i).fuse ≠ .off → exec (.wake inp i v) s = .next (u.wakeSource i 4)) ∧ ((u.core i).fuse = .off → exec (.wake inp i v) s = .next u)) ∧
  (∀ (s : State) (inp : Inp) (i : CoreIx) (v : W64),
     inp.val = 0 →
     exec (.wake inp i v) s = .next (s)) ∧
  (∀ (s : State) (i : CoreIx) (t : Nat),
     (s.core i).power = .napEntry t →
     exec (.entryComplete i) s = .next ((s.toCt t).modCore i (fun k => { k with power := .nap, wakeDue := k.wakeDue.map (fun w => (w.1, Nat.max w.2 t)) }))) ∧
  (∀ (s : State) (i : CoreIx) (t : Nat),
     (s.core i).power = .deepEntry t →
     exec (.entryComplete i) s = .next ((s.toCt t).modCore i (fun k => { k with power := .deep, wakeDue := k.wakeDue.map (fun w => (w.1, Nat.max w.2 t)) }))) ∧
  (∀ (s : State) (i : CoreIx) (source : B4) (t : Nat),
     (s.core i).power = .nap →
     (s.core i).wakeDue = some (source.toNat, t) →
     exec (.coreWake i source) s = .next (s.setCore i { s.core i with power := .waking false 1 source.toNat, wakeAt := t, wakeDue := none })) ∧
  (∀ (s : State) (i : CoreIx) (source : B4) (t : Nat),
     (s.core i).power = .deep →
     (s.core i).wakeDue = some (source.toNat, t) →
     exec (.coreWake i source) s = .next (s.setCore i { s.core i with power := .waking true 1 source.toNat, wakeAt := t, wakeDue := none })) ∧
  (∀ (s : State) (i : CoreIx) (t : Nat) (r : List Nat),
     s.timers i = t :: r →
     exec (.timerWake i) s = .next ((s.toCt (r.foldl Nat.min t)).wakeSource i 5)) ∧
  (∀ (s : State) (i : CoreIx) (deep : Bool) (step src : Nat),
     (s.core i).power = .waking deep step src →
     exec (.wakeStepReady i) s = .next (let t := (s.core i).wakeAt + (wakeStep deep step).1
     let s1 := s.toCt t
     let s2 := s1.setReg (rPwrStat i) (s1.reg (rPwrStat i) ||| BitVec.ofNat 64 ((wakeStep deep step).2 * 2 ^ 8))
     let s3 := s2.modCore i (fun k => { k with array := if (wakeStep deep step).2 &&& 4 ≠ 0 then none else k.array, power := .waking deep (step + 1) src, wakeAt := t })
     if step < wakeSteps deep ∨ s3.flag rPwrStatM 0 = true then s3 else s3.firstEdge i src deep)) ∧
  (wakeStep false 1 = (15000, 6) ∧ wakeStep false 2 = (5000, 8) ∧ wakeSteps false = 2 ∧ wakeStep true 1 = (60000, 1) ∧ wakeStep true 2 = (30000, 8) ∧
     wakeStep true 3 = (40000, 4) ∧ wakeStep true 4 = (20000, 16) ∧ wakeSteps true = 4) ∧
  (∀ (s : State) (i : CoreIx) (deep : Bool) (step src : Nat),
     (s.core i).power = .waking deep step src →
     step ≤ wakeSteps deep →
     exec (.wakefail i) s = .next (((s.toCt ((s.core i).wakeAt + 2 * (wakeStep deep step).1)).event (rPwrStat i) 62).modCore i (fun k => { k with power := if deep then .deep else .nap }))) ∧
  (∀ (s : State) (i : CoreIx) (t : Nat),
     (s.core i).array = some (t + 1) →
     exec (.arrayReady i) s = .next ((s.toCt (t + 1)).modCore i (fun k => { k with array := none }))) ∧
  (∀ (s : State) (i : Nat),
     s.enter i false = (s.setFld (rPwrStat i) 12 8 (s.fld (rPwrStat i) 12 8 &&& 17)).modCore i (fun k => { k.setReg 0x8 (BitVec.ofNat 64 (s.cycOf i)) with array := some 0, wakeDue := none, power := .napEntry (s.ct + 10000) }) ∧
     s.enter i true = (s.setFld (rPwrStat i) 12 8 0).modCore i (fun k => { ({ k.setReg 0x8 (BitVec.ofNat 64 (s.cycOf i)) with array := some 0, wakeDue := none } : Machine.Core).deepZero with power := .deepEntry (s.ct + 50000) })) ∧
  (∀ (s : State) (i code : Nat), s.hiveOff = false → s.wakeOn i code = true → (s.core i).wakeDue = none →
     (((s.core i).power = .nap ∨ (s.core i).power = .deep) → s.wakeSource i code = s.modCore i (fun k => { k with wakeDue := some (code, s.ct) })) ∧
     ((s.core i).power = .run → s.wakeSource i code = s)) ∧
  (∀ (s : State) (i src : Nat), s.ct = s.lastEdge →
     ((s.firstEdge i src false).core i).power = .run ∧
     (([0, 1, 2, 3].any (fun n =>
        match ((s.core i).getCtx n).mode with | .ready _ => true | _ => false)) = true → ((s.firstEdge i src false).core i).phase = .waking (s.cyc + 3)) ∧
     (([0, 1, 2, 3].any (fun n =>
        match ((s.core i).getCtx n).mode with | .ready _ => true | _ => false)) = false → ((s.firstEdge i src false).core i).phase = .gated))

/-- CAP_WRITE stores 32 to 64 steps; BUDGET_WRITE stores a clamped budget, pending until BUDGET_TAKES_EFFECT at the first window
that begins inside a clearing; BUDGET_WINDOW brings time to the die's next 256-cycle window. POWER_AVERAGE counts consecutive
averages above 1.05 times the cap, and at or below it. THROTTLE_TRIP after the 11th sets the throttle, the Keeper's event and
the step's failure; THROTTLE_START doubles the period from the next multiple of 240 ct; THROTTLE_END after 100 averages at or
below the cap clears it; GLADE_RESUME restores the period at least 640 ct later. (21_power.md R586, 21_power.md R587,
21_power.md R589, 21_power.md R590, 21_power.md R591, 21_power.md R592, 12_schedule_contract.md R364, 12_schedule_contract.md
R367, 14_glades_canopy_time.md R414) -/
def Obligations.CapBudgetsAndThrottle : Prop :=
  (∀ (s : State) (inp : Inp) (v : W64),
     exec (.capWrite inp v) s = .next (if inp.val = s.activeKeeper then s.setReg blkPWR (BitVec.ofNat 64 (Nat.max 32 (Nat.min 64 (bits v 6 0)))) else if inp.val = 17 ∨ inp.val = 18 then s.event rRole 63 else s)) ∧
  (∀ (s : State) (inp : Inp) (v : W64) (die : DieIx),
     exec (.budgetWrite inp die v) s = .next (if inp.val = s.activeKeeper then (s.setFld (rBudget die) 17 0 (Nat.max 720 (Nat.min 184320 (bits v 17 0)))).setFld (rBudget die) 31 31 1 else if inp.val = 17 ∨ inp.val = 18 then s.event rRole 63 else s)) ∧
  (∀ (s : State) (die : DieIx) (t : Nat),
     s.flag (rBudget die) 31 = true →
     (let b := s.cyc / 256 + 1; s.edgeOf (256 * (if (s.reg rClrBegin).toNat ≤ s.edgeOf (256 * b) ∨ s.flag rTstat 3 = false then b else (s.cyc + s.edgesTo ((s.reg rClrBegin).toNat - 1) + 256) / 256))) = t →
     s.inClearingAt t = true →
     exec (.budgetTakesEffect die) s = .next (((s.toCt t).setFld (rBudget die) 49 32 ((s.toCt t).fld (rBudget die) 17 0)).setFld (rBudget die) 31 31 0)) ∧
  (∀ (s : State) (die : DieIx),
     exec (.budgetWindow die) s = .next (let b := s.cyc / 256 + 1
     { s.toCt (s.edgeOf (256 * b)) with charges := (s.toCt (s.edgeOf (256 * b))).charges.filter (fun p => p.1 % 4 ≠ die.val ||
        decide (b ≤ p.1 / 4 + 1)) })) ∧
  (∀ (s : State) (watts : W16),
     exec (.powerAverage watts) s = .next (let s1 := (s.toCt (nextMultiple ctPerUs (s.ct + 1))).setFld rPwrStatM 31 16 watts.toNat
     { s1 with monOver := if 105 * s.cap < 100 * watts.toNat then s1.monOver + 1 else 0, monUnder := if watts.toNat ≤ s.cap then s1.monUnder + 1 else 0 })) ∧
  (∀ (s : State),
     11 ≤ s.monOver →
     s.flag rPwrStatM 0 = false →
     exec (.throttleTrip) s = .next (let s1 := (s.setReg rPwrStatM (setBit (setBit (plainCount 47 32 1 (s.reg rPwrStatM)) 0 true) 63 true)).mark rPwrStatM 63
     ((s1.setReg rThrat (BitVec.ofNat 64 s.ct)).raiseKeep 11).failStep 12)) ∧
  (∀ (s : State),
     s.flag rPwrStatM 0 = true →
     s.throttled = false →
     exec (.throttleStart) s = .next (let s1 := s.toCt (nextMultiple 240 ((s.reg rThrat).toNat + 1))
     let s2 : State := { s1 with throttled := true, thrBase := (s1.lastEdge, s1.cyc), nextEdge := s1.lastEdge + 2 * s1.period }
     ((List.range 644).filter s2.gladeRuns).foldl (fun s g => s.raiseLag g) s2)) ∧
  (∀ (s : State),
     exec (.throttleEnd) s = .next (if s.flag rPwrStatM 0 ∧ 100 ≤ s.monUnder then { s.clrFlag rPwrStatM 0 with thrEnd := s.ct } else s)) ∧
  (∀ (s : State),
     s.throttled = true →
     s.flag rPwrStatM 0 = false →
     exec (.gladeResume) s = .next (let s1 := s.toCt (nextMultiple 240 s.thrEnd)
     let p := periodOf s1.point
     let e := nextMultiple p (nextMultiple 240 s.thrEnd + 640)
     let s2 := (({ s1 with throttled := false } : State).regrid e (s1.thrBase.2 + (e - s1.thrBase.1) / p)).toCt e
     s2.cores.foldl (fun s q => s.resumeWake q.1 q.2.power) s2))

/-- DROOP_ALARM gives the glade its alarm level; REPAY brings time to the glade's next edge; LAG is raised once when its condition
has arisen. OPREQ_WRITE arms a change, or sets REFUSED where it names the point in force with nothing pending;
OPERATING_POINT_CHANGE at its time puts the new point in force and resumes the grid on its first edge at least 640 ct later.
JOBEPOCH_WRITE is stored while no context holds a task, TCTL_WRITE in FREE, ACQUIRE and LOST; otherwise each sets its refusal.
(14_glades_canopy_time.md R404, 14_glades_canopy_time.md R405, 14_glades_canopy_time.md R407, 14_glades_canopy_time.md R416,
14_glades_canopy_time.md R417, 14_glades_canopy_time.md R419, 14_glades_canopy_time.md R429) -/
def Obligations.GladesAndOperatingPoint : Prop :=
  (∀ (s : State) (glade : GladeIx) (level : LevelIx),
     exec (.droopAlarm glade level) s = .next (s.modGlade glade (fun x => { x with alarm := level }))) ∧
  (∀ (s : State) (glade : GladeIx),
     exec (.repay glade) s = .next (if s.gladeRuns glade then s.toCt (s.gladeEdgeAt glade (Tab.get {} s.glades glade)) else s)) ∧
  (∀ (s : State) (glade : GladeIx) (x : Glade),
     (Tab.get {} s.glades glade : Glade) = x →
     exec (.lag glade) s = .next (if x.due &&
        !x.now then (s.raiseLag glade).modGlade glade (fun y => { y with now := decide (y.lam ≠ 0) }) else s)) ∧
  (∀ (s : State) (inp : Inp) (v : W64),
     exec (.opreqWrite inp v) s = .next (let s0 := if bit v 63 then s.clear rOpreq 63 else s
     if s0.flag rOpreq 8 = false ∧ bits v 1 0 = s0.point then s0.event rOpreq 63
     else let s1 := (s0.setFld rOpreq 1 0 (bits v 1 0)).setFlag rOpreq 8
     { s1 with tu := { s1.tu with opAt := s.ct } })) ∧
  (∀ (s : State) (t : Nat),
     s.opTime = some t →
     s.flag rOpreq 8 = true →
     s.throttled = false →
     s.flag rPwrStatM 0 = false →
     exec (.operatingPointChange) s = .next (let s1 := s.toCt (t - 1)
     let p := s1.fld rOpreq 1 0
     let s2 : State := { s1.clrFlag rOpreq 8 with point := p, ct := t, marks := [] }
     s2.regrid (nextMultiple (periodOf p) (t + 640)) (s2.cyc + 1))) ∧
  (∀ (s : State) (inp : Inp) (v : W64),
     exec (.jobepochWrite inp v) s = .next (if s.anyTask then s.event rTstat 59 else s.setReg rJobEpoch v)) ∧
  (∀ (s : State) (inp : Inp) (v : W64),
     exec (.tctlWrite inp v) s = .next (if s.timeState ≤ 1 ∨ s.timeState = 5 then s.setReg rTctl (v &&& 0x1FFFFFFFF) else s.event rTstat 58)) ∧
  (∀ (s : State) (e c : Nat), (s.regrid e c).cyc = c - 1 ∧ (s.regrid e c).nextEdge = e ∧
     (s.regrid e c).glades = s.glades.map (fun p => (p.1, if p.1 < 644 ∧ s.gladeRuns p.1 then { p.2 with lam := 0, str := p.2.alarm, run := 0, now := false, due := false, behind := 0 } else p.2)))

/-- HALL_PPS_EDGE: every module notes when the edge came; a PPS source takes its offset from it, in ACQUIRE first from TSEED; any
other module raises the Keeper's event when it differs by more than 64 ct. PPS_LOST after 1.1 s marks its status;
HALL_REF_LOSS and HALL_REF_GOOD move the unit's state with the reference. LINK_ESTIMATE takes the median of the estimates, the
majority and the offset it gives. TIME_STEP in ACQUIRE corrects the part of the offset that is a multiple of 240 ct and shifts
every recorded instant. ACQUIRE_COMPLETE enters LOCKED or HOLD_NB; HOLDOVER_EXPIRY enters LOST 1 s after HOLD_FREE was
entered. (14_glades_canopy_time.md R420, 14_glades_canopy_time.md R421, 14_glades_canopy_time.md R422,
14_glades_canopy_time.md R424, 14_glades_canopy_time.md R425, 14_glades_canopy_time.md R426, 14_glades_canopy_time.md R427,
14_glades_canopy_time.md R424) -/
def Obligations.TimeUnit : Prop :=
  (∀ (s : State),
     s.ppsSource = true →
     exec (.hallPpsEdge) s = .next (let u := s.setTu (fun u => { u with ppsAt := s.ct })
     let o1 := if decide (s.timeState = 1) &&
        !s.tu.stepped then (40000000000 * ((s.reg rTseed).toNat : Int) + signed 32 (bits (s.reg rTctl) 31 0)) - 4 * (s.ct : Int) else s.ppsOffset
     (u.setOffset o1).setTu (fun u => { u with ppsRun := if o1.natAbs ≤ 8 then u.ppsRun + 1 else 0 }))) ∧
  (∀ (s : State),
     s.ppsSource = false →
     exec (.hallPpsEdge) s = .next (let u := s.setTu (fun u => { u with ppsAt := s.ct })
     if 256 < s.ppsOffset.natAbs then (u.event rTstat 62).raiseKeep 6 else u)) ∧
  (∀ (s : State),
     exec (.ppsLost) s = .next (if s.ppsSource then (s.toCt (s.tu.ppsAt + 11000000000)).event rTstat 61 else s)) ∧
  (∀ (s : State),
     exec (.hallRefLoss) s = .next (if s.tu.refGood then ((s.setTu (fun u => { u with refGood := false })).event rTstat 60).timeSource else s)) ∧
  (∀ (s : State),
     exec (.hallRefGood) s = .next ((s.setTu (fun u => { u with refGood := true })).timeSource)) ∧
  (∀ (s : State), s.tu.refGood = false → (s.majority && !s.ppsSource) = false →
     (s.timeState = 2 → s.timeSource = s.enterTime 4) ∧ (s.timeState = 3 → s.timeSource = s.enterTime 4) ∧ (s.timeState = 4 → s.timeSource = s)) ∧
  (∀ (s : State),
     exec (.linkEstimate) s = .next (let s0 := s.toCt (nextMultiple estEvery (s.ct + 1))
     let es := s0.estimates
     let m := median (es.map (·.2))
     let good := es.filter (fun e => decide ((e.2 - m).natAbs ≤ 12))
     let maj := decide (3 ≤ good.length) && decide (es.length < 2 * good.length)
     let s1 := (es.filter (fun e => decide (12 < (e.2 - m).natAbs))).foldl (fun s e => s.countMod 32 32 (blkCANO e.1 + 0x40) 1) s0
     let s2 := ((s1.setFld rTstat 47 40 (if maj then good.length else 0)).setFld rTstat 39 32 es.length).setFld rTstat 4 4 maj.toNat
     let s3 := if maj && !s2.ppsSource then s2.setOffset ((good.foldl (fun a e => a + e.2) 0) / (good.length : Int)) else s2
     ((List.range 24).foldl (fun s k => s.closeDelay k) s3).timeSource)) ∧
  (∀ (s : State) (z : Int),
     s.tu.offset = some z →
     s.timeState = 1 →
     s.tu.stepped = false →
     exec (.timeStep) s = .next (let d : Int := 240 * (z.tdiv 960)
     let s1 := (s.toCt (nextMultiple 240 s.ct)).setOffset (z - 4 * d)
     let s2 := s1.setTu (fun u => { u with stepped := true, qualAt := shiftCt d u.qualAt, ppsAt := shiftCt d u.ppsAt, opAt := shiftCt d u.opAt, inBand := u.inBand.map (shiftCt d) })
     if d = 0 then s2
     else { s2.event rTstat 63 with ct := shiftCt d s2.ct, root := s2.root + ((shiftCt d s2.ct : Nat) : Int) - s2.ct, nextEdge := shiftCt d s2.nextEdge, prevEdge := shiftCt d s2.prevEdge, thrBase := (shiftCt d s2.thrBase.1, s2.thrBase.2), thrEnd := shiftCt d s2.thrEnd, cores := s2.cores.map (fun p => (p.1, p.2.shift d)), refAt := s2.refAt.map (fun p => (p.1, shiftCt d p.2)), mr4At := s2.mr4At.map (fun p => (p.1, shiftCt d p.2)), bankBlk := s2.bankBlk.map (fun p => (p.1, shiftCt d p.2)), osc := s2.osc.map (fun p => (p.1, shiftCt d p.2)), wokeAt := [], retraining := s2.retraining.map (fun p => (p.1, shiftCt d p.2)), pprBusy := s2.pprBusy.map (fun p => (p.1, shiftCt d p.2)), flushAt := s2.flushAt.map (fun p => (p.1, shiftCt d p.2)), hch := s2.hch.map (fun p => (p.1, p.2.map (fun h => { h with since := shiftCt d h.since }))) })) ∧
  (∀ (s : State),
     s.timeState = 1 →
     s.tu.stepped = true →
     s.ppsSource = true →
     3 ≤ s.tu.ppsRun →
     exec (.acquireComplete) s = .next (s.enterTime (if s.tu.refGood then 2 else 3))) ∧
  (∀ (s : State) (t : Nat),
     s.timeState = 1 →
     s.tu.stepped = true →
     s.ppsSource = false →
     s.tu.inBand = some t →
     s.majority = true →
     exec (.acquireComplete) s = .next ((s.toCt (t + 100000000)).enterTime (if (s.toCt (t + 100000000)).tu.refGood then 2 else 3))) ∧
  (∀ (s : State),
     exec (.holdoverExpiry) s = .next (if s.timeState = 4 then (s.toCt (s.tu.holdAt + 10000000000)).enterTime 5 else s))

/-- SLOT brings time to the link's next slot, takes the flit its state and its table direct, sends the image with the control
word, and keeps DATA and RED flits for 40 slots. SLOT_RECEIVE counts the corrected codewords; with an uncorrectable one it
counts the slot lost and asks for it; otherwise it reads the control word, and takes the flit by its type: DATA and RED of a
scheduled link, SIDE and FLOOD. RETRY_REQUEST_TIMEOUT gives up the oldest request and fails the step; SIDE_RESEND makes
unacknowledged side flits due again 128 slots after they were sent. (15_canopy_links.md R432, 15_canopy_links.md R434,
15_canopy_links.md R436, 15_canopy_links.md R439, 15_canopy_links.md R444, 15_canopy_links.md R445, 15_canopy_links.md R449,
15_canopy_links.md R451) -/
def Obligations.CanopySlots : Prop :=
  (∀ (s : State) (link : LinkIx),
     s.linkUp link = true →
     exec (.slot link) s = .next (let n0 := Nat.max (s.link link).nextSlot ((s.ct + slotCt - 1) / slotCt)
     let n := if (s.link link).single && n0 % 2 = 1 then n0 + 1 else n0
     let s1 := s.toCt (slotCt * n)
     let r := s1.slotFlit link n
     (r.1.send (.slot link n (slotImage r.2 (r.1.controlWord link n)))).modLink link (fun l => { l with nextSlot := n + (if l.single then 2 else 1), racks := l.racks.drop 1, store := (l.store ++ (if Hdr.scheduled r.2.hdr then [(n, r.2)] else [])).filter (fun x => decide (n < x.1 + 40)), answered := l.answered.filter (fun a => decide (n < a + 40)), rxOffs := l.rxOffs.filter (fun p => decide (n < p.1 + 512)), carried := l.carried.filter (fun m => decide (n < m + relaySpan)), crossLost := l.crossLost.filter (fun m => decide (n < m + 64)) }))) ∧
  (∀ (s : State) (k n : Nat), (s.linkState k = 2 → s.slotFlit k n = s.takeSide k n) ∧
     (s.linkState k ≠ 2 → s.entry k n / 8192 = 1 → s.slotFlit k n = s.sendFlit k n (s.entry k n % 16)) ∧
     (s.linkState k ≠ 2 → s.entry k n / 8192 = 2 → s.slotFlit k n = if s.entry k n % 32 < 24 then s.forward k (s.entry k n % 32) n else (s, voidFlit)) ∧
     (s.linkState k ≠ 2 → s.entry k n / 8192 = 3 → s.slotFlit k n = s.retrySlot k n) ∧
     (s.linkState k ≠ 2 → (s.entry k n / 8192 = 0 ∨ 4 ≤ s.entry k n / 8192) → s.slotFlit k n = s.takeSide k n)) ∧
  (∀ (s : State) (link : LinkIx) (n : Nat) (image : Image) (fec : B4) (oneLane : Bool) (rx : Int),
     s.linkUp link = true →
     2 ≤ fecOf fec.toNat 0 ∨ 2 ≤ fecOf fec.toNat 1 →
     exec (.slotReceive link n (oneLane, image) fec rx) s = .next (let t := ((4 * slotCt * (n + if oneLane then 2 else 1) : Nat) + rx).toNat
     (((s.toCt ((t + 3) / 4 + slotCt)).countMod 32 32 (rCanoCnt link 0) ((fecOf fec.toNat 0 == 1).toNat + (fecOf fec.toNat 1 == 1).toNat)).countLink link 1).slotLost link n)) ∧
  (∀ (s : State) (link : LinkIx) (n : Nat) (image : Image) (fec : B4) (oneLane : Bool) (rx : Int) (f : Flit) (t : Nat),
     s.linkUp link = true →
     fecOf fec.toNat 0 < 2 →
     fecOf fec.toNat 1 < 2 →
     (⟨BitVec.ofNat 128 (bits image 127 0), BitVec.ofNat 2048 (bits image 2175 128)⟩ : Flit) = f →
     ((4 * slotCt * (n + if oneLane then 2 else 1) : Nat) + rx : Int).toNat = t →
     exec (.slotReceive link n (oneLane, image) fec rx) s = .next (let s3 := ((s.toCt ((t + 3) / 4 + slotCt)).countMod 32 32 (rCanoCnt link 0) ((fecOf fec.toNat 0 == 1).toNat + (fecOf fec.toNat 1 == 1).toNat)).readControl link n rx (BitVec.ofNat 64 (bits image 2239 2176))
     if Hdr.type f.hdr = 1 ∨ Hdr.type f.hdr = 2 then (if 3 ≤ s3.linkState link then s3.scheduledFlit link n t f else s3)
     else if Hdr.type f.hdr = 3 ∨ Hdr.type f.hdr = 5 then s3.acceptSide link f.hdr f.body else s3)) ∧
  (∀ (s : State) (link : LinkIx) (m : Nat) (rest : List Nat),
     (s.link link).asks = m :: rest →
     exec (.retryRequestTimeout link) s = .next (((s.toCt (slotCt * (m + 40))).modLink link (fun l => { l with asks := rest })).failCanopy link 4 m)) ∧
  (∀ (s : State) (link : LinkIx) (q m : Nat) (f : SideFlit) (rest : List (Nat × Nat × SideFlit)),
     (s.link link).unacked = (q, m, f) :: rest →
     exec (.sideResend link) s = .next ((s.toCt (slotCt * (m + 128))).sideDue link ((s.toCt (slotCt * (m + 128))).ct / slotCt)))

/-- DMA_GO of an idle channel that no CRU feeds starts it, and otherwise sets ERR. DMA_ROW_READ puts the two flits of the next row
into the FIFO, ends the channel with its last row, or with an error where the row cannot be read. BANK_SWAP marks a swap
pending; SLOT_TABLE_SWAP makes it at the first multiple of 114,688 ct inside a clearing. LANE_FAILURE sets LDEG and takes the
link down with its last lane; LANE_DEGRADE sends on one lane from the first even slot 64 slots on. SCHED_ENTRY with its
conditions met enters SCHED; RECAL requests, FULL_RECALIBRATION measures; CANOPY_TRAIN brings a link up. (15_canopy_links.md
R437, 15_canopy_links.md R440, 15_canopy_links.md R454, 15_canopy_links.md R455, 15_canopy_links.md R456, 15_canopy_links.md
R458) -/
def Obligations.CanopyChannelsAndLinks : Prop :=
  (∀ (s : State) (inp : Inp) (v : W64) (edge : EdgeIx) (ch : ChIx),
     exec (.dmaGo inp edge ch v) s = .next (let r := rTx edge ch 2
     let clear (x : W64) : W64 := if bit v 19 && !bit (s.kept r) 19 then setBit x 19 false else x
     if bit (s.reg r) 18 || bit (s.reg r) 17 || bit v 17 then s.setReg r (setBit (clear (s.reg r)) 19 true)
     else { s.setReg r (setBit (clear (setBits (s.reg r) 17 0 (bits v 15 0))) 18 true) with dma := Tab.put s.dma (16 * edge.val + ch.val) 0 })) ∧
  (∀ (s : State) (edge : EdgeIx) (ch : ChIx),
     s.flag (rTx edge ch 2) 18 = true →
     (s.fifo edge ch).length ≤ 62 →
     s.dmaHeld edge ch = false →
     exec (.dmaRowRead edge ch) s = .next (let s0 := s.toCt (s.reg (rTx edge ch 3)).toNat
     let j := Tab.get 0 s0.dma (16 * edge.val + ch.val)
     let got := s0.dmaSource edge ch j
     if got.2.isNone then got.1.dmaEnd edge ch true
     else
     let last := decide (got.1.fld (rTx edge ch 2) 15 0 ≤ j)
     let fl := (dataFlits (s0.reg (rTx edge ch 1)) j last (got.2.getD 0)).map (fun f => (⟨f, bits (s0.reg (rTx edge ch 1)) 62 58 + 1, 0⟩ : FifoFlit))
     let s2 : State := { got.1.setFifo edge ch (got.1.fifo edge ch ++ fl) with dma := Tab.put got.1.dma (16 * edge.val + ch.val) (j + 1) }
     if last then s2.dmaEnd edge ch false else s2)) ∧
  (∀ (s : State) (inp : Inp),
     exec (.bankSwap inp) s = .next (s.setFlag rBank 1)) ∧
  (∀ (s : State) (t : Nat),
     s.flag rBank 1 = true →
     s.clearingMultiple slotCycle = some t →
     exec (.slotTableSwap) s = .next (((s.toCt t).clrFlag rBank 1).setFld rBank 0 0 (1 - s.fld rBank 0 0))) ∧
  (∀ (s : State) (link : LinkIx) (lane : Bool),
     s.linkUp link = true →
     exec (.laneFailure link lane) s = .next (let s2 := (s.setFld (rCanoStat link) (11 + lane.toNat) (11 + lane.toNat) 0).modLink link (fun l => { l with ldeg := true })
     if s2.fld (rCanoStat link) 12 11 = 0 then (s2.unschedule link).setFld (rCanoStat link) 2 0 0 else s2.degrade link)) ∧
  (∀ (s : State) (link : LinkIx) (m : Nat),
     (s.link link).ldegSeen = some m →
     (s.link link).single = false →
     s.linkUp link = true →
     exec (.laneDegrade link) s = .next (let k := (m + 65) / 2 * 2
     let s1 := s.toCt (slotCt * k)
     let lost := if Config.lostLane s1.free then 10 else 9
     let s2 : State := { s1.setFld (rCanoStat link) lost lost 0 with free := s1.free + 1 }
     (s2.modLink link (fun l => { l with single := true, nextSlot := Nat.max l.nextSlot k })).degrade link)) ∧
  (∀ (s : State) (link : LinkIx) (t : Nat),
     s.linkState link = 2 →
     s.fld (rCanoStat link) 12 9 = 15 →
     (s.link link).calibrated = true →
     s.admitted link = true →
     s.flag rTstat 3 = true →
     s.flag (rCanoStat link) 14 = true →
     s.clearingMultiple slotCycle = some t →
     exec (.schedEntry link) s = .next ((s.toCt t).setFld (rCanoStat link) 2 0 3)) ∧
  (∀ (s : State) (inp : Inp) (link : LinkIx),
     exec (.recal inp link) s = .next (s.setFlag (rCanoStat link) 15)) ∧
  (∀ (s : State) (link : LinkIx) (txoff alpha delay delayr : W16) (s0 : State),
     s.linkUp link = true →
     s.flag (rCanoStat link) 15 = true ∨ (s.link link).calibrated = false →
     (if s.inClearing then s else s.toCt (s.reg rClrBegin).toNat) = s0 →
     s0.inClearing = true →
     exec (.fullRecalibration link txoff alpha delay delayr) s = .next (let loop := 4 + (delay.toNat + 111) / 112 + (delayr.toNat + 111) / 112
     let s1 := s0.setReg (rCanoCal link) (BitVec.ofNat 64 (delay.toNat + alpha.toNat * 2 ^ 16 + loop % 256 * 2 ^ 40 + delayr.toNat * 2 ^ 48))
     let s2 := (s1.clrFlag (rCanoStat link) 15).setFld (rCanoStat link) 12 9 15
     let s3 := if s2.linkState link = 4 then s2.setFld (rCanoStat link) 2 0 2 else s2
     let s4 := s3.modLink link (fun l => { l with calibrated := true, ldeg := false, ldegSeen := none, single := false, txOff := signed 16 txoff.toNat })
     let s5 := s4.queueSide (edgeOfLink link, 15) link ⟨false, Config.calDest link % 2 ^ 17, 0, Config.calBody (signed 16 txoff.toNat)⟩
     if s5.admitted link then s5 else s5.unschedule link)) ∧
  (∀ (s : State) (link : LinkIx) (lanes : B4),
     s.flag (rCanoCtl link) 0 = true →
     s.linkUp link = false →
     exec (.canopyTrain link lanes) s = .next (if lanes.toNat % 4 = 0 ∨ lanes.toNat / 4 % 4 = 0 then s.setFld (rCanoStat link) 2 0 1
     else ((s.setFld (rCanoStat link) 12 9 lanes.toNat).setFld (rCanoStat link) 2 0 2).modLink link (fun l => {
     side := l.side, unacked := l.unacked, again := l.again, codeNew := l.codeNew, nextSlot := (s.ct + slotCt - 1) / slotCt,
     single := decide (lanes.toNat % 4 ≠ 3), ldeg := decide (lanes.toNat / 4 % 4 ≠ 3) })))

/-- BUCKET_WRITE and STAGE_WRITE store a legal word while the phase allows it, and otherwise set their refusal. BUCKET_PART_FULL
of a slice whose count has reached its part reports it, and with the last part the bucket is full; BUCKET_DEADLINE of a bucket
not full fails the step. RED_FLIT_ACCEPT puts a flit of a stage, new and with matching residues, into the input buffer.
STAGE_FLIT_FORM reads the local operand within the 448 ct before the stage's slot, combines it with the input, as one of at
most four flits in a slot, and sends the result; late or missing, it fills the slot and fails the step. Either way the module
becomes ready where nothing else is missing. (16_chain_reduction_swarm.md R460, 16_chain_reduction_swarm.md R461,
16_chain_reduction_swarm.md R462, 16_chain_reduction_swarm.md R463, 16_chain_reduction_swarm.md R472,
16_chain_reduction_swarm.md R475, 16_chain_reduction_swarm.md R476, 16_chain_reduction_swarm.md R477) -/
def Obligations.BucketsAndStages : Prop :=
  (∀ (s : State) (inp : Inp) (v : W64) (j : JobIx) (word : B2),
     exec (.bucketWrite inp j word v) s = .next (let w := v &&& bucketMask word.toNat
     let fine := s.phase == 0 && (if bit (s.reg (rBkt j 0)) 63 then word.toNat == 0 && !(bit w 63) else word.toNat != 0 ||
        !(bit w 63) || s.bucketOk j w)
     if fine then s.setReg (rBkt j word.toNat) (if word.toNat = 3 then w |||
        (s.reg (rBkt j 3) &&& BitVec.ofNat 64 (2 ^ 63)) else w) else s.event rCmtStat 62)) ∧
  (∀ (s : State) (i : CoreIx) (j : JobIx),
     bit (s.reg (rBkt j 0)) 63 = true →
     (s.bucketCores j).contains i.val = true →
     s.partSize j ≤ Tab.get 0 (s.core i).wcount j →
     s.released = true →
     exec (.bucketPartFull j i) s = .next (let s1 : State := if s.cmt.parts.contains (j.val, i.val) then s else { s with cmt := { s.cmt with parts := (j.val, i.val) :: s.cmt.parts } }
     if (s1.bucketCores j).all (fun x => s1.cmt.parts.contains (j.val, x)) then s1.setFlag (rBkt j 3) 63 else s1)) ∧
  (∀ (s : State) (j : JobIx),
     bit (s.reg (rBkt j 0)) 63 = true →
     2 ≤ s.phase →
     exec (.bucketDeadline j) s = .next (let s1 := s.toCt ((s.reg rCmtRel).toNat + bits (s.reg (rBkt j 3)) 39 0)
     if s1.flag (rBkt j 3) 63 then s1 else s1.failRel (s1.reg rCmtRelno).toNat 1)) ∧
  (∀ (s : State) (inp : Inp) (v : W64) (cru : EdgeIx) (k : JobIx) (word : Bool),
     exec (.stageWrite inp cru k word v) s = .next (if word = false ∧ bit v 63 then (if s.phase = 0 ∧ bit (s.reg (rBkt (Stage.job v) 0)) 63 ∧ Stage.permitted v ∧ s.cruFed cru (Stage.fifo v) then s.setReg (rStg cru k 0) v else s.event (rCruStat cru) 16)
     else s.setReg (rStg cru k word.toNat) v)) ∧
  (∀ (s : State) (link : LinkIx) (f : Flit) (index kind e k : Nat) (w : W64),
     s.redIn.find? (fun p => p.1 == link.val) = some (link.val, f) →
     2 ≤ s.phase →
     bits f.hdr 65 32 % 2 ^ 22 = index →
     bits f.hdr 65 32 / 2 ^ 22 % 4 = kind →
     kind ≠ 3 →
     s.redStage link (bits f.hdr 77 66) index kind = some (e, k, w) →
     s.redSeen.contains (4096 * e + k, index) = false →
     residues kind (redLanes kind f.body.toNat).1 = (redLanes kind f.body.toNat).2 →
     (s.inbuf.filter (fun x => x.cru == e && x.link == link.val)).length < 64 →
     exec (.redFlitAccept link) s = .next ({ s with redIn := s.redIn.erase (link.val, f), redSeen := (4096 * e + k, index) :: s.redSeen, inbuf := s.inbuf ++ [⟨e, link, bits f.hdr 77 66, index, kind, f.body⟩] })) ∧
  (∀ (s : State) (link : LinkIx) (f : Flit) (index kind e k : Nat) (w : W64),
     s.redIn.find? (fun p => p.1 == link.val) = some (link.val, f) →
     2 ≤ s.phase →
     bits f.hdr 65 32 % 2 ^ 22 = index →
     bits f.hdr 65 32 / 2 ^ 22 % 4 = kind →
     kind ≠ 3 →
     s.redStage link (bits f.hdr 77 66) index kind = some (e, k, w) →
     s.redSeen.contains (4096 * e + k, index) = false →
     residues kind (redLanes kind f.body.toNat).1 ≠ (redLanes kind f.body.toNat).2 →
     exec (.redFlitAccept link) s = .next (({ s with redIn := s.redIn.erase (link.val, f) } : State).mismatch e (some link))) ∧
  (∀ (s : State) (cru : EdgeIx) (k : JobIx) (due : Nat),
     2 ≤ s.phase →
     bit (s.reg (rStg cru k 0)) 63 = true →
     s.progress cru k < Stage.nflits (s.reg (rStg cru k 0)) →
     ¬ (Stage.toFifo (s.reg (rStg cru k 0)) ∧ s.stageWaits cru k (s.reg (rStg cru k 0))) →
     s.stageSlot cru k = some due →
     (decide (Stage.isrc (s.reg (rStg cru k 0)) < 24) && (s.stageInput cru k).isNone) = false →
     ¬ (Stage.toFifo (s.reg (rStg cru k 0)) ∧ slotCt * due - 112 < s.ct) →
     exec (.stageFlitForm cru k) s = .next (let w := s.reg (rStg cru k 0)
     let w1 := s.reg (rStg cru k 1)
     let index := Stage.first w + s.progress cru k
     let kind := s.stageKind w
     let inp := s.stageInput cru k
     let r := (if Stage.toFifo w then s.toCt (slotCt * due - 448) else s).localOperand cru w w1 kind index
     let t := r.1.formTurn cru
     let lanes := combineLanes kind (inp.map (fun x => redLanes kind x.body.toNat)) r.2.2
     (if r.2.1 = false then ((r.1.stageMark cru k due w inp).stageFill cru w due).failStep 3
     else if Stage.toFifo w && decide (slotCt * due - 112 < t.ct) then t.stageMissed cru k due w inp
     else (t.stageMark cru k due w inp).stageOut cru w w1 kind index due lanes.1 lanes.2).tryReady)) ∧
  (∀ (s : State) (cru : EdgeIx) (k : JobIx) (due : Nat),
     2 ≤ s.phase →
     bit (s.reg (rStg cru k 0)) 63 = true →
     s.progress cru k < Stage.nflits (s.reg (rStg cru k 0)) →
     ¬ (Stage.toFifo (s.reg (rStg cru k 0)) ∧ s.stageWaits cru k (s.reg (rStg cru k 0))) →
     s.stageSlot cru k = some due →
     Stage.toFifo (s.reg (rStg cru k 0)) = true →
     slotCt * due - 112 < s.ct ∨ (decide (Stage.isrc (s.reg (rStg cru k 0)) < 24) && (s.stageInput cru k).isNone) = true →
     exec (.stageFlitForm cru k) s = .next (((((s.toCt (slotCt * due - 112)).stageMark cru k due (s.reg (rStg cru k 0)) (s.stageInput cru k)).stageFill cru (s.reg (rStg cru k 0)) due).failStep 7).tryReady))

/-- ARRIVE in IDLE of a booted module marks it arrived, otherwise it is refused; ARRIVED and READY of a child are recorded for the
release they name and passed on once all have come. RELEASE sets the release time once; STEP_RELEASE at it begins the step and
empties the reduction state; a step that expects nothing is ready at once. COMMIT_ARRIVAL counts the oldest core arrival.
ALLREADY and FAIL are recorded, and against a decision already taken they are a split. STEP_DEADLINE fails a module not ready.
COMMIT_POINT decides: commit where ALLREADY came and no failure. Configuration is written in IDLE only; FAIL of the runtime
fails the step. (12_schedule_contract.md R376, 12_schedule_contract.md R377, 16_chain_reduction_swarm.md R481,
16_chain_reduction_swarm.md R482, 16_chain_reduction_swarm.md R483, 16_chain_reduction_swarm.md R484,
16_chain_reduction_swarm.md R485, 16_chain_reduction_swarm.md R486, 16_chain_reduction_swarm.md R491,
16_chain_reduction_swarm.md R479) -/
def Obligations.SwarmBarrierAndCommit : Prop :=
  (∀ (s : State) (inp : Inp),
     exec (.arrive inp) s = .next (if s.phase ≠ 0 ∨ s.bootReady = false then s.event rCmtStat 61 else ((s.setFld rCmtStat 1 0 1).modCmt (fun c => { c with arrMax := Nat.max c.arrMax s.ct })).tryArrived)) ∧
  (∀ (s : State) (inp : Inp),
     exec (.runtimeFail inp) s = .next (s.failStep 14)) ∧
  (∀ (s : State) (link : LinkIx) (relno : W32) (time : W64),
     exec (.arrived link relno time) s = .next (if relno ≠ w32 (s.relno + 1) ∨ s.children.contains link.val = false then s else (s.modCmt (fun c => { c with arrKids := if c.arrKids.contains link.val then c.arrKids else link.val :: c.arrKids, arrMax := Nat.max c.arrMax time.toNat })).tryArrived)) ∧
  (∀ (s : State) (relno : W32) (time : W64),
     relno = w32 (s.relno + 1) →
     s.cmt.release = none →
     exec (.release relno time) s = .next (let s1 := (s.setReg rCmtRel (BitVec.ofNat 64 time.toNat)).modCmt (fun c => { c with release := some time.toNat })
     let s2 := (List.range 320).foldl (fun s i => s.wakeSource i 2) ((s1.raiseAll 649).msix 11)
     if time.toNat < s.ct + bits (s.reg rCmtT0) 63 32 then s2.failRel (s.relno + 1) 10 else s2)) ∧
  (∀ (s : State) (t : Nat),
     s.cmt.release = some t →
     exec (.stepRelease) s = .next (let s2 := ((s.toCt t).setReg rCmtRelno ((s.toCt t).reg rCmtRelno + 1)).setFld rCmtStat 1 0 2
     let s3 := s2.setFld rCmtStat 26 16 0
     let s4 := s3.bucketsFull.foldl (fun s j => s.clrFlag (rBkt j 3) 63) s3
     ({ s4 with cores := s4.cores.map (fun p => (p.1, { p.2 with wcount := [] })), stages := [], fifoDue := [], redSeen := [], inbuf := [], redIn := [], formed := [], cmt := { s4.cmt with release := none, parts := [], arrKids := [], arrMax := 0, arrSent := false, readyKids := [], readySent := false } } : State).tryReady)) ∧
  (∀ (s : State) (link : LinkIx) (relno : W32),
     exec (.ready link relno) s = .next (if relno ≠ w32 s.relno ∨ s.children.contains link.val = false then s else (s.modCmt (fun c => { c with readyKids := if c.readyKids.contains link.val then c.readyKids else link.val :: c.readyKids })).tryReady)) ∧
  (∀ (s : State) (relno : W32),
     exec (.allready relno) s = .next (if s.decision relno = some false then s.split else s.modCmt (fun c => { c with allready := relno :: c.allready }))) ∧
  (∀ (s : State) (relno : W32) (cause : B8),
     exec (.failToken relno cause) s = .next (
     let s1 := if s.cmt.failed.contains relno || s.failRecorded relno.toNat then s else s.recordFail relno.toNat 13
     if s.decision relno = some true then s1.split else if s.decision relno = some false then s1 else if s.cmt.failed.contains relno then s else s1.modCmt (fun c => { c with failed := relno :: c.failed }))) ∧
  (∀ (s : State) (x y z : Nat) (fail : Bool) (rest : List (Nat × Nat × Bool × Nat)),
     s.cmt.arrivals = (x, y, fail, z) :: rest →
     exec (.commitArrival) s = .next (let s0 := s.modCmt (fun c => { c with arrivals := rest })
     let s1 := s0.setReg rCmtStat (plainCount 26 16 1 (s0.reg rCmtStat))
     (if fail then s1.failStep 8 else s1).tryReady)) ∧
  (∀ (s : State),
     2 ≤ s.phase →
     exec (.stepDeadline) s = .next (if (s.toCt s.deadline).phase = 2 then (s.toCt s.deadline).failStep 11 else s.toCt s.deadline)) ∧
  (∀ (s : State),
     2 ≤ s.phase →
     exec (.commitPoint) s = .next (let s1 := s.toCt (s.deadline + bits (s.reg rCmtT1) 63 40)
     let rel := w32 s1.relno
     let commit := s1.cmt.allready.contains rel && !(s1.cmt.failed.contains rel)
     let s2 := (s1.setFld rCmtStat 3 2 (if commit then 1 else 2)).setFld rCmtStat 1 0 0
     let s3 := if commit then s2.setReg rCmtStep (s2.reg rCmtStep + 1) else s2
     let s4 := ((s3.raiseAll 650).msix 10).raiseKeep 14
     { s4 with stages := [], inbuf := [], redSeen := [], redIn := [], cmt := { s4.cmt with decided := (s1.relno, commit) :: s4.cmt.decided, allready := s4.cmt.allready.filter (· ≠ rel), failed := s4.cmt.failed.filter (· ≠ rel), ctxFail := s4.cmt.ctxFail.filter (· ≠ rel) } })) ∧
  (∀ (s : State) (inp : Inp) (v : W64) (off : Nat),
     off = 0x40028 →
     exec (.cmtConfigWrite inp off v) s = .next (if s.phase = 0 then s.setReg (blkCRU + off) (v &&& BitVec.ofNat 64 (2 ^ 48 - 2 ^ 24 + 2 ^ 18 - 1)) else s.event rCmtStat 62)) ∧
  (∀ (s : State) (inp : Inp) (v : W64) (off : Nat),
     off = 0x40030 →
     exec (.cmtConfigWrite inp off v) s = .next (if s.phase = 0 then s.setReg (blkCRU + off) (v &&& BitVec.ofNat 64 (2 ^ 64 - 1)) else s.event rCmtStat 62)) ∧
  (∀ (s : State) (inp : Inp) (v : W64) (off : Nat),
     off = 0x40038 →
     exec (.cmtConfigWrite inp off v) s = .next (if s.phase = 0 then s.setReg (blkCRU + off) (v &&& BitVec.ofNat 64 (2 ^ 64 - 1)) else s.event rCmtStat 62)) ∧
  (∀ (s : State) (inp : Inp) (v : W64) (off : Nat),
     off = 0x40040 →
     exec (.cmtConfigWrite inp off v) s = .next (if s.phase = 0 then s.setReg (blkCRU + off) (v &&& BitVec.ofNat 64 (0x7FF)) else s.event rCmtStat 62))

/-- LINK_ECC_REREAD counts a link error, and an uncorrectable one marks the burst and raises the Keeper's event.
CHECK_BUFFER_FLUSH empties a channel's buffers at a multiple of 114,688 ct. PER_BANK_REFRESH refreshes the next bank of a rank
at its instant, after those whose time has passed, blocks it for 1,400 ct and at one refresh in 64 starts the oscillator.
MR4_POLL records the reading and the write link errors, and plans the pattern it requires. REFRESH_PATTERN_CHANGE puts a
planned pattern in force, with the refreshes of the old one accounted for. WCK2DQ_TRACKING, 1,000 ct after the oscillator
started, records the count; the delay step it takes is open. (17_cellar.md R495, 17_cellar.md R500, 17_cellar.md R501,
17_cellar.md R502, 17_cellar.md R503, 17_cellar.md R504, 17_cellar.md R505) -/
def Obligations.CellarErrorsAndRefresh : Prop :=
  (∀ (s : State) (ch : CellChIx) (burst : Nat) (clean : Bool),
     exec (.linkEccReread ch burst clean) s = .next (if clean then s.countMod 32 32 (rCh ch 2) 1
     else
     let s1 := (s.countMod 32 32 (rCh ch 3) 1).countMod 32 32 (rCh ch 1) 1
     let s2 := (s1.cellErr ch burst (Config.linkWord s.free % 8) true true).raiseKeep 5
     { s2 with linkBad := s2.linkBad ++ [96 * burst + ch.val], free := s2.free + 1 })) ∧
  (∀ (s : State) (ch : CellChIx),
     exec (.checkBufferFlush ch) s = .next (let t := nextMultiple slotCycle (Nat.max s.ct (Tab.get 0 s.flushAt ch))
     { s.toCt t with flushAt := Tab.put (s.toCt t).flushAt ch (t + 1), chk := [0, 1, 2].foldl (fun m j => Tab.put m (ch.val * 3 + j) []) (s.toCt t).chk })) ∧
  (∀ (s : State) (ch : CellChIx) (rank : Bool),
     s.devHeld (devOf ch) = false →
     exec (.perBankRefresh ch rank) s = .next (let key := 2 * ch.val + rank.toNat
     let s1 := s.refreshPast key
     let t := refreshFrom key (refInterval (s.pattern (devOf ch))) (Nat.max s.ct (Tab.get 0 s1.refAt key))
     let s2 := s1.toCt t
     let k := Tab.get 0 s2.refBank key
     { s2 with refAt := Tab.put s2.refAt key (t + 1), refBank := Tab.put s2.refBank key (k + 1), bankBlk := Tab.put s2.bankBlk (key * 16 + k % 16) (t + 1400), osc := if k % 64 = 0 then Tab.put s2.osc key (t + 1000) else s2.osc })) ∧
  (∀ (s : State) (ch : CellChIx) (rank : Bool) (field : B8) (linkce : W32),
     exec (.mr4Poll ch rank field linkce) s = .next (let key := 2 * ch.val + rank.toNat
     let t := nextMultiple mr4Every (Nat.max s.ct (Tab.get 0 s.mr4At key))
     let s1 := (s.toCt t).countMod 32 32 (rCh ch 2) linkce.toNat
     let first := (ranksOf (devOf ch)).any (fun r => (Tab.get [] s.mr4 r).isEmpty)
     let s2 : State := { s1 with mr4At := Tab.put s1.mr4At key (t + 1), mr4 := Tab.put s1.mr4 key ((field.toNat :: Tab.get [] s1.mr4 key).take 16) }
     s2.mr4Plan (devOf ch) field.toNat first t)) ∧
  (∀ (s : State) (dev : DevIx) (p due : Nat),
     s.devHeld dev = false →
     Tab.find s.patPend dev = some (p, due) →
     exec (.refreshPatternChange dev) s = .next (let s1 := (s.toCt (if s.ct ≤ due then due else nextMultiple slotCycle s.ct)).refreshDev dev
     let s2 : State := { s1.setFld (rDev dev) 1 0 p with patPend := Tab.erase s1.patPend dev }
     if s1.pattern dev < p then ((s2.event (rDev dev) 62).setReg (rDev dev) (plainCount 31 16 1 (setBit (s2.reg (rDev dev)) 62 true))).raiseKeep 4 else s2)) ∧
  (∀ (s : State) (dev : DevIx) (p t : Nat),
     s.devHeld dev = false →
     Tab.find s.patPend dev = none →
     Tab.find s.slower dev = some p →
     s.clearingMultiple slotCycle = some t →
     exec (.refreshPatternChange dev) s = .next (let s1 := (s.toCt t).refreshDev dev
     { (s1.setFld (rDev dev) 1 0 p).clrFlag (rDev dev) 6 with slower := Tab.erase s1.slower dev })) ∧
  (∀ (s : State) (ch : CellChIx) (rank : Bool) (count : W16) (t : Nat),
     Tab.find s.osc (2 * ch.val + rank.toNat) = some t →
     exec (.wck2dqTracking ch rank count) s = .next (let key := 2 * ch.val + rank.toNat
     let s1 := s.toCt t
     let d : Int := match Config.trackStep s1.free with | 0 => 0 | 1 => 1 | _ => -1
     { s1 with wck := Tab.put s1.wck key (count.toNat, (Tab.get (0, 0) s1.wck key).2 + d), osc := Tab.erase s1.osc key, free := s1.free + 1 }))

/-- SHARE_WRITE of shares that sum to 10, each at least 1, is left pending, other shares are refused, and the present ones change
nothing; SHARE_CHANGE puts pending shares in force at the first multiple of 300 ct inside a clearing. RETRAIN requests a
device's retraining; FULL_RETRAINING begins it, one device at a time on an Edge die; RETRAINING_END ends it. PPR requests a
repair of a device with one left, POST_PACKAGE_REPAIR begins it inside a clearing, and HPPR_COMPLETE corrects the single-bit
errors of the row and counts it. (09_forager_streams_cellar_queues.md R298, 17_cellar.md R506, 17_cellar.md R507, 17_cellar.md
R509) -/
def Obligations.CellarSharesRetrainingAndRepair : Prop :=
  (∀ (s : State) (inp : Inp) (v : W64),
     exec (.shareWrite inp v) s = .next (let s0 := if bit v 63 then s.clear rShare 63 else s
     if bits v 11 0 = s.fld rShare 11 0 then s0
     else if 1 ≤ bits v 3 0 ∧ 1 ≤ bits v 7 4 ∧ 1 ≤ bits v 11 8 ∧ bits v 3 0 + bits v 7 4 + bits v 11 8 = 10 then (s0.setFld rShare 11 0 (bits v 11 0)).setFlag rShare 28
     else s0.event rShare 63)) ∧
  (∀ (s : State) (t : Nat),
     s.flag rShare 28 = true →
     s.clearingMultiple 300 = some t →
     exec (.shareChange) s = .next (((s.toCt t).setFld rShare 27 16 ((s.toCt t).fld rShare 11 0)).clrFlag rShare 28)) ∧
  (∀ (s : State) (inp : Inp) (v : W64),
     exec (.retrain inp v) s = .next (if bit v 4 = false then s else if 11 < bits v 3 0 then s.event rCellStat 7 else s.setFlag (rDev (bits v 3 0)) 7)) ∧
  (∀ (s : State) (dev : DevIx),
     exec (.fullRetraining dev) s = .next (let mates := (List.range 6).map (fun j => 6 * (dev.val / 6) + j)
     if s.flag (rDev dev) 7 && s.mayRetrain && mates.all (fun e => !s.devHeld e) && mates.all (fun e => decide (dev.val ≤ e) ||
        !s.flag (rDev e) 7) then { ((s.refreshDev dev).clrFlag (rDev dev) 7).setFlag rCellStat 0 with retraining := Tab.put s.retraining dev s.ct, running := Tab.put s.running 4 (s.nv.slot 4 (s.nv.activeHalf 4)) } else s)) ∧
  (∀ (s : State) (dev : DevIx),
     s.devHeld dev = true →
     exec (.retrainingEnd dev) s = .next (let s2 := (({ s with retraining := Tab.erase s.retraining dev } : State).refreshAnew dev).event rCellStat 6
     if s2.retraining.isEmpty then s2.clrFlag rCellStat 0 else s2)) ∧
  (∀ (s : State) (inp : Inp) (v : W64),
     bit v 63 = true →
     exec (.ppr inp v) s = .next (if decide (95 < bits v 47 41) || s.devHeld (devOf (bits v 47 41)) ||
        (Tab.find s.pprs (devOf (bits v 47 41))).isSome || s.fld (rDev (devOf (bits v 47 41))) 55 48 == 0 then s.event rCellStat 4
     else { s with pprs := Tab.put s.pprs (devOf (bits v 47 41)) (bits v 47 41, bit v 40, bits v 39 36, bits v 17 0) })) ∧
  (∀ (s : State) (p : Nat × Nat × Bool × Nat × Nat),
     s.pprs.find? (fun p => (Tab.find s.pprBusy p.1).isNone && !s.devHeld p.1) = some p →
     exec (.postPackageRepair) s = .next (if s.inClearing then { s.setFlag rCellStat 1 with pprBusy := Tab.put s.pprBusy p.1 s.ct } else s)) ∧
  (∀ (s : State) (p : Nat × Nat × Bool × Nat × Nat),
     s.pprs.find? (fun p => (Tab.find s.pprBusy p.1).isSome) = some p →
     exec (.hpprComplete) s = .next (let s1 : State := { s with pprs := Tab.erase s.pprs p.1, pprBusy := Tab.erase s.pprBusy p.1, cdef := s.cdef.filter (fun e => !(inDramRow p.2 e.1 && !e.2)) }
     let s2 := (s1.setFld (rDev p.1) 55 48 (s1.fld (rDev p.1) 55 48 - 1)).event rCellStat 3
     let s3 := if s.cdef.any (fun e => inDramRow p.2 e.1 && e.2) then s2.event rCellStat 5 else s2
     if s3.pprBusy.isEmpty then s3.clrFlag rCellStat 1 else s3))

/-- HOST_MEMORY_REQUEST of a link that is up, of a legal size within its BAR, is cut at 64-byte boundaries into accesses of input
0. CONFIGURATION_REQUEST is answered, with Request Retry Status until the port is ready. LINK_TRAINING agreed at a width and
rate of R510 brings the link up. PORT_RESET ends outstanding rows, empties input 0, resets the port's registers and counts.
IDE_CHECK_FAILED takes the stream out of the secure state. SNOOP is answered RspIHitI. MSI_X_UNMASK sends a pending message.
DOE_DISCOVERY, TABLE_ACCESS and GET_EVENT_RECORDS are answered; the reply bytes of the last two are open. (18_host_cxl.md
R510, 18_host_cxl.md R511, 18_host_cxl.md R513, 18_host_cxl.md R522, 18_host_cxl.md R524, 18_host_cxl.md R526, 18_host_cxl.md
R527, 23_bring_up_first_use.md R620) -/
def Obligations.HostPortRequests : Prop :=
  (∀ (s : State) (wr : Bool) (bar : B2) (off : Nat) (data : Bytes) (len n : Nat),
     s.hostUp = true →
     s.port.ideDead.contains 0 = false →
     bar.toNat ≤ 2 →
     (if wr then data.length else len) = n →
     n ≠ 0 →
     n ≤ (if wr then 512 else 4096) →
     off + n ≤ barSize bar.toNat →
     exec (.hostMemoryRequest wr bar off data len) s = .next (let a := barBase bar.toNat + off
     let v := if wr then data.foldr (fun b acc => b.toNat + 256 * acc) 0 else 0
     let l := cutPieces s.port.nextReq wr 65 0 a n v
     (s.modPort (fun p => { p with waiting := p.waiting ++ l, reqs := p.reqs ++ [⟨s.port.nextReq, wr, a, n, l.length, 0, 0, false⟩], nextReq := s.port.nextReq + 1 })).feedHost)) ∧
  (∀ (s : State) (wr : Bool) (off : W16) (data : W32),
     s.hostUp = true →
     s.port.ideDead.contains 0 = false →
     s.portReady = false →
     exec (.configurationRequest wr off data) s = .next (s.send (.cfgReply true 0))) ∧
  (∀ (s : State) (wr : Bool) (off : W16) (data : W32),
     s.hostUp = true →
     s.port.ideDead.contains 0 = false →
     s.portReady = true →
     wr = true →
     exec (.configurationRequest wr off data) s = .next ((s.modPort (fun p => { p with cfg := Tab.put p.cfg (off.toNat / 4 * 4) data })).send (.cfgReply false 0))) ∧
  (∀ (s : State) (wr : Bool) (off : W16) (data : W32),
     s.hostUp = true →
     s.port.ideDead.contains 0 = false →
     s.portReady = true →
     wr = false →
     exec (.configurationRequest wr off data) s = .next (s.send (.cfgReply false (s.cfgRead (off.toNat / 4 * 4))))) ∧
  (∀ (s : State) (agreed : Bool) (width : B5) (rate : B2) (lopt : Bool),
     s.powered = true →
     s.hostUp = false →
     exec (.linkTraining agreed width rate lopt) s = .next (if agreed ∧ (width.toNat = 4 ∨ width.toNat = 8 ∨ width.toNat = 16) ∧ rate.toNat ≤ 2 then s.setReg rLstat (setBits (setBits (setBits (setBit (s.reg rLstat) 15 lopt) 12 8 width.toNat) 7 6 rate.toNat) 2 0 2) else s.setFld rLstat 15 0 3)) ∧
  (∀ (s : State) (kind : B2),
     exec (.portReset kind) s = .next (let s1 : State := { s.setBusQueue 0 [] with port := { nextReq := s.port.nextReq }, regs := s.regs.filter (fun p => !(decide (blkCXLP + 0x1000 ≤ p.1) && decide (p.1 < blkCXLP + 0x40000))) }
     (s1.setReg rLstat (setBits (plainCount 63 48 1 (s.reg rLstat)) 15 0 0)).hostErrors)) ∧
  (∀ (s : State) (io : Bool),
     exec (.ideCheckFailed io) s = .next (let st := if io then 0 else 1
     ((((s.clrFlag rLstat (13 + st)).modPort (fun p => { p with ideDead := st :: p.ideDead.filter (· ≠ st) })).aerLog 1 st).hostErrors))) ∧
  (∀ (s : State) (addr : W64),
     s.lineUp = true →
     exec (.snoop addr) s = .next (s.send .snoopReply)) ∧
  (∀ (s : State) (vector : VecIx),
     exec (.msiXUnmask vector) s = .next (let s1 := s.setReg (rMsixCtl vector) (setBit (s.reg (rMsixCtl vector)) 32 false)
     if s1.flag rPba vector then (s1.clrFlag rPba vector).msix vector else s1)) ∧
  (∀ (s : State) (box : Bool) (index : B8) (v t : Nat),
     s.hostUp = true →
     (doeProtocols box)[index.toNat]? = some (v, t) →
     exec (.doeDiscovery box index) s = .next (s.send (.doe (bytesOf (v + t * 2 ^ 16 + (if index.toNat + 1 < (doeProtocols box).length then index.toNat + 1 else 0) * 2 ^ 24) 4)))) ∧
  (∀ (s : State) (handle : W16),
     s.hostUp = true →
     exec (.tableAccess handle) s = .next (s.send (.doe (Config.cdatReply handle.toNat)))) ∧
  (∀ (s : State) (opcode : W16),
     s.hostUp = true →
     exec (.getEventRecords opcode) s = .next ((s.send (.doe (Config.mailboxReply opcode.toNat (s.port.aer.map (·.1))))).msix 8))

/-- HCH_BIND_WRITE of a channel that no stream names stores the binding, unbound where the core does not exist; else REFUSED.
HOST_LINE_RESPONSE: a completed line joins its row; the eighth counts the row and fills its queue entry; an error ends the row
as HOST_ERR. HOST_LINE_TIMEOUT at its instant does so too. HTTSYNC clears DONE and marks the requests issued; HTTSYNC_DONE
sets it once they have completed. DBELL raises vectors 16 to 63 from inputs 1 to 18. (18_host_cxl.md R516, 18_host_cxl.md
R517, 18_host_cxl.md R519, 18_host_cxl.md R520, 18_host_cxl.md R521, 18_host_cxl.md R523) -/
def Obligations.HostStreamChannels : Prop :=
  (∀ (s : State) (inp : Inp) (v : W64) (ch : HchIx),
     exec (.hchBindWrite inp ch v) s = .next (if s.chanBusy ch then s.event (rHchStat ch) 63 else s.setReg (rHchBind ch) (if 287 < bits v 8 0 then setBit (v &&& 0x8000000000000FFF) 63 false else v &&& 0x8000000000000FFF))) ∧
  (∀ (s : State) (ch : HchIx) (id : Nat) (status : B2) (data : Line) (h : HRow),
     s.port.ideDead.contains 1 = false →
     (s.hrows ch).find? (fun h => h.id == id / 8) = some h →
     h.lines.contains (id % 8) = false →
     status.toNat = 0 →
     h.lines.length < 7 →
     exec (.hostLineResponse ch id status data) s = .next (s.setHrows ch ((s.hrows ch).map (fun x =>
        if x.id = id / 8 then { h with lines := id % 8 :: h.lines, data := if h.write then h.data else setBits h.data (512 * (id % 8) + 511) (512 * (id % 8)) data.toNat } else x)))) ∧
  (∀ (s : State) (ch : HchIx) (id : Nat) (status : B2) (data : Line) (h : HRow),
     s.port.ideDead.contains 1 = false →
     (s.hrows ch).find? (fun h => h.id == id / 8) = some h →
     h.lines.contains (id % 8) = false →
     status.toNat = 0 →
     h.lines.length = 7 →
     exec (.hostLineResponse ch id status data) s = .next (let s1 := (s.setHrows ch ((s.hrows ch).filter (fun x => x.id ≠ id / 8))).countMod 48 63 (rHchRows ch) 1
     s1.modCore h.core (fun k => if h.write then { k with wq := Tab.put k.wq h.queue ((k.wqueue h.queue).map (fun e =>
        if e.id = h.entry then { e with ready := true } else e)) }
     else { k with rq := Tab.put k.rq h.queue { k.rqueue h.queue with entries := (k.rqueue h.queue).entries.map (fun e =>
        if e.id = h.entry then { e with row := some (if h.write then h.data else setBits h.data (512 * (id % 8) + 511) (512 * (id % 8)) data.toNat) } else e) } }))) ∧
  (∀ (s : State) (ch : HchIx) (id : Nat) (status : B2) (data : Line) (h : HRow),
     s.port.ideDead.contains 1 = false →
     (s.hrows ch).find? (fun h => h.id == id / 8) = some h →
     h.lines.contains (id % 8) = false →
     status.toNat ≠ 0 →
     exec (.hostLineResponse ch id status data) s = .next ((if status.toNat = 2 then (s.event rRas 0).msix 9 else s).hostError ch (id / 8))) ∧
  (∀ (s : State) (ch : HchIx) (id : Nat) (h : HRow),
     (s.hrows ch).find? (fun h => h.id == id / 8) = some h →
     h.lines.contains (id % 8) = false →
     exec (.hostLineTimeout ch id) s = .next (((s.toCt (h.since + s.fld rHcto 31 0 * ctPerUs)).event (rHchStat ch) 62).hostError ch h.id)) ∧
  (∀ (s : State) (inp : Inp),
     exec (.httsync inp) s = .next ({ s.clrFlag rHttsync 1 with syncMark := s.nextFlight })) ∧
  (∀ (s : State),
     exec (.httsyncDone) s = .next (if (List.range 8).all (fun c => (s.hrows c).all (fun h => decide (s.syncMark ≤ h.id))) then s.setFlag rHttsync 1 else s)) ∧
  (∀ (s : State) (inp : Inp) (v : W64),
     exec (.dbell inp v) s = .next (if inp.val ≠ 0 ∧ 16 ≤ bits v 5 0 ∧ s.hostUp then s.msix (bits v 5 0) else s))

/-- EVENT_RAISE sets the pending bit of a raised source, on all dies where it is common; SWRAISE does so for the software sources;
PENDING_CLEAR clears it. CLAIM takes the eligible source of the highest level not taken by a lower processor in the same
cycle, or the spurious identifier; COMPLETE of the stack's top pops it, and any other sets the error. INTERRUPT_ENTRY of a
running control processor with a request presented enters with cause 16 in 4 cycles; STORE_ERROR enters with cause 5; WFE_WAKE
of a waiting processor that a source wakes runs it, and takes an interrupt presented there. CP_RUN, CP_HALT and CP_RESET act
from the active Keeper and are refused from other inputs. (19_control_processors_events.md R532,
19_control_processors_events.md R534, 19_control_processors_events.md R535, 19_control_processors_events.md R536,
19_control_processors_events.md R537, 19_control_processors_events.md R539, 19_control_processors_events.md R540,
19_control_processors_events.md R545, 22_fencing_maintenance_errors.md R605) -/
def Obligations.EventsAndProcessorControl : Prop :=
  (∀ (s : State) (p : ProcIx) (a : W64) (rest : List W64),
     (s.proc p).errs = a :: rest →
     (s.proc p).st = 1 ∨ (s.proc p).st = 2 →
     (s.proc p).load = none →
     exec (.storeError p) s = .next (((s.procEdge p (s.proc p).nextAt).modProc p (fun k => { k with errs := rest })).exception p (5 + 256) a)) ∧
  (∀ (s : State) (p : ProcIx),
     (s.proc p).st = 1 →
     (s.proc p).load = none →
     s.interrupts p = true →
     exec (.interruptEntry p) s = .next (let s1 : State := { s.procEdge p (s.proc p).nextAt with free := s.free + 1 }
     s1.modProc p (fun k => { k.enter 16 (Config.interruptTval s.free) 3 with nextAt := s1.rootNow + 4 * procPeriod p }))) ∧
  (∀ (s : State) (p : ProcIx),
     exec (.wfeWake p) s = .next (if (s.proc p).st = 2 ∧ s.wakes p then
     let s1 := s.modProc p (fun k => { k with st := 1 })
     if (s1.proc p).st = 1 ∧ (s1.proc p).load.isNone ∧ s1.interrupts p then
     let s2 : State := { s1.procEdge p (s1.proc p).nextAt with free := s1.free + 1 }
     s2.modProc p (fun k => { k.enter 16 (Config.interruptTval s1.free) 3 with nextAt := s2.rootNow + 4 * procPeriod p })
     else s1 else s)) ∧
  (∀ (s : State) (p : CpIx) (i : Nat),
     (∀ q : Nat, q < p.val → s.claimsToo q = false) →
     s.held p = false →
     s.bestSource p = some i →
     exec (.claim p) s = .next ({ ((s.clear (rSrc (p.val / 4) i) 8).setFlag (rSrc (p.val / 4) i) 9).setFld (rCpEvc p) 19 10 i with evStacks := Tab.put s.evStacks p ((i, s.fld (rSrc (p.val / 4) i) 3 0) :: s.stack p) })) ∧
  (∀ (s : State) (p : CpIx),
     (∀ q : Nat, q < p.val → s.claimsToo q = false) →
     s.held p = true ∨ s.bestSource p = none →
     exec (.claim p) s = .next (s.setFld (rCpEvc p) 19 10 1023)) ∧
  (∀ (s : State) (v : W64) (p : CpIx) (l : Nat) (rest : List (Nat × Nat)),
     v.toNat ≠ 1023 →
     s.stack p = (v.toNat, l) :: rest →
     exec (.complete p v) s = .next ({ s.clrFlag (rSrc (p.val / 4) v.toNat) 9 with evStacks := Tab.put s.evStacks p rest })) ∧
  (∀ (s : State) (v : W64) (p : CpIx),
     v.toNat ≠ 1023 →
     (s.stack p).head?.map (·.1) ≠ some v.toNat →
     exec (.complete p v) s = .next ((s.event (rCpEvc p) 63).raiseKeep 1)) ∧
  (∀ (s : State) (die : DieIx) (source : W10),
     exec (.eventRaise die source) s = .next (if 960 ≤ source.toNat ∧ source.toNat < 1023 then s.raise die source.toNat else if srcKnown source.toNat = false then s
     else if source.toNat < 640 then s.raiseCore (80 * die.val + source.toNat / 8) (source.toNat % 8) else if source.toNat < 643 then s.raise die source.toNat else s.raiseAll source.toNat)) ∧
  (∀ (s : State) (inp : Inp) (v : W64) (die : DieIx),
     exec (.swraise inp die v) s = .next (if 960 ≤ bits v 9 0 ∧ bits v 9 0 < 1023 then s.raise die (bits v 9 0) else s)) ∧
  (∀ (s : State) (inp : Inp) (die : DieIx) (source : W10),
     exec (.pendingClear inp die source) s = .next (if source.toNat < 1023 then s.clear (rSrc die source.toNat) 8 else s)) ∧
  (∀ (s : State) (inp : Inp) (p : CpIx) (entry : W32),
     exec (.cpRun inp p entry) s = .next (if inp.val = s.activeKeeper then (if s.hiveOff then s else s.modProc p (fun k => k.start entry s.rootNow)) else if inp.val = 17 ∨ inp.val = 18 then s.event rRole 63 else s.cpRefused p)) ∧
  (∀ (s : State) (inp : Inp) (p : CpIx),
     exec (.cpHalt inp p) s = .next (if inp.val = s.activeKeeper then s.modProc p Proc.halt else if inp.val = 17 ∨ inp.val = 18 then s.event rRole 63 else s.cpRefused p)) ∧
  (∀ (s : State) (inp : Inp) (p : CpIx),
     exec (.cpReset inp p) s = .next (if inp.val = s.activeKeeper then s.modProc p Proc.zeroed else if inp.val = 17 ∨ inp.val = 18 then s.event rRole 63 else s.cpRefused p))

/-- SERVICE_BUS_GRANT, once no burst occupies the bus, takes the head access of the highest-numbered input with one, records the
wait and the count, and applies an access to a register or to no region at once. COMB_APERTURE_ACCESS and
CELLAR_APERTURE_ACCESS apply an input's next access there: a write, a read, or an error where a word is uncorrectable.
SERVICE_COMPLETION returns the oldest access's result to the load, the store, the host request or the stream engine that made
it. REGISTER_WRITE stores 8 aligned bytes, or 4 into a half. (01_module_and_dataflow.md R24, 01_module_and_dataflow.md R25,
01_module_and_dataflow.md R26, 00_scope.md R9, 17_cellar.md R498, 17_cellar.md R499, 19_control_processors_events.md R541,
19_control_processors_events.md R542, 19_control_processors_events.md R543) -/
def Obligations.ServiceBus : Prop :=
  (∀ (s : State) (q : Nat) (a : BusAcc) (rest : List BusAcc),
     busInputs.reverse.find? (fun q => !(s.feedHost.busQueue q).isEmpty) = some q →
     s.feedHost.busQueue q = a :: rest →
     exec (.serviceBusGrant) s = .next (let s0 := s.feedHost
     let s1 := s0.toRoot (nextMultiple 8 (Nat.max s0.rootNow s0.bus.until_))
     let t := s1.rootNow
     let wait := (t - Tab.get t s1.bus.headFrom q) / 8
     let s2 := s1.setBusQueue q rest
     let s3 := ((s2.setReg (rSvcIn q) (setBits (s2.reg (rSvcIn q)) 47 16 (Nat.min (2 ^ 32 - 1) (Nat.max wait (s2.fld (rSvcIn q) 47 16))))).countMod 48 63 (rSvcIn q + 8) 1).setFld blkSVC 4 0 q
     let n := s3.bus.grants
     let b : Bus := { s3.bus with headFrom := Tab.put s3.bus.headFrom q t, until_ := t + 8 * burstCycles a.size, grants := n + 1, flying := Tab.put s3.bus.flying q (s3.inFlight q ++ [⟨n, a, none⟩]) }
     (({ s3 with bus := b } : State).applyNow q n a).feedHost)) ∧
  (∀ (s : State) (inp : Inp) (f : BusFlight) (i r b : Nat),
     s.nextAccess inp Target.isComb = some f →
     targetOf f.acc.addr = .comb i r b →
     s.fence i = 1 ∨ s.fence i = 3 ∨ s.bootCause ≠ 0 →
     exec (.combApertureAccess inp) s = .next (s.busResult inp f.n true 0)) ∧
  (∀ (s : State) (inp : Inp) (f : BusFlight) (i r b : Nat),
     s.nextAccess inp Target.isComb = some f →
     targetOf f.acc.addr = .comb i r b →
     ¬ (s.fence i = 1 ∨ s.fence i = 3 ∨ s.bootCause ≠ 0) →
     f.acc.write = true →
     exec (.combApertureAccess inp) s = .next (let p := s.sideWrite i r b f.acc.size f.acc.data; p.1.busResult inp f.n p.2 0)) ∧
  (∀ (s : State) (inp : Inp) (f : BusFlight) (i r b : Nat),
     s.nextAccess inp Target.isComb = some f →
     targetOf f.acc.addr = .comb i r b →
     ¬ (s.fence i = 1 ∨ s.fence i = 3 ∨ s.bootCause ≠ 0) →
     f.acc.write = false →
     exec (.combApertureAccess inp) s = .next (let p := s.sideRead i r
     if p.2.isNone then p.1.busResult inp f.n false 0 else p.1.busResult inp f.n true (field (p.2.getD 0).toNat (8 * b) (8 * f.acc.size)))) ∧
  (∀ (s : State) (inp : Inp) (f : BusFlight) (a : Nat),
     s.nextAccess inp Target.isCellar = some f →
     targetOf f.acc.addr = .cellar a →
     s.bootCause = 0 →
     10 ≤ s.stage →
     s.burstHeld (a / 64) = false →
     f.acc.write = true →
     exec (.cellarApertureAccess inp) s = .next (let p := (s.toCt (s.bankFreeAt (a / 64))).cellWrite a f.acc.size f.acc.data; p.1.busResult inp f.n p.2 0)) ∧
  (∀ (s : State) (inp : Inp) (f : BusFlight) (a : Nat),
     s.nextAccess inp Target.isCellar = some f →
     targetOf f.acc.addr = .cellar a →
     s.bootCause = 0 →
     10 ≤ s.stage →
     s.burstHeld (a / 64) = false →
     f.acc.write = false →
     exec (.cellarApertureAccess inp) s = .next (let p := (s.toCt (s.bankFreeAt (a / 64))).cellRead a f.acc.size; p.1.busResult inp f.n p.2.isSome (p.2.getD 0))) ∧
  (∀ (s : State) (inp : Inp) (m v : Nat) (a : BusAcc) (good : Bool) (rest : List BusFlight) (p e : Nat),
     s.inFlight inp = ⟨m, a, some (good, v)⟩ :: rest →
     a.who = .load p e →
     exec (.serviceCompletion inp) s = .next ((s.setFlight inp rest).loadDone p e good v)) ∧
  (∀ (s : State) (inp : Inp) (m v : Nat) (a : BusAcc) (good : Bool) (rest : List BusFlight) (p e : Nat),
     s.inFlight inp = ⟨m, a, some (good, v)⟩ :: rest →
     a.who = .store p e →
     exec (.serviceCompletion inp) s = .next ((s.setFlight inp rest).storeDone p e good a.addr)) ∧
  (∀ (s : State) (inp : Inp) (m v : Nat) (a : BusAcc) (good : Bool) (rest : List BusFlight) (p e : Nat),
     s.inFlight inp = ⟨m, a, some (good, v)⟩ :: rest →
     a.who = .host p e →
     exec (.serviceCompletion inp) s = .next ((s.setFlight inp rest).hostPiece p a good v)) ∧
  (∀ (s : State) (inp : Inp) (m v : Nat) (a : BusAcc) (good : Bool) (rest : List BusFlight) (p e : Nat),
     s.inFlight inp = ⟨m, a, some (good, v)⟩ :: rest →
     a.who = .kstr p e →
     exec (.serviceCompletion inp) s = .next (if (((s.setFlight inp rest).kstr p e).piece.1 = a.addr) then (s.setFlight inp rest).pieceDone p e good v else s.setFlight inp rest)) ∧
  (∀ (s : State) (inp : Inp) (v : W64) (off size : Nat),
     exec (.registerWrite inp off size v) s = .next (if size = 8 ∧ off % 8 = 0 then regPut s inp off (BitVec.ofNat 64 v.toNat) else if size = 4 ∧ off % 4 = 0 then regPutHalf s inp (off / 8 * 8) (off % 8 == 4) v.toNat else s))

/-- BEAT refreshes the member's watchdog and completes a swap in time. TAKEOVER, 1 ms after the active member's last beat, makes
the standby active where it is up, else none is; STANDBY_LOST marks the standby lost. ROLE_SWAP, RESTART and NOTICE act from
the active Keeper. SENSOR_SAMPLE_SET takes the samples of every sensor; COMPARATOR_TRIP and COMPARATOR_CLEAR follow THRESH and
HYST. LOG_APPEND stages and programs an entry, or drops or displaces one when full; SECTOR_ERASE erases the ring's next
sector. A stream engine moves its next piece; a halted one resumes or is aborted by its member. (20_keeper.md R548,
20_keeper.md R549, 20_keeper.md R552, 20_keeper.md R553, 20_keeper.md R554, 20_keeper.md R555, 20_keeper.md R557, 20_keeper.md
R558, 20_keeper.md R571, 22_fencing_maintenance_errors.md R611) -/
def Obligations.KeeperMembersSensorsAndLog : Prop :=
  (∀ (s : State) (inp : Inp),
     17 ≤ inp.val →
     (s.member (18 - inp.val)).held = false →
     s.swapAt = none →
     (s.member 0).newImage = false →
     (s.member 1).newImage = false →
     exec (.beat inp) s = .next (let s2 := s.modMember (18 - inp.val) (fun k => { k with beatAt := s.rootNow })
     if s2.up 0 ∧ s2.up 1 then s2.setRoleState 0 else if s2.roleState = 2 ∧ s2.up s2.activeMember then s2.setRoleState 1 else s2)) ∧
  (∀ (s : State),
     (s.toRoot ((s.member s.activeMember).beatAt + ctPerMs)).up s.standbyMember = true →
     exec (.takeover) s = .next (let a := s.activeMember
     let s1 := s.toRoot ((s.member a).beatAt + ctPerMs)
     let s2 := (s1.setFld rRole 0 0 s.standbyMember).setReg rRole (plainCount 31 16 1 ((s1.setFld rRole 0 0 s.standbyMember).reg rRole))
     let s3 := ((s2.setRoleState 1).modMember a Member.fail).modProc (keeperProc a) (fun k => { k.zeroed with st := 0 })
     { (s3.orphanLeases a).raiseKeep 15 with swapAt := none, cpPend := false })) ∧
  (∀ (s : State),
     (s.toRoot ((s.member s.activeMember).beatAt + ctPerMs)).up s.standbyMember = false →
     exec (.takeover) s = .next (let s1 := s.toRoot ((s.member s.activeMember).beatAt + ctPerMs)
     if s1.roleState = 2 then s1 else (s1.setRoleState 2).send (.inBand 256))) ∧
  (∀ (s : State),
     exec (.standbyLost) s = .next (let s1 := if (s.member s.standbyMember).held then s else s.toRoot ((s.member s.standbyMember).beatAt + ctPerMs + 1)
     if s1.up s.standbyMember ∨ s1.roleState ≠ 0 then s1 else (s1.setRoleState 1).raiseKeep 16)) ∧
  (∀ (s : State) (inp : Inp),
     exec (.roleSwap inp) s = .next (if inp.val = s.activeKeeper then { s.settleSwap with swapAt := some s.rootNow } else if inp.val = 17 ∨ inp.val = 18 then s.event rRole 63 else s)) ∧
  (∀ (s : State) (inp : Inp),
     exec (.restart inp) s = .next (if inp.val = s.activeKeeper then (if (s.member s.standbyMember).held then ((s.modMember s.standbyMember (fun k => { k with held := false, beatAt := s.rootNow })).bootKeeper s.standbyMember (s.image 1)).setRoleState 0 else s) else if inp.val = 17 ∨ inp.val = 18 then s.event rRole 63 else s)) ∧
  (∀ (s : State) (inp : Inp) (target : B5),
     exec (.notice inp target) s = .next (if inp.val = s.activeKeeper then (if target.toNat < 16 then s.raiseAll (656 + target.toNat) else if target.toNat = 16 then s.msix 12 else s) else if inp.val = 17 ∨ inp.val = 18 then s.event rRole 63 else s)) ∧
  (∀ (s : State) (samples : Samples),
     exec (.sensorSampleSet samples) s = .next ((samples.foldl (fun a e => if e.1 < 480 then a.setReg (rSens e.1) (sensorSample (a.reg (rSens e.1)) e.2.1 e.2.2) else a) (s.toCt (nextMultiple 1000000 (s.ct + 1)))).raiseKeep 20)) ∧
  (∀ (s : State) (k : CmpIx) (code : W10),
     bit (s.reg (rCmp k)) 23 = true →
     bit (s.reg (rCmp k)) 31 = false →
     (if bit (s.reg (rCmp k)) 22 then decide (code.toNat < bits (s.reg (rCmp k)) 9 0) else decide (bits (s.reg (rCmp k)) 9 0 < code.toNat)) = true →
     exec (.comparatorTrip k code) s = .next (let w := s.reg (rCmp k)
     let s1 := (s.setReg (rCmp k) (setBit (setBit w 31 true) 30 true)).mark (rCmp k) 30
     let s2 := if bit w 24 then s1.raiseKeep 12 else s1
     let s3 := if bit w 25 then s2.send (.inBand k) else s2
     if bit w 26 then (List.range 320).foldl (fun a i => if bit (a.reg (rPwrCtl i)) (8 + k.val) then a.wakeSource i 3 else a) s3 else s3)) ∧
  (∀ (s : State) (k : CmpIx) (code : W10),
     exec (.comparatorClear k code) s = .next (if bit (s.reg (rCmp k)) 31 ∧ (if bit (s.reg (rCmp k)) 22 then decide (bits (s.reg (rCmp k)) 9 0 + bits (s.reg (rCmp k)) 14 10 ≤ code.toNat) else decide (code.toNat + bits (s.reg (rCmp k)) 14 10 ≤ bits (s.reg (rCmp k)) 9 0)) then s.setReg (rCmp k) (setBit (s.reg (rCmp k)) 31 false) else s)) ∧
  (∀ (s : State) (severity : B4) (source code : W16) (data : Bytes),
     (s.member s.activeMember).staged.length < 4096 →
     exec (.logAppend severity source code data) s = .next (let e : LogRec := ⟨severity.toNat, s.logEntry severity.toNat source.toNat code data⟩; (s.modMember s.activeMember (fun k => { k with staged := (s.member s.activeMember).staged ++ [e] })).programLog)) ∧
  (∀ (s : State) (severity : B4) (source code : W16) (data : Bytes),
     4096 ≤ (s.member s.activeMember).staged.length →
     severity.toNat ≤ 1 →
     exec (.logAppend severity source code data) s = .next (s.setReg rLog (plainCount 63 32 1 (s.reg rLog)))) ∧
  (∀ (s : State),
     exec (.sectorErase) s = .next (((s.setNv (fun n => n.erase (logBase + 65536 * ((s.nv.logHead + 1023) / 1024 % 512)) 65536)).raiseKeep 18).programLog)) ∧
  (∀ (s : State) (member m : EdgeIx) (out flash : Bool) (sram : W32) (addr : W64) (len : W17),
     (s.member member).held = false →
     (s.kstr member m).flying = false →
     (s.kstr member m).st = 1 →
     exec (.keeperStreamPiece member m out flash sram addr len) s = .next (s.movePiece member m)) ∧
  (∀ (s : State) (member m : EdgeIx) (out flash : Bool) (sram : W32) (addr : W64) (len : W17),
     (s.member member).held = false →
     (s.kstr member m).flying = false →
     (s.kstr member m).st = 0 →
     1 ≤ len.toNat →
     len.toNat ≤ 65536 →
     exec (.keeperStreamPiece member m out flash sram addr len) s = .next ((s.setKstr member m ⟨1, out, sram.toNat, if flash then addr.toNat % 2 ^ 28 else addr.toNat % 2 ^ 48, flash, len.toNat, 0, false⟩).movePiece member m)) ∧
  (∀ (s : State) (inp : Inp) (m : EdgeIx),
     17 ≤ inp.val →
     (s.kstr (18 - inp.val) m).st = 2 →
     exec (.kstrResume inp m) s = .next (s.setKstr (18 - inp.val) m { s.kstr (18 - inp.val) m with st := 1 })) ∧
  (∀ (s : State) (inp : Inp) (m : EdgeIx),
     17 ≤ inp.val →
     (s.kstr (18 - inp.val) m).st = 2 →
     exec (.kstrAbort inp m) s = .next (s.setKstr (18 - inp.val) m {}))

/-- A message that reaches the Keeper raises its event and is answered while a member is active: MCTP and PLDM requests with a
reply, the mailbox's MCTP command with vector 8 besides. SPDM: GET_VERSION restarts the transcript; each request and its reply
join it; KEY_EXCHANGE begins a session that FINISH secures, KEY_UPDATE and END_SESSION act on it. IDE_KM inside a secured
session programs a key, brings the stream into or out of the secure state. The bytes of replies are open. FENCE_REQUEST raises
the Keeper's event. (18_host_cxl.md R524, 18_host_cxl.md R525, 18_host_cxl.md R526, 20_keeper.md R552, 20_keeper.md R560,
20_keeper.md R566, 20_keeper.md R567, 22_fencing_maintenance_errors.md R595) -/
def Obligations.ManagementSessions : Prop :=
  (∀ (s : State) (msg : Bytes),
     s.answers = true ∨ (s.roleState ≠ 2 ∧ s.recovering = true) →
     s.hostUp = true →
     exec (.mailboxMctpCommand msg) s = .next ((s.heard.reply (Config.mctpReply msg)).msix 8)) ∧
  (∀ (s : State) (eid : B8),
     s.answers = true →
     exec (.setEndpointId eid) s = .next ((s.heard.modMember s.heard.activeMember (fun k => { k with eid := eid.toNat })).reply (Config.mctpReply [BitVec.ofNat 8 eid.toNat]))) ∧
  (∀ (s : State) (cmd : B8),
     s.answers = true ∨ (s.roleState ≠ 2 ∧ s.recovering = true) →
     exec (.pldmDiscovery cmd) s = .next (s.heard.reply (Config.pldmReply cmd.toNat []))) ∧
  (∀ (s : State) (msg : Bytes),
     s.answers = true →
     exec (.getVersion msg) s = .next ((s.heard.setSpdm {}).spdmAnswer 0x84 msg [])) ∧
  (∀ (s : State) (msg : Bytes),
     s.answers = true →
     exec (.getCapabilities msg) s = .next (s.heard.spdmAnswer 0xE1 msg [])) ∧
  (∀ (s : State) (msg : Bytes),
     s.answers = true →
     exec (.negotiateAlgorithms msg) s = .next (s.heard.spdmAnswer 0xE3 msg [])) ∧
  (∀ (s : State) (msg : Bytes),
     s.answers = true →
     exec (.getDigests msg) s = .next (s.heard.spdmAnswer 0x81 msg [])) ∧
  (∀ (s : State) (slot : B4) (off len : W16),
     s.answers = true →
     exec (.getCertificate slot off len) s = .next (s.heard.spdmAnswer 0x82 [] [slot.toNat, off.toNat, len.toNat])) ∧
  (∀ (s : State) (slot : B4) (msg : Bytes),
     s.answers = true →
     exec (.challenge slot msg) s = .next (s.heard.spdmAnswer 0x83 msg [slot.toNat])) ∧
  (∀ (s : State) (index : B8) (sig : Bool) (msg : Bytes),
     s.answers = true →
     exec (.getMeasurements index sig msg) s = .next (s.heard.spdmAnswer 0xE0 msg (sig.toNat :: (if index.toNat = 255 then [1, 2, 3, 4, 5] else if 1 ≤ index.toNat ∧ index.toNat ≤ 5 then [index.toNat] else []).map s.heard.measurement))) ∧
  (∀ (s : State) (msg : Bytes),
     s.answers = true →
     exec (.keyExchange msg) s = .next ((s.heard.setSpdm { s.heard.spdm with session := 1 }).spdmAnswer 0xE4 msg [])) ∧
  (∀ (s : State) (msg : Bytes),
     s.answers = true →
     exec (.finish msg) s = .next (if s.heard.spdm.session = 1 then (s.heard.setSpdm { s.heard.spdm with session := 2 }).spdmAnswer 0xE5 msg [1] else s.heard.spdmAnswer 0xE5 msg [0])) ∧
  (∀ (s : State) (op : B8),
     s.answers = true →
     exec (.keyUpdate op) s = .next (if s.heard.spdm.session = 2 then (s.heard.setSpdm { s.heard.spdm with updates := s.heard.spdm.updates + 1 }).spdmAnswer 0xE9 [] [op.toNat, 1] else s.heard.spdmAnswer 0xE9 [] [op.toNat, 0])) ∧
  (∀ (s : State),
     s.answers = true →
     exec (.heartbeat) s = .next (s.heard.spdmAnswer 0xE8 [] [s.heard.spdm.session])) ∧
  (∀ (s : State),
     s.answers = true →
     exec (.endSession) s = .next ((s.heard.setSpdm { s.heard.spdm with session := 0 }).spdmAnswer 0xEC [] [s.heard.spdm.session])) ∧
  (∀ (s : State) (io : Bool) (op : B2) (keyset : Bool) (key : Key),
     s.answers = true →
     s.heard.spdm.session = 2 →
     op.toNat = 0 →
     exec (.ideKm io op keyset key) s = .next ((s.heard.modPort (fun p => { p with ideKeys := Tab.put p.ideKeys (2 * (if io then 0 else 1) + keyset.toNat) key })).spdmAnswer 0xFE [] [1])) ∧
  (∀ (s : State) (io : Bool) (op : B2) (keyset : Bool) (key : Key),
     s.answers = true →
     s.heard.spdm.session = 2 →
     op.toNat = 1 →
     (Tab.find s.heard.port.ideKeys (2 * (if io then 0 else 1) + keyset.toNat)).isSome = true →
     exec (.ideKm io op keyset key) s = .next (((s.heard.setFlag rLstat (13 + if io then 0 else 1)).modPort (fun p => { p with ideDead := p.ideDead.filter (· ≠ if io then 0 else 1) })).spdmAnswer 0xFE [] [1])) ∧
  (∀ (s : State) (io : Bool) (op : B2) (keyset : Bool) (key : Key),
     s.answers = true →
     s.heard.spdm.session = 2 →
     op.toNat = 2 →
     exec (.ideKm io op keyset key) s = .next ((if s.heard.flag rLstat (13 + if io then 0 else 1) then s.heard.ideLeave (if io then 0 else 1) else s.heard).spdmAnswer 0xFE [] [1])) ∧
  (∀ (s : State) (io : Bool) (op : B2) (keyset : Bool) (key : Key),
     s.answers = true →
     s.heard.spdm.session = 2 →
     op.toNat = 3 →
     exec (.ideKm io op keyset key) s = .next (s.heard.spdmAnswer 0xFE [] [1])) ∧
  (∀ (s : State) (io : Bool) (op : B2) (keyset : Bool) (key : Key),
     s.answers = true →
     s.heard.spdm.session ≠ 2 →
     exec (.ideKm io op keyset key) s = .next (s.heard.spdmAnswer 0xFE [] [0])) ∧
  (∀ (s : State) (i : CoreIx),
     exec (.fenceRequest i) s = .next (s.raiseKeep 17))

/-- REQUEST_UPDATE that may start erases the spare slots of its components; REQUEST_FIRMWARE_DATA writes a chunk of at most 1,024
bytes; VERIFY_COMPLETE records a valid image, ACTIVATE_FIRMWARE activates the verified components as their kind lays down.
CP_IMAGE_ACTIVATION restarts the control processors on the new image at a clearing with 1 ms left; LANE_CODE_BANK_SWITCH
switches links in ascending order. LIFE_CYCLE_TRANSITION with a permitted signature and no task applies the state as a module
reset, and else sets REFUSED; TRANSITION_NONCE returns the nonce; UNLOCK in Service opens the test port. (20_keeper.md R560,
20_keeper.md R561, 20_keeper.md R562, 20_keeper.md R563, 20_keeper.md R564, 20_keeper.md R568, 20_keeper.md R569) -/
def Obligations.FirmwareUpdatesAndLifeCycle : Prop :=
  (∀ (s : State) (comps : B4),
     s.answers = true ∨ (s.roleState ≠ 2 ∧ s.recovering = true) →
     exec (.requestUpdate comps) s = .next (if s.heard.mayUpdate (compsOf comps.toNat) then ((((compsOf comps.toNat).foldl (fun a c => a.setNv (fun n => n.erase (slotBase c (s.spareHalf c)) 0x1000000)) s.heard).raiseKeep 18).setUpdate (some { comps := compsOf comps.toNat })).reply (Config.pldmReply 0x10 [1])
     else s.heard.reply (Config.pldmReply 0x10 [0]))) ∧
  (∀ (s : State) (comp : B2) (off : Nat) (data : Bytes) (u : Update),
     s.answers = true ∨ (s.roleState ≠ 2 ∧ s.recovering = true) →
     s.heard.update = some u →
     u.comps.contains (comp.toNat + 1) = true →
     data.length ≤ 1024 →
     off + data.length ≤ 0x1000000 →
     exec (.requestFirmwareData comp off data) s = .next ((s.heard.setNv (fun n => n.write (slotBase (comp.toNat + 1) (s.heard.spareHalf (comp.toNat + 1)) + off) data.length (data.foldr (fun b a => b.toNat + 256 * a) 0))).raiseKeep 18)) ∧
  (∀ (s : State) (comp : B2) (u : Update),
     s.answers = true ∨ (s.roleState ≠ 2 ∧ s.recovering = true) →
     s.heard.update = some u →
     exec (.verifyComplete comp) s = .next (if u.comps.contains (comp.toNat + 1) ∧ s.heard.imageValid (comp.toNat + 1) then (s.heard.setUpdate (some { u with verified := u.verified ++ [comp.toNat + 1] })).reply (Config.pldmReply 0x17 [1]) else s.heard.reply (Config.pldmReply 0x17 [0]))) ∧
  (∀ (s : State) (u : Update),
     s.answers = true ∨ (s.roleState ≠ 2 ∧ s.recovering = true) →
     s.heard.update = some u →
     exec (.activateFirmware) s = .next (((u.verified.foldl (fun a c => if s.heard.imageValid c then a.activate c else a.log 3 2 5) s.heard).setUpdate none).reply (Config.pldmReply 0x1A [1]))) ∧
  (∀ (s : State) (s1 : State),
     s.cpPend = true →
     (if s.inClearing then s else s.toCt (s.reg rClrBegin).toNat) = s1 →
     ctPerMs ≤ s1.clearingLeft →
     s1.hiveOff = false →
     exec (.cpImageActivation) s = .next (let img := s1.newSlot 2
     let s2 := (List.range 16).foldl (fun a p => a.modProc p (fun k => { k.start (Config.imageEntry img) a.rootNow with code := img, sram := k.sram.filter (fun e => (Config.imageCode img e.1).isNone) })) s1
     { s2.markActive 2 with cpPend := false })) ∧
  (∀ (s : State) (link : LinkIx),
     (s.link link).codeNew = true →
     (List.range link).any (fun j => (s.link j).codeNew) = false →
     exec (.laneCodeBankSwitch link) s = .next (let s1 := (s.toCt (nextMultiple slotCycle s.ct)).modLink link (fun l => { l with codeNew := false })
     if (List.range 24).any (fun j => (s1.link j).codeNew) then s1 else s1.markActive 3)) ∧
  (∀ (s : State) (target : B4) (sig : Bytes),
     s.answers = true →
     exec (.lifeCycleTransition target sig) s = .next (if (transitionKeys s.heard.nv.lc target.toNat).any (fun k => Config.verifies k (BitVec.ofNat 8 target.toNat :: s.heard.nonce) sig) ∧ !s.heard.anyTask ∧ !(s.heard.nv.lc = 2 ∧ target.toNat = 3 ∧ 16 ≤ s.heard.nv.returns) then ((s.heard.setNv (fun n => n.transition target.toNat)).reply (Config.mctpReply [1])).resetModule
     else { (s.heard.event rLc 63).reply (Config.mctpReply [0]) with nonceSeq := s.heard.nv.logSeq })) ∧
  (transitionKeys 0 1 = [0] ∧ transitionKeys 1 2 = [0] ∧ transitionKeys 2 3 = [1] ∧ transitionKeys 3 2 = [1] ∧ (∀ k, k < 4 → transitionKeys k 4 = [0, 1]) ∧ (∀ t, transitionKeys 4 t = [])) ∧
  (∀ (s : State),
     s.answers = true →
     exec (.transitionNonce) s = .next (s.heard.reply s.heard.nonce)) ∧
  (∀ (s : State) (sig : Bytes),
     s.answers = true →
     exec (.unlock sig) s = .next (if s.heard.nv.lc = 3 ∧ Config.verifies 1 s.heard.nonce sig then { s.heard with testOpen := true } else s.heard))

/-- V48_GOOD after a loss of the input and MODULE_RESET from the active Keeper reset the module; INPUT_LOST does so and stops it.
STAGE_COMPLETE advances the stage with the effect the stage has, and completes the host port alone after a failure in stages 3
to 9; STAGE_TIMEOUT stops the sequence with its cause and logs it. CORE_RESET of an active or spare position that nothing
copies ends its tasks and resets the core, failing a running step. THERMAL_TRIP fails the step, logs it and takes the Hive
dies' rails off. TEST_PORT_INSTRUCTION selects IDCODE, BYPASS or, open, boundary scan. (23_bring_up_first_use.md R615,
23_bring_up_first_use.md R616, 23_bring_up_first_use.md R617, 23_bring_up_first_use.md R618, 23_bring_up_first_use.md R619,
23_bring_up_first_use.md R622, 23_bring_up_first_use.md R623, 23_bring_up_first_use.md R624, 24_module_physical.md R632) -/
def Obligations.BringUpAndResets : Prop :=
  (∀ (s : State),
     exec (.v48Good) s = .next (if s.powered then s else s.resetModule)) ∧
  (∀ (s : State),
     exec (.inputLost) s = .next ({ s.resetModule with powered := false })) ∧
  (∀ (s : State) (failed : Positions) (rows : BadRows),
     s.powered = true →
     s.bootCause = 0 →
     s.stage = 3 →
     exec (.stageComplete (failed, rows)) s = .next (s.loadKeepers.setFld rBoot 3 0 4)) ∧
  (∀ (s : State) (failed : Positions) (rows : BadRows),
     s.powered = true →
     s.bootCause = 0 →
     s.stage = 11 →
     exec (.stageComplete (failed, rows)) s = .next ((s.runBoot 3).setFld rBoot 3 0 12)) ∧
  (∀ (s : State) (failed : Positions) (rows : BadRows),
     s.powered = true →
     s.bootCause = 0 →
     s.stage = 7 →
     exec (.stageComplete (failed, rows)) s = .next ((let p := s.buildMaps (rows.map (fun x => (x.1.val, x.2)))
     ((failed.map (·.val)) ++ p.2.filter (fun i => !((failed.map (·.val)).contains i))).foldl failedPosition p.1).setFld rBoot 3 0 8)) ∧
  (∀ (s : State) (failed : Positions) (rows : BadRows),
     s.powered = true →
     s.bootCause = 0 →
     s.stage = 8 →
     exec (.stageComplete (failed, rows)) s = .next (((s.runBoot 4).setFlag rCellStat 2).setFld rBoot 3 0 9)) ∧
  (∀ (s : State) (failed : Positions) (rows : BadRows),
     s.powered = true →
     s.bootCause = 0 →
     s.stage = 9 →
     exec (.stageComplete (failed, rows)) s = .next (s.startProcs.setFld rBoot 3 0 10)) ∧
  (∀ (s : State) (failed : Positions) (rows : BadRows),
     s.powered = true →
     s.bootCause = 0 →
     s.stage = 10 →
     exec (.stageComplete (failed, rows)) s = .next (({ s with portReady := true } : State).setFld rBoot 3 0 11)) ∧
  (∀ (s : State) (failed : Positions) (rows : BadRows),
     s.powered = true →
     s.bootCause = 0 →
     s.stage = 12 →
     s.flag rTstat 3 = true →
     exec (.stageComplete (failed, rows)) s = .next (s.setFld rBoot 3 0 13)) ∧
  (∀ (s : State) (failed : Positions) (rows : BadRows),
     s.powered = true →
     s.bootCause = 0 →
     s.stage = 13 →
     exec (.stageComplete (failed, rows)) s = .next (((gctlWrite s 2).setFld rBoot 3 0 14).setFlag rBoot 8)) ∧
  (∀ (s : State) (failed : Positions) (rows : BadRows) (k : Nat),
     s.powered = true →
     s.bootCause = 0 →
     s.stage = k →
     k ≤ 6 ∧ k ≠ 3 →
     exec (.stageComplete (failed, rows)) s = .next (s.setFld rBoot 3 0 (k + 1))) ∧
  (∀ (s : State) (cause : B8),
     s.powered = true →
     s.bootCause = 0 →
     s.stage < 14 →
     1 ≤ cause.toNat →
     cause.toNat ≤ 8 →
     exec (.stageTimeout cause) s = .next ((s.setFld rBoot 23 16 cause.toNat).log 4 1 2)) ∧
  (∀ (s : State) (inp : Inp),
     exec (.moduleReset inp) s = .next (if inp.val = s.activeKeeper then s.resetModule else if inp.val = 17 ∨ inp.val = 18 then s.event rRole 63 else s.event rBoot 62)) ∧
  (∀ (s : State) (inp : Inp) (i : CoreIx),
     inp.val = s.activeKeeper →
     s.fence i ≤ 1 →
     s.copying i = false →
     exec (.coreReset inp i) s = .next (let t1 := [0, 1, 2, 3].foldl (fun a n => a.endNow i n) s
     let t2 := ((({ t1 with free := t1.free + 1 } : State).freeHalts i).modCore i (fun k => { k.coreReset with resetEnd := s.ct + Nat.min (10 * ctPerUs) (Config.resetTime t1.free) }))
     if 2 ≤ t2.phase then t2.failCurrent else t2)) ∧
  (∀ (s : State) (i : CoreIx),
     exec (.thermalTrip i) s = .next (let s1 := (s.failStep 12).log 4 4 3
     { s1 with hiveOff := true, comb := [], flights := [], ctls := [], evStacks := [], charges := [], cores := (List.range 320).map (fun i => (i, { coreInit i with power := .deep, array := some 0 })), procs := s1.procs.map (fun p => if p.1 < 16 then (p.1, { epoch := p.2.epoch + 1 }) else p), regs := s1.regs.filter (fun p => decide (p.1 < 0x400000) || decide (0x440000 ≤ p.1)) })) ∧
  (∀ (s : State) (ins : TestIns),
     ins = .idcode →
     exec (.testPortInstruction ins) s = .next (s.send (.testPort 0))) ∧
  (∀ (s : State) (ins : TestIns),
     ins = .bypass →
     exec (.testPortInstruction ins) s = .next (s.send (.testPort 1))) ∧
  (∀ (s : State) (ins : TestIns),
     ins = .boundary →
     exec (.testPortInstruction ins) s = .next (s.send (.testPort (if s.nv.lc == 0 || s.testOpen then 2 else 1)))) ∧
  (∀ (s : State) (failed : Positions) (rows : BadRows),
     s.powered = true →
     s.bootCause ≠ 0 →
     3 ≤ s.stage → s.stage ≤ 9 →
     exec (.stageComplete (failed, rows)) s = .next { s with portReady := true })

/-- For each of S.ADD, S.SUB, S.AND, S.OR, S.XOR, S.SHL, S.SHR, S.SRA, S.MUL, S.MULH, S.MIN, S.MAX, S.MINU and S.MAXU: given in
slot S0 or S1 of a bundle that may issue, with defined source codings and bits [8:0] zero, it goes on to the state in which
the bundle has issued and rd holds the value of the table, computed from the two sources as the context saw them before the
bundle, readable after 1 cycle, or 3 for the multiplies; on a running Adsiem-S processor it issues once the registers it names
are written and writes the same value. (03_adsiem_bundles.md R78, 03_adsiem_bundles.md R79, 03_adsiem_bundles.md R80) -/
def Obligations.ScalarRegisterForms : Prop :=
  (RunsR .sAdd (fun a b => a + b) 1) ∧
  (RunsR .sSub (fun a b => a - b) 1) ∧
  (RunsR .sAnd (fun a b => a &&& b) 1) ∧
  (RunsR .sOr (fun a b => a ||| b) 1) ∧
  (RunsR .sXor (fun a b => a ^^^ b) 1) ∧
  (RunsR .sShl (fun a b => a <<< (b.toNat % 64)) 1) ∧
  (RunsR .sShr (fun a b => a >>> (b.toNat % 64)) 1) ∧
  (RunsR .sSra (fun a b => a.sshiftRight (b.toNat % 64)) 1) ∧
  (RunsR .sMul (fun a b => a * b) 3) ∧
  (RunsR .sMulh (fun a b => BitVec.ofInt 64 (a.toInt * b.toInt / 2 ^ 64)) 3) ∧
  (RunsR .sMin (fun a b => if a.slt b then a else b) 1) ∧
  (RunsR .sMax (fun a b => if a.slt b then b else a) 1) ∧
  (RunsR .sMinu (fun a b => if a.ult b then a else b) 1) ∧
  (RunsR .sMaxu (fun a b => if a.ult b then b else a) 1)

/-- For each of S.ADDI, S.ANDI, S.ORI, S.XORI, S.SHLI, S.SHRI, S.SRAI and S.MULI the value is computed from the source and imm18
sign-extended to 64 bits; S.LI writes imm27 sign-extended; S.LIX writes (rd << 27) | imm27. As in the register forms, a bundle
of the one slot that may issue goes on with rd written, and a running Adsiem-S processor writes the same value once the
registers it names are written. (03_adsiem_bundles.md R78, 03_adsiem_bundles.md R79, 03_adsiem_bundles.md R80) -/
def Obligations.ScalarImmediateForms : Prop :=
  (RunsI .sAddi (fun a b => a + b) 1) ∧
  (RunsI .sAndi (fun a b => a &&& b) 1) ∧
  (RunsI .sOri (fun a b => a ||| b) 1) ∧
  (RunsI .sXori (fun a b => a ^^^ b) 1) ∧
  (RunsI .sShli (fun a b => a <<< (b.toNat % 64)) 1) ∧
  (RunsI .sShri (fun a b => a >>> (b.toNat % 64)) 1) ∧
  (RunsI .sSrai (fun a b => a.sshiftRight (b.toNat % 64)) 1) ∧
  (RunsI .sMuli (fun a b => a * b) 3) ∧
  (CoreScalar .sLi (fun _ => true) (fun _ i n op t => t.writeReg i n (fRd op) ((BitVec.ofNat 27 (bits op 26 0)).signExtend 64) 1) ∧
     ProcScalar .sLi (fun _ => true) (fun op => [fRd op])
     (fun p op t => t.procWrite p (fRd op) 1 ((BitVec.ofNat 27 (bits op 26 0)).signExtend 64))) ∧
  (CoreScalar .sLix (fun _ => true) (fun s i n op t => t.writeReg i n (fRd op) (((s.ctx i n).sreg (fRd op) <<< 27) |||
        BitVec.ofNat 64 (bits op 26 0)) 1) ∧
     ProcScalar .sLix (fun _ => true) (fun op => [fRd op].filter (· < 32) ++ [fRd op])
     (fun p op t => t.procWrite p (fRd op) 1 (((t.proc p).sreg (fRd op) <<< 27) ||| BitVec.ofNat 64 (bits op 26 0))))

/-- With imm27 zero, S.RDCT writes to rd the canopy time that the glade holds at the edge of the present cycle, S.RDJT that time
less CLK.JOBEPOCH, S.RDCYC the cycle number, S.RDREP the replay counter, S.RDNS the sticky numeric status word, S.RDCTX the
logical core number in [15:0] with the context in [17:16] (0 for the number of a position to which none is mapped, the model's
reading, log entry 50); S.CLRNS with rd zero and imm27[26:5] zero clears the status flags that imm27[4:0] names. S.RDCT,
S.RDJT and S.RDCYC do the same on an Adsiem-S processor. (03_adsiem_bundles.md R79, 03_adsiem_bundles.md R81,
06_number_formats.md R192) -/
def Obligations.ScalarStateReads : Prop :=
  (ReadsCore .sRdct (fun s i _ => BitVec.ofNat 64 (s.edgeCt i)) ∧ ReadsProc .sRdct (fun s p => BitVec.ofNat 64 (s.procCt p))) ∧
  (ReadsCore .sRdjt (fun s i _ => BitVec.ofNat 64 (s.edgeCt i) - s.reg 0x200028) ∧ ReadsProc .sRdjt (fun s p => BitVec.ofNat 64 (s.procCt p) - s.reg 0x200028)) ∧
  (ReadsCore .sRdcyc (fun s i _ => BitVec.ofNat 64 (s.cycOf i)) ∧ ReadsProc .sRdcyc (fun s p => BitVec.ofNat 64 (s.procCycle p))) ∧
  (ReadsCore .sRdrep (fun s i n => BitVec.ofNat 64 ((s.core i).fld (offReplay n) 31 0))) ∧
  (ReadsCore .sRdns (fun s i n => (s.core i).reg (offNumstat n))) ∧
  (ReadsCore .sRdctx (fun s i n => BitVec.ofNat 64 ((s.logicalOf i).getD 0 + n * 2 ^ 16))) ∧
  (CoreScalar .sClrns (fun op => fRd op == 0 && bits op 26 5 == 0) (fun _ i n op t => t.modCore i (fun k =>
     k.setReg (offNumstat n) (k.reg (offNumstat n) &&& ~~~(BitVec.ofNat 64 (bits op 4 0))))))

/-- C.SET stores its two sources and condition code bits [2:0] in the comparator of bits [28:27]; C.SETI its source, imm18
sign-extended and the code of bits [31:29]; C.STEP adds imm18 to the first operand; C.RD writes to rd 1 where the comparator's
condition holds on the operands it holds, else 0; NOP with operand bits zero changes nothing but the issue itself, in any
slot. Each does so in a bundle of its one slot that may issue, and on a running Adsiem-S processor. (03_adsiem_bundles.md R74,
03_adsiem_bundles.md R82) -/
def Obligations.ComparatorInstructions : Prop :=
  (CoreScalar .cSet (fun op => bits op 31 29 == 0 && srcOk (fSrc1 op) && srcOk (fSrc2 op) && bits op 8 3 == 0)
     (fun s i n op t => t.modCtx i n (fun x => x.setCmp (bits op 28 27)
     ⟨srcVal (s.core i) n (fSrc1 op), srcVal (s.core i) n (fSrc2 op), BitVec.ofNat 3 (bits op 2 0)⟩)) ∧
     ProcScalar .cSet (fun op => bits op 31 29 == 0 && srcOkP (fSrc1 op) && srcOkP (fSrc2 op) && bits op 8 3 == 0)
     (fun op => [fSrc1 op, fSrc2 op].filter (· < 32))
     (fun p op t => t.modProc p (fun k => k.setCmp (bits op 28 27) ⟨k.a op, k.b op, BitVec.ofNat 3 (bits op 2 0)⟩))) ∧
  (CoreScalar .cSeti (fun op => srcOk (fSrc1 op)) (fun s i n op t => t.modCtx i n (fun x => x.setCmp (bits op 28 27)
     ⟨srcVal (s.core i) n (fSrc1 op), imm18 op, BitVec.ofNat 3 (bits op 31 29)⟩)) ∧
     ProcScalar .cSeti (fun op => srcOkP (fSrc1 op)) (fun op => [fSrc1 op].filter (· < 32)) (fun p op t => t.modProc p (fun k =>
     k.setCmp (bits op 28 27) ⟨k.a op, imm18 op, BitVec.ofNat 3 (bits op 31 29)⟩))) ∧
  (CoreScalar .cStep (fun op => bits op 31 29 == 0 && fSrc1 op == 48) (fun s i n op t => t.modCtx i n (fun x =>
     x.setCmp (bits op 28 27) { (s.ctx i n).getCmp (bits op 28 27) with
     a := ((s.ctx i n).getCmp (bits op 28 27)).a + imm18 op })) ∧
     ProcScalar .cStep (fun op => bits op 31 29 == 0 && fSrc1 op == 48) (fun _ => []) (fun p op t => t.modProc p (fun k =>
     k.setCmp (bits op 28 27) { k.getCmp (bits op 28 27) with
     a := (k.getCmp (bits op 28 27)).a + imm18 op }))) ∧
  (CoreScalar .cRd (fun op => bits op 26 20 == 0 && fSrc2 op == 48 && fSrc3 op == 0) (fun s i n op t =>
     t.writeReg i n (fRd op) (if ((s.ctx i n).getCmp (bits op 19 18)).holds then 1 else 0) 1) ∧
     ProcScalar .cRd (fun op => bits op 26 20 == 0 && fSrc2 op == 48 && fSrc3 op == 0) (fun op => [fRd op]) (fun p op t =>
     t.procWrite p (fRd op) 1 (if ((t.proc p).getCmp (bits op 19 18)).holds then 1 else 0))) ∧
  ((∀ (s : State) (i : CoreIx) (n : CtxIx) (sl : Slot) (hdr : W16), s.readyFor i n hdr = true →
     exec (.nop (.slot i n sl hdr false) 0) s = .next (s.issued i n hdr none id)) ∧
     ProcScalar .nop (fun op => op == 0) (fun _ => []) (fun _ _ t => t))

/-- In slot S0 of a bundle that may issue, with its unused fields zero: BR goes to the bundle address plus imm18 with a bubble of
1 cycle; BR.C does so where the comparator of bits [28:27] holds and BR.NC where it does not, and otherwise they fall through;
BR.R goes to the low 32 bits of its source with a bubble of 2 cycles; CALL goes to its target and writes the address of the
following bundle to s31. (03_adsiem_bundles.md R78, 03_adsiem_bundles.md R83, 03_adsiem_bundles.md R643) -/
def Obligations.Branches : Prop :=
  (CoreSlot .br .s0 (fun _ _ _ _ op => fRd op == 0 && fSrc1 op == 0)
     (fun s i n op => some ((s.ctx i n).pc + (imm18 op).setWidth 32, 1))
     (fun _ _ _ _ _ t => t)) ∧
  (CoreSlot .brC .s0 (fun _ _ _ _ op => bits op 31 29 == 0 && fSrc1 op == 0)
     (fun s i n op => if ((s.ctx i n).getCmp (bits op 28 27)).holds then some ((s.ctx i n).pc + (imm18 op).setWidth 32, 1) else none)
     (fun _ _ _ _ _ t => t)) ∧
  (CoreSlot .brNc .s0 (fun _ _ _ _ op => bits op 31 29 == 0 && fSrc1 op == 0)
     (fun s i n op => if ((s.ctx i n).getCmp (bits op 28 27)).holds then none else some ((s.ctx i n).pc + (imm18 op).setWidth 32, 1))
     (fun _ _ _ _ _ t => t)) ∧
  (CoreSlot .brR .s0 (fun _ _ _ _ op => fRd op == 0 && srcOk (fSrc1 op) && fSrc2 op == 48 && fSrc3 op == 0)
     (fun s i n op => some ((srcVal (s.core i) n (fSrc1 op)).setWidth 32, 2))
     (fun _ _ _ _ _ t => t)) ∧
  (CoreSlot .call .s0 (fun _ _ _ _ op => fRd op == 0 && fSrc1 op == 0)
     (fun s i n op => some ((s.ctx i n).pc + (imm18 op).setWidth 32, 1))
     (fun s i n _ _ t => t.writeReg i n 31 (((s.ctx i n).pc + 1).setWidth 64) 1))

/-- In slot S0 of a bundle that may issue, with bits [31:30] zero, a defined source, a body of 1 to 131071 bundles that no other
active counter ends at: LOOP writes the low 32 bits of its source to the counter of bits [29:27], records the body from the
next bundle to the bundle address plus imm18, and where the count is zero goes past the body with a bubble of 1 cycle. A
bundle that ends an active body takes one from its counter and goes back to the body, unless the count was one.
(03_adsiem_bundles.md R84, 03_adsiem_bundles.md R85, 03_adsiem_bundles.md R86, 03_adsiem_bundles.md R87) -/
def Obligations.HardwareLoop : Prop :=
  (CoreSlot .loop .s0 (fun s i n _ op => bits op 31 30 == 0 && srcOk (fSrc1 op) && bits op 17 0 != 0 &&
        decide (bits op 17 0 ≤ 131071) &&
        !(loopNest (s.ctx i n) (bits op 29 27) ((s.ctx i n).pc + BitVec.ofNat 32 (bits op 17 0))))
     (fun s i n op => if (srcVal (s.core i) n (fSrc1 op)).setWidth 32 = (0 : W32) then some ((s.ctx i n).pc + BitVec.ofNat 32 (bits op 17 0) + 1, 1) else none)
     (fun s i n _ op t => t.modCtx i n (fun x => { x.setCreg (bits op 29 27) ((srcVal (s.core i) n (fSrc1 op)).setWidth 32) with loops := Tab.put x.loops (bits op 29 27) ⟨(s.ctx i n).pc + 1, (s.ctx i n).pc + BitVec.ofNat 32 (bits op 17 0)⟩ }))) ∧
  (∀ (x : Ctx) (j : Nat), x.loopAt x.pc = some j → x.follow x.pc none =
     if x.creg j = 1 then { x.setCreg j 0 with pc := x.pc + 1 } else { x.setCreg j (x.creg j - 1) with pc := (Tab.get ⟨0, 0⟩ x.loops j).start })

/-- In slot X of an untagged bundle that may issue, with legal fields: WAIT.AT, with time qualified as its glade then sees it
(R427), waits until the canopy time at the 40-bit signed distance of its offset from job time, and retires where that distance
is not positive and bit 31 is clear; WAIT.Q waits until the queue holds N tokens; WAIT.F until the sync flag is set, clearing
it as it retires where bit 31 is set and no arrival sets it in the same cycle; WAIT.SB until no held scoreboard entry overlaps
the region. Waiting deschedules the context in its issue cycle and samples the ready contexts in the second cycle after.
(02_cores_contexts_scoreboard.md R36, 03_adsiem_bundles.md R88, 03_adsiem_bundles.md R89, 03_adsiem_bundles.md R90,
03_adsiem_bundles.md R91, 03_adsiem_bundles.md R92, 03_adsiem_bundles.md R94, 14_glades_canopy_time.md R427) -/
def Obligations.WaitInstructions : Prop :=
  (CoreSlot .waitAt .x (fun s i n hdr op => untagged hdr && bits op 30 27 == 0 && srcOk (fSrc1 op) && s.qualSeen i (s.edgeCt i) &&
        !(bit op 31 && decide (signed 40 (wrap 40 (((srcVal (s.core i) n (fSrc1 op)).toNat % 2 ^ 40 : Nat) + (imm18 op).toInt - ((s.edgeCt i : Int) - (s.reg 0x200028).toNat))) ≤ 0)))
     (fun _ _ _ _ => none)
     (fun s i n _ op t => if signed 40 (wrap 40 (((srcVal (s.core i) n (fSrc1 op)).toNat % 2 ^ 40 : Nat) + (imm18 op).toInt - ((s.edgeCt i : Int) - (s.reg 0x200028).toNat))) ≤ 0 then t else t.waitFor i n (.at (s.edgeCt i + (signed 40 (wrap 40 (((srcVal (s.core i) n (fSrc1 op)).toNat % 2 ^ 40 : Nat) + (imm18 op).toInt - ((s.edgeCt i : Int) - (s.reg 0x200028).toNat)))).toNat)))) ∧
  (CoreSlot .waitQ .x (fun _ _ _ hdr op => untagged hdr && decide (bits op 31 27 ≤ 13) && decide (1 ≤ bits op 26 22) &&
        decide (bits op 26 22 ≤ 16) && bits op 21 0 == 0)
     (fun _ _ _ _ => none)
     (fun s i n _ op t => if bits op 26 22 ≤ (s.core i).tokens (bits op 31 27) (s.cycOf i) then t else t.waitFor i n (.queue (bits op 31 27) (bits op 26 22)))) ∧
  (CoreSlot .waitF .x (fun s i n hdr op => untagged hdr && bits op 30 6 == 0 && bit ((s.core i).reg (offFlagown n)) (bits op 5 0))
     (fun _ _ _ _ => none)
     (fun s i n _ op t => if (s.core i).flag (bits op 5 0) then (if bit op 31 then t.modCore i (fun k => k.takeFlag (bits op 5 0) (s.cycOf i)) else t) else t.waitFor i n (.flag (bit op 31) (bits op 5 0)))) ∧
  (CoreSlot .waitSb .x (fun _ _ _ hdr op => untagged hdr && bits op 30 27 == 0 && srcOk (fSrc1 op) && bits op 17 16 == 0)
     (fun _ _ _ _ => none)
     (fun s i n _ op t => if (s.core i).sbHit (bit op 31) ((srcVal (s.core i) n (fSrc1 op)).toNat % 2 ^ 16) (bits op 15 0) then t.waitFor i n (.region (bit op 31) ((srcVal (s.core i) n (fSrc1 op)).toNat % 2 ^ 16) (bits op 15 0)) else t)) ∧
  (∀ (s : State) (i n : Nat) (w : Wait), (s.ctx i n).mode = .running → (s.core i).phase = .running n →
     s.waitFor i n w = s.modCore i (fun k => { k.modCtx n (fun x => { x with mode := .waiting w, after := none }) with
     phase := .switching n (s.cycOf i + 2), lastRun := n }))

/-- In an untagged bundle that may issue, with legal fields: TASK.START begins, on a context that holds no task and is not its
own, the opening clear of a task at the entry its source gives; TASK.END stops its context, which goes to the end of its task;
REPLAY.WAIT makes its context wait at the replay gate; CMT.ARRIVE, once per replay and with none of the context's operations,
streams or transfers outstanding, records the context's arrival and its FAIL bit for the commit unit.
(02_cores_contexts_scoreboard.md R53, 02_cores_contexts_scoreboard.md R54, 03_adsiem_bundles.md R98, 03_adsiem_bundles.md
R100, 12_schedule_contract.md R376) -/
def Obligations.TaskInstructions : Prop :=
  (CoreSlot .taskStart .s0 (fun s i n hdr op => untagged hdr && bits op 31 29 == 0 && srcOk (fSrc1 op) && bits op 17 0 == 0 &&
        !((s.core i).holdsTask (bits op 28 27)) && bits op 28 27 != n)
     (fun _ _ _ _ => none)
     (fun s i n _ op t => t.startTask i (bits op 28 27) ((srcVal (s.core i) n (fSrc1 op)).setWidth 32))) ∧
  (CoreSlot .taskEnd .s0 (fun _ _ _ hdr op => untagged hdr && op == 0)
     (fun _ _ _ _ => none)
     (fun _ i n _ _ t => t.stopTask i n false)) ∧
  (CoreSlot .replayWait .s0 (fun _ _ _ hdr op => untagged hdr && op == 0)
     (fun _ _ _ _ => none)
     (fun _ i n _ _ t => t.waitFor i n .replay)) ∧
  (CoreSlot .cmtArrive .x (fun s i n hdr op => untagged hdr && bits op 31 1 == 0 && !((s.ctx i n).arrived) &&
        !((s.core i).sb.any (fun e => e.ctx == n)) && !((s.core i).streams.any (fun p => p.2.ctx == n)) &&
        (s.core i).outstanding n == 0)
     (fun _ _ _ _ => none)
     (fun s i n _ op t => let u := t.modCtx i n (fun x => { x with arrived := true }); { u with cmt := { u.cmt with arrivals := u.cmt.arrivals ++ [(i, n, bit op 0, s.cycOf i)] } }))

/-- In slot S0 of an untagged bundle that may issue, with legal fields, 1 to 1024 lines and, for PRELOAD and LOCK, no line beyond
the last Cellar row: PRELOAD starts a fill of every named line that is neither present nor being filled; LOCK locks the lines
present, fills the others, and makes its context wait until they are locked; UNLOCK unlocks the lines present.
(03_adsiem_bundles.md R99, 02_cores_contexts_scoreboard.md R63, 02_cores_contexts_scoreboard.md R65) -/
def Obligations.CacheInstructions : Prop :=
  (CoreSlot .icachePreload .s0 (fun s i n hdr op => untagged hdr && fRd op == 0 && srcOk (fSrc1 op) && bits op 17 0 != 0 &&
        decide (bits op 17 0 ≤ 1024) &&
        decide ((s.core i).lineRow ((srcVal (s.core i) n (fSrc1 op)).toNat % 2 ^ 32 / 8 + bits op 17 0 - 1) ≤ lastCellarRow))
     (fun _ _ _ _ => none)
     (fun s i n _ op t => ((List.range (bits op 17 0)).map (fun j => (srcVal (s.core i) n (fSrc1 op)).toNat % 2 ^ 32 / 8 + j)).foldl (fun u l => if (u.core i).present l || (u.core i).filling l then u else u.startFill i l 4 false) t)) ∧
  (CoreSlot .icacheLock .s0 (fun s i n hdr op => untagged hdr && fRd op == 0 && srcOk (fSrc1 op) && bits op 17 0 != 0 &&
        decide (bits op 17 0 ≤ 1024) &&
        decide ((s.core i).lineRow ((srcVal (s.core i) n (fSrc1 op)).toNat % 2 ^ 32 / 8 + bits op 17 0 - 1) ≤ lastCellarRow))
     (fun _ _ _ _ => none)
     (fun s i n _ op t => let u := ((List.range (bits op 17 0)).map (fun j => (srcVal (s.core i) n (fSrc1 op)).toNat % 2 ^ 32 / 8 + j)).foldl (fun u l => if (u.core i).present l then u.lockLine i l else if (u.core i).filling l then u else u.startFill i l n true) t; let todo := ((List.range (bits op 17 0)).map (fun j => (srcVal (s.core i) n (fSrc1 op)).toNat % 2 ^ 32 / 8 + j)).filter (fun l => !((s.core i).present l)); if todo.isEmpty then u else u.waitFor i n (.lock todo))) ∧
  (CoreSlot .icacheUnlock .s0 (fun _ _ _ hdr op => untagged hdr && fRd op == 0 && srcOk (fSrc1 op) && bits op 17 0 != 0 &&
        decide (bits op 17 0 ≤ 1024))
     (fun _ _ _ _ => none)
     (fun s i n _ op t => t.modCore i (fun k => ((List.range (bits op 17 0)).map (fun j => (srcVal (s.core i) n (fSrc1 op)).toNat % 2 ^ 32 / 8 + j)).foldl (fun k l => k.unlockLine l) k)))

/-- In slot M of a bundle that may issue, where the rules of the instruction raise no fault cause and it does not stall: M.GANG
forms the gang of its shape and formats at its base, for its context, with no mask, in place of the gangs that it overlaps;
M.MASK sets the active rows and columns; M.PASS makes its pass the pending one of the gang and takes a scoreboard entry for
the tiles it will write; M.PASSR does the same with the pass word that its source holds; M.FREE dissolves the gang.
(04_matrix_arrays.md R107, 04_matrix_arrays.md R108, 04_matrix_arrays.md R109, 04_matrix_arrays.md R110, 04_matrix_arrays.md
R120, 04_matrix_arrays.md R121, 04_matrix_arrays.md R141) -/
def Obligations.MatrixInstructions : Prop :=
  (CoreSlot .mGang .m (fun s i n hdr op => clears semMGang ⟨s, i, n, .m, hdr, op⟩)
     (fun _ _ _ _ => none)
     (fun _ i n _ op t => t.modCore i (fun k => { k with gangs := Tab.put (k.gangs.filter (fun (p : Nat × Gang) => !((List.range (shapeCount p.2.shape)).any (fun j => ((List.range (shapeCount (bits op 28 25))).map (fun j => bits op 31 29 + j)).contains (p.1 + j))))) (bits op 31 29) { shape := bits op 28 25, fmtA := bits op 24 21, fmtB := bits op 20 17, sat := bit op 16, rows := 32 * (shapeRC (bits op 28 25)).1, cols := 32 * (shapeRC (bits op 28 25)).2, ctx := n } }))) ∧
  (CoreSlot .mMask .m (fun s i n hdr op => clears semMMask ⟨s, i, n, .m, hdr, op⟩)
     (fun _ _ _ _ => none)
     (fun _ i _ _ op t => t.modCore i (fun k =>
        match k.gang (bits op 31 29) with | none => k | some g => k.setGang (bits op 31 29) { g with rows := bits op 28 21 + 1, cols := bits op 20 13 + 1 }))) ∧
  (CoreSlot .mPass .m (fun s i n hdr op => clears semMPass ⟨s, i, n, .m, hdr, op⟩)
     (fun _ _ _ _ => none)
     (fun s i n hdr op t => t.modCore i (fun k =>
        match k.gang (bits op 31 29) with | none => k | some g => let first := firstTile (s.core i) n (bits op 31 29) g.shape (op); let count := shapeCount g.shape; (k.takeSb true first count n (.array (bits op 31 29)) (bits hdr 12 10)).setGang (bits op 31 29) { g with pend := some { tiles := (List.range count).map (fun j => first + j), k := passK (op), qa := passQa (op), qb := passQb (op), add := passAdd (op), rows := g.rows, cols := g.cols, tag := bits hdr 12 10, issued := s.cycOf i, bundle := (s.ctx i n).pc, entry := k.nextId } }))) ∧
  (CoreSlot .mPassr .m (fun s i n hdr op => clears semMPassr ⟨s, i, n, .m, hdr, op⟩)
     (fun _ _ _ _ => none)
     (fun s i n hdr op t => t.modCore i (fun k =>
        match k.gang (bits op 31 29) with | none => k | some g => let first := firstTile (s.core i) n (bits op 31 29) g.shape (BitVec.ofNat 32 ((srcVal (s.core i) n (bits op 28 20)).toNat % 2 ^ 29)); let count := shapeCount g.shape; (k.takeSb true first count n (.array (bits op 31 29)) (bits hdr 12 10)).setGang (bits op 31 29) { g with pend := some { tiles := (List.range count).map (fun j => first + j), k := passK (BitVec.ofNat 32 ((srcVal (s.core i) n (bits op 28 20)).toNat % 2 ^ 29)), qa := passQa (BitVec.ofNat 32 ((srcVal (s.core i) n (bits op 28 20)).toNat % 2 ^ 29)), qb := passQb (BitVec.ofNat 32 ((srcVal (s.core i) n (bits op 28 20)).toNat % 2 ^ 29)), add := passAdd (BitVec.ofNat 32 ((srcVal (s.core i) n (bits op 28 20)).toNat % 2 ^ 29)), rows := g.rows, cols := g.cols, tag := bits hdr 12 10, issued := s.cycOf i, bundle := (s.ctx i n).pc, entry := k.nextId } }))) ∧
  (CoreSlot .mFree .m (fun s i n hdr op => clears semMFree ⟨s, i, n, .m, hdr, op⟩)
     (fun _ _ _ _ => none)
     (fun _ i _ _ op t => t.modCore i (fun k => { k with gangs := Tab.erase k.gangs (bits op 31 29) })))

/-- In slot M of a bundle that may issue, where the rules of the instruction raise no fault cause and it does not stall: TM.LD and
TM.ST start a move of NT tiles from or to the home-slice rows their source names and take the scoreboard entry of what they
write; MV.CFG claims the matrix-vector path for the context and sets its configuration; MV.LDV starts a load of vector slots
from a queue; MV.PASS starts a pass over the slots as they stand and takes the entry of its result tiles; MV.FREE ends the
claim, and the vector buffer is clear 32 cycles later. (05_accumulators_matvec.md R148, 05_accumulators_matvec.md R149,
05_accumulators_matvec.md R150, 05_accumulators_matvec.md R154, 05_accumulators_matvec.md R155, 05_accumulators_matvec.md
R156, 05_accumulators_matvec.md R157, 05_accumulators_matvec.md R159, 05_accumulators_matvec.md R162) -/
def Obligations.TileMoveAndMatVecInstructions : Prop :=
  (CoreSlot .tmLd .m (fun s i n hdr op => clears semTmLd ⟨s, i, n, .m, hdr, op⟩)
     (fun _ _ _ _ => none)
     (fun s i n hdr op t => t.modCore i (fun k => let row := bits (srcVal (s.core i) n (fSrc1 op)) 15 0;
        let tile := bits op 17 9;
        let nt := bits op 8 3 + 1; { k.takeSb true tile nt n .tile (bits hdr 12 10) with move := some { ld := true, row := row, tile := tile, nt := nt, ctx := n, tag := bits hdr 12 10, issued := s.cycOf i, entry := k.nextId } }))) ∧
  (CoreSlot .tmSt .m (fun s i n hdr op => clears semTmSt ⟨s, i, n, .m, hdr, op⟩)
     (fun _ _ _ _ => none)
     (fun s i n hdr op t => t.modCore i (fun k => let row := bits (srcVal (s.core i) n (fSrc1 op)) 15 0;
        let tile := bits op 17 9;
        let nt := bits op 8 3 + 1; { (k.takePort .tile k.nextId).takeSb false row (8 * nt) n .tile (bits hdr 12 10) with move := some { ld := false, row := row, tile := tile, nt := nt, ctx := n, tag := bits hdr 12 10, issued := s.cycOf i, entry := k.nextId } }))) ∧
  (CoreSlot .mvCfg .m (fun s i n hdr op => clears semMvCfg ⟨s, i, n, .m, hdr, op⟩)
     (fun _ _ _ _ => none)
     (fun _ i n _ op t => t.modCore i (fun k => { k with mvp := { k.mvp with claim := some n, fmtW := bits op 31 28, fmtV := bits op 27 24, nv := bits op 23 21 + 1, v0 := bits op 20 18, ports := bits op 17 16, sat := bit op 15, k := 32 * (bits op 14 6 + 1) } }))) ∧
  (CoreSlot .mvLdv .m (fun s i n hdr op => clears semMvLdv ⟨s, i, n, .m, hdr, op⟩)
     (fun _ _ _ _ => none)
     (fun s i n hdr op t => t.modCore i (fun k => { k with mvp := { k.mvp with load := some { q := bits op 31 29, s := bits op 28 26, c := bits op 25 23 + 1, ctx := n, tag := bits hdr 12 10, issued := s.cycOf i, bundle := (s.ctx i n).pc } } }))) ∧
  (CoreSlot .mvPass .m (fun s i n hdr op => clears semMvPass ⟨s, i, n, .m, hdr, op⟩)
     (fun _ _ _ _ => none)
     (fun s i n hdr op t => let b : BC := ⟨s, i, n, .m, hdr, op⟩; t.modCore i (fun k =>
        let p : VPass := { wrow := mvWrow b, tile := bits op 17 9, nb := mvNb b, add := bit op 0, ctx := n, tag := bits hdr 12 10, issued := s.cycOf i, entry := k.nextId, bundle := (s.ctx i n).pc, slots := k.mvp.slots, buf := k.mvp.buf }; let k1 := k.takeSb true (bits op 17 9) (mvTiles b) n .mvp (bits hdr 12 10); { k1 with mvp := { k1.mvp with passes := k1.mvp.passes ++ [p], nextPass := s.cycOf i + 2 + mvNb b * mvD k.mvp.fmtW k.mvp.k * mvF k.mvp.ports } }))) ∧
  (CoreSlot .mvFree .m (fun s i n hdr op => clears semMvFree ⟨s, i, n, .m, hdr, op⟩)
     (fun _ _ _ _ => none)
     (fun s i _ _ _ t => t.modCore i (fun k => { k with mvp := { k.mvp with claim := none, slots := [], buf := [], clearEnd := some (s.cycOf i + 32) } })))

/-- In slot V of a bundle that may issue, where the rules of the instruction raise no fault cause and it does not stall: V.OP owns
the buffers it writes, becomes the vector unit's operation with all it read at issue, and takes the scoreboard entry, and for
home rows the write port, of its destination; V.BLD owns its buffer and starts the load of it; V.EXT writes the named element
of a buffer to rd, readable after 3 cycles, and raises NAN for a NaN; V.SEED sets the context's seed register; EP.RUN becomes
the epilogue's operation and takes the entry and write port of its destination rows. (07_vector_units.md R201,
07_vector_units.md R202, 07_vector_units.md R203, 07_vector_units.md R205, 07_vector_units.md R210, 07_vector_units.md R213,
07_vector_units.md R214, 07_vector_units.md R216, 06_number_formats.md R190) -/
def Obligations.VectorInstructions : Prop :=
  (CoreSlot .vOp .v (fun s i n hdr op => clears semVOp ⟨s, i, n, .v, hdr, op⟩)
     (fun _ _ _ _ => none)
     (fun s i n hdr op t => let b : BC := ⟨s, i, n, .v, hdr, op⟩; t.modCore i (fun k =>
        let p := { svuOf b with entry := if (svuOf b).holdsEntry then some k.nextId else none };
        let k1 := { k.ownBufs p.bufsWritten n (bits hdr 12 10) with svu := some p };
        if p.dk = 0 then (k1.takePort .svu k1.nextId).takeSb false p.daddr p.drows n .svu (bits hdr 12 10) else match svuDstTiles p with | some (a, m) => k1.takeSb true a m n .svu (bits hdr 12 10) | none => k1))) ∧
  (CoreSlot .vBld .v (fun s i n hdr op => clears semVBld ⟨s, i, n, .v, hdr, op⟩)
     (fun _ _ _ _ => none)
     (fun s i n hdr op t => t.modCore i (fun k => { k.ownBufs [bits op 31 30] n (bits hdr 12 10) with bld := some { buf := bits op 31 30, src := bits op 29 26, tile := bits op 25 17, ctx := n, tag := bits hdr 12 10, issued := s.cycOf i, bundle := (s.ctx i n).pc } }))) ∧
  (∀ (s : State) (i : CoreIx) (n : CtxIx) (hdr : W16) (op : W32) (f : Fmt), s.readyFor i n hdr = true →
     clears semVExt ⟨s, i, n, .v, hdr, op⟩ = true → fmtOf (bits op 11 7) = some f →
     exec (.vExt (.slot i n .v hdr false) op) s = .next (s.issued i n hdr none (fun t => (t.writeReg i n (fRd op)
     (extValue f ((s.core i).buf (bits op 26 25)).data (bits op 24 12)) 3).raiseFlags i n (bits hdr 12 10)
     (if extNan f ((s.core i).buf (bits op 26 25)).data (bits op 24 12) then flagNAN else 0)))) ∧
  (CoreSlot .vSeed .v (fun s i n hdr op => clears semVSeed ⟨s, i, n, .v, hdr, op⟩)
     (fun _ _ _ _ => none)
     (fun s i n _ op t => t.modCore i (fun k => k.setReg (offSeed n) (srcVal (s.core i) n (fSrc1 op))))) ∧
  (CoreSlot .epRun .v (fun s i n hdr op => clears semEpRun ⟨s, i, n, .v, hdr, op⟩)
     (fun _ _ _ _ => none)
     (fun s i n hdr op t => let b : BC := ⟨s, i, n, .v, hdr, op⟩; t.modCore i (fun k =>
        let p := { epOf b with entry := k.nextId }; { (k.takePort .epilogue k.nextId).takeSb false p.drow p.rows n .epilogue (bits hdr 12 10) with ep := some p })))

/-- In their slot of a bundle that may issue, where the rules raise no fault cause and the instruction does not stall: W.OPEN
keeps the windows of the start of its cycle, closes what was open under the window number and opens the window of the
descriptor that its source holds, for its context (in ordered mode with its sequence from the start); W.CLOSE keeps them too,
closes the window, and what it held is refused as after a close; F.START starts a stream of its context and tag at the program
row and half row of its first source with its two arguments, its first row operation possible from the next cycle; F.STOP ends
a stream at its next row boundary and does nothing to a slot that is free; F.TAKE takes N tokens of a Cellar read queue.
(08_comb.md R246, 08_comb.md R247, 08_comb.md R248, 09_forager_streams_cellar_queues.md R273,
09_forager_streams_cellar_queues.md R274, 09_forager_streams_cellar_queues.md R281, 09_forager_streams_cellar_queues.md R292,
09_forager_streams_cellar_queues.md R293) -/
def Obligations.ForagerInstructions : Prop :=
  (CoreSlot .wOpen .x (fun s i n hdr op => untagged hdr && clears semWOpen ⟨s, i, n, .x, hdr, op⟩)
     (fun _ _ _ _ => none)
     (fun s i n _ op t => let u := (t.modCore i (fun k => k.keepWins (s.cycOf i))).dropWindow i (bits op 5 0);
        let w : Win := { owner := n, desc := srcVal (s.core i) n (fSrc1 op) }; u.modCore i (fun k => { k with wins := Tab.put k.wins (bits op 5 0) { w with turn := (u.sequence w).headD 0 } }))) ∧
  (CoreSlot .wClose .x (fun s i n hdr op => untagged hdr && clears semWClose ⟨s, i, n, .x, hdr, op⟩)
     (fun _ _ _ _ => none)
     (fun s i _ _ op t => (t.modCore i (fun k => k.keepWins (s.cycOf i))).dropWindow i (bits op 5 0))) ∧
  (CoreSlot .fStart .f (fun s i n hdr op => clears semFStart ⟨s, i, n, .f, hdr, op⟩)
     (fun _ _ _ _ => none)
     (fun s i n hdr op t => t.modCore i (fun k => { k.setStream (bits op 31 28) { st := 1, ctx := n, tag := bits hdr 12 10, prow := bits (srcVal (s.core i) n (fSrc1 op)) 15 0, half := bit (srcVal (s.core i) n (fSrc1 op)) 16, a0 := srcVal (s.core i) n (fSrc2 op), a1 := srcVal (s.core i) n (fSrc3 op), from_ := s.cycOf i + 1, id := k.nextId } with nextId := k.nextId + 1 }))) ∧
  (CoreSlot .fStop .f (fun s i n hdr op => clears semFStop ⟨s, i, n, .f, hdr, op⟩)
     (fun _ _ _ _ => none)
     (fun _ i _ _ op t => t.modCore i (fun k =>
        match k.stream (bits op 31 28) with | some x => k.setStream (bits op 31 28) { x with st := 5 } | none => k))) ∧
  (CoreSlot .fTake .f (fun s i n hdr op => clears semFTake ⟨s, i, n, .f, hdr, op⟩)
     (fun _ _ _ _ => none)
     (fun _ i _ _ op t => t.modCore i (fun k => { k with rq := Tab.put k.rq (bits op 31 27 - 8) { k.rqueue (bits op 31 27 - 8) with tokens := (k.rqueue (bits op 31 27 - 8)).tokens - bits op 26 22 } })))

/-- In slot S0 of an untagged bundle that may issue, where the rules raise no fault cause: SP.OPEN, where the history table
predicts for the key, opens the tag over the extent and writes the predicted expert to rd, and otherwise writes all ones and
opens nothing; SP.TRAIN resolves the key with the expert; CONFIRM resolves the tag's key with the actual expert, and then
either squashes the tag and writes 0 to rd where the prediction was wrong, or makes the tag confirming and its context wait;
SQUASH squashes an open or confirming tag. (10_speculative_streams.md R311, 10_speculative_streams.md R315,
10_speculative_streams.md R320, 10_speculative_streams.md R321, 10_speculative_streams.md R324, 10_speculative_streams.md
R327) -/
def Obligations.SpeculationInstructions : Prop :=
  (CoreSlot .spOpen .s0 (fun s i n hdr op => untagged hdr && clears semSpOpen ⟨s, i, n, .s0, hdr, op⟩)
     (fun _ _ _ _ => none)
     (fun s i n _ op t => let key : W32 := (srcVal (s.core i) n (fSrc1 op)).setWidth 32;
        let v := srcVal (s.core i) n (fSrc2 op); let e := (s.core i).reg (0x3000 + 8 * (key.toNat % 1024)); if bit e 63 &&
        bits e 59 38 == key.toNat / 1024 &&
        decide (2 ≤ bits e 17 16) then (t.modCtx i n (fun x => x.setTag (bits op 2 0) { st := 1, sb := bits v 15 0, tb := bits v 31 16, nr := bits v 45 32, key := key, pred := BitVec.ofNat 16 (bits e 15 0) })).writeReg i n (fRd op) (BitVec.ofNat 64 (bits e 15 0)) 2 else t.writeReg i n (fRd op) (BitVec.allOnes 64) 2)) ∧
  (CoreSlot .spTrain .s0 (fun s i n hdr op => untagged hdr && clears semSpTrain ⟨s, i, n, .s0, hdr, op⟩)
     (fun _ _ _ _ => none)
     (fun s i n _ op t => t.modCore i (fun k => k.resolve ((srcVal (s.core i) n (fSrc1 op)).setWidth 32) (bits (srcVal (s.core i) n (fSrc2 op)) 15 0)))) ∧
  (CoreSlot .confirm .s0 (fun s i n hdr op => untagged hdr && clears semConfirm ⟨s, i, n, .s0, hdr, op⟩)
     (fun _ _ _ _ => none)
     (fun s i n _ op t => let g := (s.ctx i n).getTag (bits op 2 0); let actual := bits (srcVal (s.core i) n (fSrc1 op)) 15 0;
        let u := t.modCore i (fun k => k.resolve g.key actual);
        if g.pred.toNat ≠ actual then (u.squash i n (bits op 2 0)).writeReg i n (fRd op) 0 1 else (u.modCtx i n (fun x => x.setTag (bits op 2 0) { x.getTag (bits op 2 0) with st := 2, rd := fRd op })).waitFor i n (.confirm (bits op 2 0) (fRd op)))) ∧
  (CoreSlot .squash .s0 (fun s i n hdr op => untagged hdr && clears semSquash ⟨s, i, n, .s0, hdr, op⟩)
     (fun _ _ _ _ => none)
     (fun s i n _ op t => if ((s.ctx i n).getTag (bits op 2 0)).st = 1 ∨ ((s.ctx i n).getTag (bits op 2 0)).st = 2 then t.squash i n (bits op 2 0) else t)) ∧
  (∀ (k : Core) (key : W32) (a : Nat), let e := k.reg (0x3000 + 8 * (key.toNat % 1024));
     k.resolve key a = k.setReg (0x3000 + 8 * (key.toNat % 1024)) (ehtWord (key.toNat / 1024)
     (if (bit e 63 && bits e 59 38 == key.toNat / 1024) && bits e 15 0 == a then Nat.min 3 (bits e 17 16 + 1) else 0) a))

/-- In slot X of an untagged bundle that may issue, where the rules raise no fault cause and the instruction does not stall: PUT
and PUT.ADD take the core's port and a read port for as many cycles as they have rows, record the operation that awaits status
with its deadline, and begin to send the local rows to the target core's rows, as cycles pass; GET takes the port and a
scoreboard entry for the local rows, records the operation and begins to send one request a row; X.SIG and X.SIGR send the
signal of a flag to the named core, or count it as dropped where that core is out of service. (11_understory_sync_waggle.md
R334, 11_understory_sync_waggle.md R335, 11_understory_sync_waggle.md R336, 11_understory_sync_waggle.md R338,
11_understory_sync_waggle.md R340, 11_understory_sync_waggle.md R343) -/
def Obligations.TransferInstructions : Prop :=
  (CoreSlot .put .x (fun s i n hdr op => untagged hdr && clears semPut ⟨s, i, n, .x, hdr, op⟩)
     (fun _ _ _ _ => none)
     (fun s i n hdr op t => let b : BC := ⟨s, i, n, .x, hdr, op⟩; let c := s.cycOf i; let j := s.physOf (xfLogical b);
        let id := t.nextFlight; let w : State := { t with nextFlight := id + 1 }; w.modCore i (fun k => { k with sends := k.sends ++ [⟨if k.portsHeld c % 2 = 0 then 1 else 2, c, xfN op, xfSrow b, n, j, .core i n id, .rows .write (xfRow b) ((s.logicalOf i).getD 0) (if xfSig op then some (xfSigf op) else none)⟩], portFree := c + xfN op, xfers := k.xfers ++ [{ id := id, ctx := n, kind := 0, n := xfN op, bind := 0, srow := xfSrow b, got := 0, deadline := c + 3 + xfN op + 4096, entry := none, tcore := j }] }))) ∧
  (CoreSlot .putAdd .x (fun s i n hdr op => untagged hdr && clears semPutAdd ⟨s, i, n, .x, hdr, op⟩)
     (fun _ _ _ _ => none)
     (fun s i n hdr op t => let b : BC := ⟨s, i, n, .x, hdr, op⟩; let c := s.cycOf i; let j := s.physOf (xfLogical b);
        let id := t.nextFlight; let w : State := { t with nextFlight := id + 1 }; w.modCore i (fun k => { k with sends := k.sends ++ [⟨if k.portsHeld c % 2 = 0 then 1 else 2, c, xfN op, xfSrow b, n, j, .core i n id, .rows .add (xfRow b) ((s.logicalOf i).getD 0) (if xfSig op then some (xfSigf op) else none)⟩], portFree := c + xfN op, xfers := k.xfers ++ [{ id := id, ctx := n, kind := 1, n := xfN op, bind := 0, srow := xfSrow b, got := 0, deadline := c + 3 + xfN op + 4096, entry := none, tcore := j }] }))) ∧
  (CoreSlot .get .x (fun s i n hdr op => untagged hdr && clears semGet ⟨s, i, n, .x, hdr, op⟩)
     (fun _ _ _ _ => none)
     (fun s i n hdr op t => let b : BC := ⟨s, i, n, .x, hdr, op⟩; let c := s.cycOf i; let j := s.physOf (xfLogical b);
        let id := t.nextFlight; let w : State := { t with nextFlight := id + 1 }; w.modCore i (fun k => { k.takeSb false (xfSrow b) (xfN op) n .transfer 0 with sends := k.sends ++ [⟨0, c, xfN op, xfSrow b, n, j, .core i n id, .reads (xfRow b) ((s.logicalOf i).getD 0)⟩], portFree := c + xfN op, xfers := k.xfers ++ [{ id := id, ctx := n, kind := 2, n := xfN op, bind := 0, srow := xfSrow b, got := 0, deadline := c + 1 + xfN op + 4096, entry := some (t.core i).nextId, tcore := j }] }))) ∧
  (CoreSlot .xSig .x (fun s i n hdr op => untagged hdr && clears semXSig ⟨s, i, n, .x, hdr, op⟩)
     (fun _ _ _ _ => none)
     (fun s i _ _ op t => let d := bits op 30 22;
        if d = 0x1FF then t.sendCtl i (.signal (bits op 21 16)) ([], s.cycOf i + 3) else if t.inService d = false then t.count48 i 0xB08 1 else if t.physOf d = i then t.sendCtl i (.signal (bits op 21 16)) ([], s.cycOf i + 3) else t.sendCtl (t.physOf d) (.signal (bits op 21 16)) (ctlHops i (t.physOf d) (s.cycOf i)))) ∧
  (CoreSlot .xSigr .x (fun s i n hdr op => untagged hdr && clears semXSigr ⟨s, i, n, .x, hdr, op⟩)
     (fun _ _ _ _ => none)
     (fun s i n _ op t => let d := bits (srcVal (s.core i) n (fSrc1 op)) 8 0;
        if d = 0x1FF then t.sendCtl i (.signal (bits op 5 0)) ([], s.cycOf i + 3) else if t.inService d = false then t.count48 i 0xB08 1 else if t.physOf d = i then t.sendCtl i (.signal (bits op 5 0)) ([], s.cycOf i + 3) else t.sendCtl (t.physOf d) (.signal (bits op 5 0)) (ctlHops i (t.physOf d) (s.cycOf i))))

/-- In slot X of an untagged bundle that may issue, where the rules raise no fault cause and the instruction does not stall:
Q.SEND records the send that awaits status and takes the port and a read port and begins to send the rows of its message to
the bound queue of the target core, or, where that core is out of service, brings the status of reason 8 back to itself; Q.POP
writes the word at the cursor of the head message to rd, readable after 2 cycles, advances the cursor, and frees the message
with its last word; Q.SKIP frees the head message; Q.STAT and Q.SSTAT write the queue's and the binding's status word to rd.
(11_understory_sync_waggle.md R348, 11_understory_sync_waggle.md R349, 11_understory_sync_waggle.md R350,
11_understory_sync_waggle.md R354, 11_understory_sync_waggle.md R360) -/
def Obligations.WaggleInstructions : Prop :=
  (CoreSlot .qSend .x (fun s i n hdr op => untagged hdr && clears semQSend ⟨s, i, n, .x, hdr, op⟩)
     (fun _ _ _ _ => none)
     (fun s i n hdr op t => let b : BC := ⟨s, i, n, .x, hdr, op⟩; let c := s.cycOf i;
        let bd := (s.core i).reg (offBind n (bits op 31 28)); let j := s.physOf (bits bd 8 0); let id := t.nextFlight;
        let w : State := { t with nextFlight := id + 1 };
        let r := w.modCore i (fun k => { k with xfers := k.xfers ++ [{ id := id, ctx := n, kind := 3, n := qsRows op, bind := bits op 31 28, srow := qsSrow b, got := 0, deadline := c + 3 + qsRows op + 4096, entry := none, tcore := j }] }); if s.inService (bits bd 8 0) = false then r.sendCtl i (.status id 8) ([], c + 3) else r.modCore i (fun k => { k with sends := k.sends ++ [⟨if k.portsHeld c % 2 = 0 then 1 else 2, c, qsRows op, qsSrow b, n, j, .core i n id, .msg (bits bd 12 9) (BitVec.ofNat 32 (bits bd 63 32)) (bits op 27 24 + 1)⟩], portFree := c + qsRows op }))) ∧
  (∀ (s : State) (i : CoreIx) (n : CtxIx) (hdr : W16) (op : W32) (m : Msg), s.readyFor i n hdr = true → untagged hdr = true →
     clears semQPop ⟨s, i, n, .x, hdr, op⟩ = true → ((s.core i).wq_ (bits op 26 23)).head? (s.cycOf i) = some m →
     exec (.qPop (.slot i n .x hdr false) op) s = .next (s.issued i n hdr none (fun t =>
     let w := (s.core i).wq_ (bits op 26 23)
     let w1 := if w.cursor + 1 = 8 * m.ns then w.pop (s.cycOf i) else { w with cursor := w.cursor + 1 }
     (t.modCore i (fun k => { k with waggle := Tab.put k.waggle (bits op 26 23) w1 })).writeReg i n (fRd op) (BitVec.ofNat 64 (field m.data (64 * w.cursor) 64)) 2))) ∧
  (CoreSlot .qSkip .x (fun s i n hdr op => untagged hdr && clears semQSkip ⟨s, i, n, .x, hdr, op⟩)
     (fun _ _ _ _ => none)
     (fun s i _ _ op t => t.modCore i (fun k => { k with waggle := Tab.put k.waggle (bits op 26 23) ((k.wq_ (bits op 26 23)).pop (s.cycOf i)) }))) ∧
  (CoreSlot .qStat .x (fun s i n hdr op => untagged hdr && clears semQStat ⟨s, i, n, .x, hdr, op⟩)
     (fun _ _ _ _ => none)
     (fun s i n _ op t => t.writeReg i n (fRd op) ((s.core i).wqStat (bits op 26 23) (s.cycOf i)) 2)) ∧
  (CoreSlot .qSstat .x (fun s i n hdr op => untagged hdr && clears semQSstat ⟨s, i, n, .x, hdr, op⟩)
     (fun _ _ _ _ => none)
     (fun s i n _ op t => t.writeReg i n (fRd op) ((s.core i).sstat n (bits op 26 23)) 2))

/-- On a running processor with no load in progress, with legal fields, once the registers named are written: BR, BR.C, BR.NC,
BR.R and CALL go to their target, in instructions, with bubbles of 1 cycle, and 2 for BR.R, or fall through to the next
instruction or the loop's start; CALL writes the number of the following instruction to s31; LOOP loads its counter and body,
or goes past the body where the count is zero. (03_adsiem_bundles.md R83, 03_adsiem_bundles.md R84, 03_adsiem_bundles.md R101,
03_adsiem_bundles.md R102, 03_adsiem_bundles.md R104) -/
def Obligations.ProcessorBranches : Prop :=
  (∀ (s : State) (p : ProcIx) (op : W32), (s.proc p).st = 1 → (s.proc p).load = none → fRd op = 0 ∧ fSrc1 op = 0 →
     let t := s.procIssue p ([])
     t.interrupts p = false →
     exec (.br (.proc p) op) s = .next ((t).procDone p t.rootNow (some ((s.proc p).pc + (imm18 op).setWidth 32, 1)))) ∧
  (∀ (s : State) (p : ProcIx) (op : W32), (s.proc p).st = 1 → (s.proc p).load = none → bits op 31 29 = 0 ∧ fSrc1 op = 0 →
     let t := s.procIssue p ([])
     t.interrupts p = false →
     exec (.brC (.proc p) op) s = .next ((t).procDone p t.rootNow (if ((s.proc p).getCmp (bits op 28 27)).holds then some ((s.proc p).pc + (imm18 op).setWidth 32, 1) else none))) ∧
  (∀ (s : State) (p : ProcIx) (op : W32), (s.proc p).st = 1 → (s.proc p).load = none → bits op 31 29 = 0 ∧ fSrc1 op = 0 →
     let t := s.procIssue p ([])
     t.interrupts p = false →
     exec (.brNc (.proc p) op) s = .next ((t).procDone p t.rootNow (if ((s.proc p).getCmp (bits op 28 27)).holds then none else some ((s.proc p).pc + (imm18 op).setWidth 32, 1)))) ∧
  (∀ (s : State) (p : ProcIx) (op : W32), (s.proc p).st = 1 → (s.proc p).load = none → fRd op = 0 ∧ srcOkP (fSrc1 op) = true ∧ fSrc2 op = 48 ∧ fSrc3 op = 0 →
     let t := s.procIssue p ([fSrc1 op].filter (· < 32))
     t.interrupts p = false →
     exec (.brR (.proc p) op) s = .next ((t).procDone p t.rootNow (some (((s.proc p).a op).setWidth 32, 2)))) ∧
  (∀ (s : State) (p : ProcIx) (op : W32), (s.proc p).st = 1 → (s.proc p).load = none → fRd op = 0 ∧ fSrc1 op = 0 →
     let t := s.procIssue p ([31])
     t.interrupts p = false →
     exec (.call (.proc p) op) s = .next ((t.procWrite p 31 1 (((s.proc p).pc + 1).setWidth 64)).procDone p t.rootNow (some ((s.proc p).pc + (imm18 op).setWidth 32, 1)))) ∧
  (∀ (s : State) (p : ProcIx) (op : W32), (s.proc p).st = 1 → (s.proc p).load = none → bits op 31 30 = 0 ∧ srcOkP (fSrc1 op) = true ∧ bits op 17 0 ≠ 0 ∧ bits op 17 0 ≤ 131071 ∧
     (List.range 8).any (fun j => j ≠ bits op 29 27 && (s.proc p).creg j ≠ 0 &&
        (Tab.get ⟨0, 0⟩ (s.proc p).loops j).last == (s.proc p).bodyEnd op) = false →
     let t := s.procIssue p ([fSrc1 op].filter (· < 32))
     t.interrupts p = false →
     exec (.loop (.proc p) op) s = .next ((t.modProc p (fun k => { k with c := Tab.put k.c (bits op 29 27) ((k.a op).setWidth 32), loops := Tab.put k.loops (bits op 29 27) ⟨k.pc + 1, k.pc + BitVec.ofNat 32 (bits op 17 0)⟩ })).procDone p t.rootNow (if ((s.proc p).a op).setWidth 32 = (0 : W32) then some ((s.proc p).pc + BitVec.ofNat 32 (bits op 17 0) + 1, 1) else none)))

/-- On a running processor with no load in progress, with a defined source coding, where the address (source plus imm18) is
aligned to the access: with address bit 63 clear and inside the local SRAM, S.LD8, S.LD16, S.LD32 and S.LD64 write the
little-endian bytes, zero-extended, to rd, readable after 2 cycles, and S.ST8 to S.ST64 write the low bytes of rd; with bit 63
set and bits [62:48] zero, and room at the processor's bus input, a load pushes its read and waits, and a store pushes its
write and goes on. (03_adsiem_bundles.md R103, 03_adsiem_bundles.md R104, 19_control_processors_events.md R530,
19_control_processors_events.md R541) -/
def Obligations.ProcessorMemory : Prop :=
  (∀ (s : State) (p : ProcIx) (op : W32), (s.proc p).st = 1 → (s.proc p).load = none → srcOkP (fSrc1 op) = true →
     let a := (s.proc p).a op + imm18 op
     let t := s.procIssue p ([fSrc1 op].filter (· < 32) ++ [fRd op])
     t.interrupts p = false →
     a.toNat % 1 = 0 →
     (bit a 63 = false → bits a 62 0 < sramSize p → exec (.sLd8 (.proc p) op) s = .next ((t.procWrite p (fRd op) 2 (BitVec.ofNat 64 ((s.proc p).portRead false (t.procCycle p) a.toNat 1))).procDone p t.rootNow none)) ∧
     (bit a 63 = true → bits a 62 48 = 0 → t.busRoom (procInput p) = true → exec (.sLd8 (.proc p) op) s = .next ((t.modProc p (fun k => { k with load := some (fRd op, 1, a) })).busPush (procInput p) ⟨false, bits a 47 0, 1, 0, .load p (s.proc p).epoch⟩))) ∧
  (∀ (s : State) (p : ProcIx) (op : W32), (s.proc p).st = 1 → (s.proc p).load = none → srcOkP (fSrc1 op) = true →
     let a := (s.proc p).a op + imm18 op
     let t := s.procIssue p ([fSrc1 op, fRd op].filter (· < 32))
     t.interrupts p = false →
     a.toNat % 1 = 0 →
     (bit a 63 = false → bits a 62 0 < sramSize p → exec (.sSt8 (.proc p) op) s = .next ((t.modProc p (fun k => k.portWrite false (t.procCycle p) a.toNat 1 (((s.proc p).sreg (fRd op)).toNat % 2 ^ 8))).procDone p t.rootNow none)) ∧
     (bit a 63 = true → bits a 62 48 = 0 → t.busRoom (procInput p) = true → exec (.sSt8 (.proc p) op) s = .next ((t.busPush (procInput p) ⟨true, bits a 47 0, 1, ((s.proc p).sreg (fRd op)).toNat % 2 ^ 8, .store p (s.proc p).epoch⟩).procDone p t.rootNow none))) ∧
  (∀ (s : State) (p : ProcIx) (op : W32), (s.proc p).st = 1 → (s.proc p).load = none → srcOkP (fSrc1 op) = true →
     let a := (s.proc p).a op + imm18 op
     let t := s.procIssue p ([fSrc1 op].filter (· < 32) ++ [fRd op])
     t.interrupts p = false →
     a.toNat % 2 = 0 →
     (bit a 63 = false → bits a 62 0 < sramSize p → exec (.sLd16 (.proc p) op) s = .next ((t.procWrite p (fRd op) 2 (BitVec.ofNat 64 ((s.proc p).portRead false (t.procCycle p) a.toNat 2))).procDone p t.rootNow none)) ∧
     (bit a 63 = true → bits a 62 48 = 0 → t.busRoom (procInput p) = true → exec (.sLd16 (.proc p) op) s = .next ((t.modProc p (fun k => { k with load := some (fRd op, 2, a) })).busPush (procInput p) ⟨false, bits a 47 0, 2, 0, .load p (s.proc p).epoch⟩))) ∧
  (∀ (s : State) (p : ProcIx) (op : W32), (s.proc p).st = 1 → (s.proc p).load = none → srcOkP (fSrc1 op) = true →
     let a := (s.proc p).a op + imm18 op
     let t := s.procIssue p ([fSrc1 op, fRd op].filter (· < 32))
     t.interrupts p = false →
     a.toNat % 2 = 0 →
     (bit a 63 = false → bits a 62 0 < sramSize p → exec (.sSt16 (.proc p) op) s = .next ((t.modProc p (fun k => k.portWrite false (t.procCycle p) a.toNat 2 (((s.proc p).sreg (fRd op)).toNat % 2 ^ 16))).procDone p t.rootNow none)) ∧
     (bit a 63 = true → bits a 62 48 = 0 → t.busRoom (procInput p) = true → exec (.sSt16 (.proc p) op) s = .next ((t.busPush (procInput p) ⟨true, bits a 47 0, 2, ((s.proc p).sreg (fRd op)).toNat % 2 ^ 16, .store p (s.proc p).epoch⟩).procDone p t.rootNow none))) ∧
  (∀ (s : State) (p : ProcIx) (op : W32), (s.proc p).st = 1 → (s.proc p).load = none → srcOkP (fSrc1 op) = true →
     let a := (s.proc p).a op + imm18 op
     let t := s.procIssue p ([fSrc1 op].filter (· < 32) ++ [fRd op])
     t.interrupts p = false →
     a.toNat % 4 = 0 →
     (bit a 63 = false → bits a 62 0 < sramSize p → exec (.sLd32 (.proc p) op) s = .next ((t.procWrite p (fRd op) 2 (BitVec.ofNat 64 ((s.proc p).portRead false (t.procCycle p) a.toNat 4))).procDone p t.rootNow none)) ∧
     (bit a 63 = true → bits a 62 48 = 0 → t.busRoom (procInput p) = true → exec (.sLd32 (.proc p) op) s = .next ((t.modProc p (fun k => { k with load := some (fRd op, 4, a) })).busPush (procInput p) ⟨false, bits a 47 0, 4, 0, .load p (s.proc p).epoch⟩))) ∧
  (∀ (s : State) (p : ProcIx) (op : W32), (s.proc p).st = 1 → (s.proc p).load = none → srcOkP (fSrc1 op) = true →
     let a := (s.proc p).a op + imm18 op
     let t := s.procIssue p ([fSrc1 op, fRd op].filter (· < 32))
     t.interrupts p = false →
     a.toNat % 4 = 0 →
     (bit a 63 = false → bits a 62 0 < sramSize p → exec (.sSt32 (.proc p) op) s = .next ((t.modProc p (fun k => k.portWrite false (t.procCycle p) a.toNat 4 (((s.proc p).sreg (fRd op)).toNat % 2 ^ 32))).procDone p t.rootNow none)) ∧
     (bit a 63 = true → bits a 62 48 = 0 → t.busRoom (procInput p) = true → exec (.sSt32 (.proc p) op) s = .next ((t.busPush (procInput p) ⟨true, bits a 47 0, 4, ((s.proc p).sreg (fRd op)).toNat % 2 ^ 32, .store p (s.proc p).epoch⟩).procDone p t.rootNow none))) ∧
  (∀ (s : State) (p : ProcIx) (op : W32), (s.proc p).st = 1 → (s.proc p).load = none → srcOkP (fSrc1 op) = true →
     let a := (s.proc p).a op + imm18 op
     let t := s.procIssue p ([fSrc1 op].filter (· < 32) ++ [fRd op])
     t.interrupts p = false →
     a.toNat % 8 = 0 →
     (bit a 63 = false → bits a 62 0 < sramSize p → exec (.sLd64 (.proc p) op) s = .next ((t.procWrite p (fRd op) 2 (BitVec.ofNat 64 ((s.proc p).portRead false (t.procCycle p) a.toNat 8))).procDone p t.rootNow none)) ∧
     (bit a 63 = true → bits a 62 48 = 0 → t.busRoom (procInput p) = true → exec (.sLd64 (.proc p) op) s = .next ((t.modProc p (fun k => { k with load := some (fRd op, 8, a) })).busPush (procInput p) ⟨false, bits a 47 0, 8, 0, .load p (s.proc p).epoch⟩))) ∧
  (∀ (s : State) (p : ProcIx) (op : W32), (s.proc p).st = 1 → (s.proc p).load = none → srcOkP (fSrc1 op) = true →
     let a := (s.proc p).a op + imm18 op
     let t := s.procIssue p ([fSrc1 op, fRd op].filter (· < 32))
     t.interrupts p = false →
     a.toNat % 8 = 0 →
     (bit a 63 = false → bits a 62 0 < sramSize p → exec (.sSt64 (.proc p) op) s = .next ((t.modProc p (fun k => k.portWrite false (t.procCycle p) a.toNat 8 (((s.proc p).sreg (fRd op)).toNat % 2 ^ 64))).procDone p t.rootNow none)) ∧
     (bit a 63 = true → bits a 62 48 = 0 → t.busRoom (procInput p) = true → exec (.sSt64 (.proc p) op) s = .next ((t.busPush (procInput p) ⟨true, bits a 47 0, 8, ((s.proc p).sreg (fRd op)).toNat % 2 ^ 64, .store p (s.proc p).epoch⟩).procDone p t.rootNow none)))

/-- On a running processor with no load in progress, where no interrupt is taken before it, each completes: S.RDCSR writes to rd
what the control register of op[11:0] reads as, STATUS, EPC, CAUSE, TVAL, VECBASE and SCRATCH as they stand; S.WRCSR writes
its source to the control register, STATUS keeping bits [2:0]; S.WFE goes on where a waking source exists and otherwise
sleeps; S.ERET goes to the instruction of EPC with IE as saved and EXL clear. Each goes on to the next instruction, and S.ERET
to EPC. (19_control_processors_events.md R531, 19_control_processors_events.md R532, 19_control_processors_events.md R540,
03_adsiem_bundles.md R103) -/
def Obligations.ProcessorControl : Prop :=
  (∀ (s : State) (p : ProcIx) (op : W32), (s.proc p).st = 1 → (s.proc p).load = none →
     let t := s.procIssue p [fRd op]
     t.interrupts p = false →
     exec (.sRdcsr (.proc p) op) s = .next (((t.csrRead p (bits op 11 0)).1.procWrite p (fRd op) 1 (t.csrRead p (bits op 11 0)).2).procDone p t.rootNow none)) ∧
  (∀ (s : State) (p : ProcIx) (op : W32), (s.proc p).st = 1 → (s.proc p).load = none → srcOkP (fSrc1 op) = true →
     let t := s.procIssue p ([fSrc1 op].filter (· < 32))
     t.interrupts p = false →
     exec (.sWrcsr (.proc p) op) s = .next ((t.csrWrite p (bits op 11 0) ((s.proc p).a op)).procDone p t.rootNow none)) ∧
  (∀ (s : State) (p : ProcIx) (op : W32), (s.proc p).st = 1 → (s.proc p).load = none →
     let t := s.procIssue p []
     t.interrupts p = false →
     (t.wakes p = true → exec (.sWfe (.proc p) op) s = .next (t.procDone p t.rootNow none)) ∧
     (t.wakes p = false → exec (.sWfe (.proc p) op) s = .next ((t.modProc p (fun k => { k with st := 2 })).procDone p t.rootNow none))) ∧
  (∀ (s : State) (p : ProcIx) (op : W32), (s.proc p).st = 1 → (s.proc p).load = none →
     let t := s.procIssue p []
     t.interrupts p = false →
     exec (.sEret (.proc p) op) s = .next ((t.modProc p (fun k => { k with status := setBit (setBit k.status 0 (bit k.status 1)) 2 false })).procDone p t.rootNow (some ((s.proc p).epc.setWidth 32, 0)))) ∧
  (∀ (s : State) (p : ProcIx) (op : W32) (n : Nat) (f : Proc → W64), (s.proc p).st = 1 → (s.proc p).load = none →
     (n, f) ∈ [(0x000, Proc.status), (0x001, Proc.epc), (0x002, Proc.cause), (0x003, Proc.tval), (0x004, Proc.vecbase), (0x005, Proc.scratch)] →
     bits op 11 0 = n →
     let t := s.procIssue p [fRd op]
     t.interrupts p = false →
     exec (.sRdcsr (.proc p) op) s = .next ((t.procWrite p (fRd op) 1 (f (s.proc p))).procDone p t.rootNow none)) ∧
  (∀ (s : State) (p : ProcIx) (op : W32) (n : Nat) (f : W64 → Proc → Proc), (s.proc p).st = 1 → (s.proc p).load = none → srcOkP (fSrc1 op) = true →
     (n, f) ∈ [(0x000, fun v k => { k with status := v &&& 7 }), (0x001, fun v k => { k with epc := v }), (0x004, fun v k => { k with vecbase := v }), (0x005, fun v k => { k with scratch := v })] →
     bits op 11 0 = n →
     let t := s.procIssue p ([fSrc1 op].filter (· < 32))
     t.interrupts p = false →
     exec (.sWrcsr (.proc p) op) s = .next ((t.modProc p (f ((s.proc p).a op))).procDone p t.rootNow none))

/-- Given to a running processor with no load in progress, an instruction that Adsiem-S does not carry (every slot instruction of
the matrix, vector, stream and transfer units, the waits, the task and cache instructions, and the reads of context state)
raises cause 1 with the opcode word in TVAL; a misaligned access raises cause 2, and one beyond the SRAM or with service
address bits [62:48] not zero cause 3, with the address in TVAL. An entry with EXL clear saves the program counter in EPC, IE
in STATUS[1], clears IE, sets EXL, writes CAUSE and TVAL and goes to VECBASE; with EXL set the processor halts in DOUBLE and
event bit 0 is raised to the Keeper, and neither register changes. (19_control_processors_events.md R532,
19_control_processors_events.md R533, 03_adsiem_bundles.md R102, 03_adsiem_bundles.md R103) -/
def Obligations.ProcessorExceptions : Prop :=
  (∀ (s : State) (p : ProcIx) (op : W32), (s.proc p).st = 1 → (s.proc p).load = none → let t := s.procIssue p []
     t.interrupts p = false →
     exec (.sRdrep (.proc p) op) s = .next (t.exception p 1 (BitVec.ofNat 64 (35 * 2 ^ 32 + op.toNat))) ∧
     exec (.sRdns (.proc p) op) s = .next (t.exception p 1 (BitVec.ofNat 64 (36 * 2 ^ 32 + op.toNat))) ∧
     exec (.sClrns (.proc p) op) s = .next (t.exception p 1 (BitVec.ofNat 64 (37 * 2 ^ 32 + op.toNat))) ∧
     exec (.sRdctx (.proc p) op) s = .next (t.exception p 1 (BitVec.ofNat 64 (38 * 2 ^ 32 + op.toNat))) ∧
     exec (.waitAt (.proc p) op) s = .next (t.exception p 1 (BitVec.ofNat 64 (96 * 2 ^ 32 + op.toNat))) ∧
     exec (.waitQ (.proc p) op) s = .next (t.exception p 1 (BitVec.ofNat 64 (97 * 2 ^ 32 + op.toNat))) ∧
     exec (.waitF (.proc p) op) s = .next (t.exception p 1 (BitVec.ofNat 64 (98 * 2 ^ 32 + op.toNat))) ∧
     exec (.waitSb (.proc p) op) s = .next (t.exception p 1 (BitVec.ofNat 64 (99 * 2 ^ 32 + op.toNat))) ∧
     exec (.cmtArrive (.proc p) op) s = .next (t.exception p 1 (BitVec.ofNat 64 (100 * 2 ^ 32 + op.toNat))) ∧
     exec (.taskStart (.proc p) op) s = .next (t.exception p 1 (BitVec.ofNat 64 (112 * 2 ^ 32 + op.toNat))) ∧
     exec (.taskEnd (.proc p) op) s = .next (t.exception p 1 (BitVec.ofNat 64 (113 * 2 ^ 32 + op.toNat))) ∧
     exec (.replayWait (.proc p) op) s = .next (t.exception p 1 (BitVec.ofNat 64 (114 * 2 ^ 32 + op.toNat))) ∧
     exec (.icachePreload (.proc p) op) s = .next (t.exception p 1 (BitVec.ofNat 64 (116 * 2 ^ 32 + op.toNat))) ∧
     exec (.icacheLock (.proc p) op) s = .next (t.exception p 1 (BitVec.ofNat 64 (117 * 2 ^ 32 + op.toNat))) ∧
     exec (.icacheUnlock (.proc p) op) s = .next (t.exception p 1 (BitVec.ofNat 64 (118 * 2 ^ 32 + op.toNat)))) ∧
  (∀ (s : State) (p : ProcIx) (c : Iss → W32 → Instr) (n : Nat) (op : W32),
     (c, n) ∈ [(Instr.sLd8, 1), (Instr.sLd16, 2), (Instr.sLd32, 4), (Instr.sLd64, 8)] →
     (s.proc p).st = 1 → (s.proc p).load = none → srcOkP (fSrc1 op) = true →
     let a := (s.proc p).a op + imm18 op
     let t := s.procIssue p ([fSrc1 op].filter (· < 32) ++ [fRd op])
     t.interrupts p = false →
     (a.toNat % n ≠ 0 → exec (c (.proc p) op) s = .next (t.exception p 2 a)) ∧
     (a.toNat % n = 0 → (if bit a 63 then bits a 62 48 ≠ 0 else sramSize p ≤ bits a 62 0) →
     exec (c (.proc p) op) s = .next (t.exception p 3 a))) ∧
  (∀ (s : State) (p : ProcIx) (c : Iss → W32 → Instr) (n : Nat) (op : W32),
     (c, n) ∈ [(Instr.sSt8, 1), (Instr.sSt16, 2), (Instr.sSt32, 4), (Instr.sSt64, 8)] →
     (s.proc p).st = 1 → (s.proc p).load = none → srcOkP (fSrc1 op) = true →
     let a := (s.proc p).a op + imm18 op
     let t := s.procIssue p ([fSrc1 op, fRd op].filter (· < 32))
     t.interrupts p = false →
     (a.toNat % n ≠ 0 → exec (c (.proc p) op) s = .next (t.exception p 2 a)) ∧
     (a.toNat % n = 0 → (if bit a 63 then bits a 62 48 ≠ 0 else sramSize p ≤ bits a 62 0) →
     exec (c (.proc p) op) s = .next (t.exception p 3 a))) ∧
  (∀ (s : State) (p cause : Nat) (v : W64), bit (s.proc p).status 2 = false → s.exception p cause v =
     s.modProc p (fun k => { k with epc := k.pc.setWidth 64, cause := BitVec.ofNat 64 cause, tval := v, pc := k.vecbase.setWidth 32, status := setBit (setBit (setBit k.status 1 (bit k.status 0)) 0 false) 2 true, nextAt := s.rootNow + procPeriod p, st := 1 })) ∧
  (∀ (s : State) (p cause : Nat) (v : W64), bit (s.proc p).status 2 = true →
     s.exception p cause v = (s.modProc p (fun k => { k with st := 3 })).event 0x100018 0)
end

