-- ==== Sys2Proof/Laws/Bits.lean ====
section
/-! SUPPORT.
Laws of bit fields: what a field reads after a field of the same word is written. -/

namespace Sys2Proof.Machine

/-- Bit `j` of a field is bit `lo + j` of the word. -/
theorem testBit_bits {w : Nat} (v : BitVec w) (hi lo j : Nat) :
    Nat.testBit (bits v hi lo) j = (decide (j < hi + 1 - lo) && v.getLsbD (lo + j)) := by
  simp [bits, Nat.testBit_mod_two_pow, Nat.testBit_shiftRight, BitVec.getLsbD]

/-- Bit `k` of a word after the field `[hi:lo]` is written. -/
theorem getLsbD_setBits {w : Nat} (v : BitVec w) (hi lo x k : Nat) (hk : k < w) :
    (setBits v hi lo x).getLsbD k = if lo ≤ k ∧ k ≤ hi then x.testBit (k - lo) else v.getLsbD k := by
  have hm : ((2 ^ (hi + 1 - lo) - 1) <<< lo).testBit k = decide (lo ≤ k ∧ k ≤ hi) := by
    rw [Nat.testBit_shiftLeft, Nat.testBit_two_pow_sub_one]
    by_cases h : lo ≤ k <;> simp [h]
    omega
  simp only [setBits, BitVec.getLsbD_or, BitVec.getLsbD_and, BitVec.getLsbD_not, BitVec.getLsbD_ofNat, hk, decide_true,
    Bool.true_and, hm, Nat.testBit_shiftLeft]
  by_cases h : lo ≤ k ∧ k ≤ hi
  · simp [h]
  · simp [h]

/-- The written field reads as the value written, cut to its width. -/
theorem bits_setBits_self {w : Nat} (v : BitVec w) (hi lo x : Nat) (hw : hi < w) (_h : lo ≤ hi) :
    bits (setBits v hi lo x) hi lo = x % 2 ^ (hi + 1 - lo) := by
  apply Nat.eq_of_testBit_eq
  intro j
  rw [testBit_bits, Nat.testBit_mod_two_pow]
  by_cases hj : j < hi + 1 - lo
  · rw [getLsbD_setBits _ _ _ _ _ (by omega)]
    have : lo ≤ lo + j ∧ lo + j ≤ hi := by omega
    simp [hj, this]
  · simp [hj]

/-- A field that shares no bit with the written one reads as before. -/
theorem bits_setBits_other {w : Nat} (v : BitVec w) (hi lo x h l : Nat) (hw : h < w) (d : h < lo ∨ hi < l) :
    bits (setBits v hi lo x) h l = bits v h l := by
  apply Nat.eq_of_testBit_eq
  intro j
  rw [testBit_bits, testBit_bits]
  by_cases hj : j < h + 1 - l
  · rw [getLsbD_setBits _ _ _ _ _ (by omega)]
    have : ¬ (lo ≤ l + j ∧ l + j ≤ hi) := by omega
    simp [this]
  · simp [hj]

/-- Bit `k` outside the written field is unchanged. -/
theorem bit_setBits_other {w : Nat} (v : BitVec w) (hi lo x k : Nat) (hk : k < w) (d : k < lo ∨ hi < k) :
    bit (setBits v hi lo x) k = bit v k := by
  have : ¬ (lo ≤ k ∧ k ≤ hi) := by omega
  simp only [bit, getLsbD_setBits _ _ _ _ _ hk, this, if_false]

end Sys2Proof.Machine
end

