-- ==== Sys2Proof/Laws/Tab.lean ====
section
/-! SUPPORT.
Laws of sparse tables: what a write leaves, and that every memory operation keeps the canonical form. -/

namespace Sys2Proof.Machine

@[simp] theorem Tab.get_nil {α : Type} (d : α) (k : Nat) : Tab.get d [] k = d := rfl

/-- A read after a write: the written key holds the value, every other key what it held. -/
theorem Tab.get_put {α : Type} (d : α) (t : Tab α) (k j : Nat) (v : α) :
    Tab.get d (Tab.put t k v) j = if j = k then v else Tab.get d t j := by
  induction t with
  | nil =>
    by_cases h : j = k
    · subst h; simp [Tab.put, Tab.get]
    · simp [Tab.put, Tab.get, h, Ne.symm h]
  | cons p r ih =>
    obtain ⟨i, w⟩ := p
    by_cases hi : i = k
    · subst hi
      by_cases h : j = i
      · subst h; simp [Tab.put, Tab.get]
      · simp [Tab.put, Tab.get, h, Ne.symm h]
    · by_cases hk : k < i
      · by_cases h : j = k
        · subst h; simp [Tab.put, Tab.get, hi, hk]
        · simp [Tab.put, Tab.get, hi, hk, h, Ne.symm h]
      · by_cases h : i = j
        · subst h; simp [Tab.put, Tab.get, hi, hk]
        · simp [Tab.put, Tab.get, hi, hk, h, ih]

@[simp] theorem Tab.get_put_self {α : Type} (d : α) (t : Tab α) (k : Nat) (v : α) : Tab.get d (Tab.put t k v) k = v := by
  simp [Tab.get_put]

/-- Filtering by key: a kept key reads as before, a dropped one as the default. -/
theorem Tab.get_filter {α : Type} (d : α) (t : Tab α) (p : Nat → Bool) (j : Nat) :
    Tab.get d (t.filter (fun e => p e.1)) j = if p j then Tab.get d t j else d := by
  induction t with
  | nil => simp [Tab.get]
  | cons e r ih =>
    obtain ⟨i, w⟩ := e
    by_cases hp : p i = true
    · by_cases h : i = j
      · subst h; simp [Tab.get, hp]
      · simp [Tab.get, hp, h, ih]
    · simp only [Bool.not_eq_true] at hp
      by_cases h : i = j
      · subst h; simp [hp, ih]
      · simp [Tab.get, hp, h, ih]

theorem Tab.get_erase {α : Type} (d : α) (t : Tab α) (k j : Nat) :
    Tab.get d (Tab.erase t k) j = if j = k then d else Tab.get d t j := by
  have h := Tab.get_filter d t (fun i => decide (i ≠ k)) j
  by_cases hj : j = k <;> simp [Tab.erase, hj] at h ⊢ <;> exact h

/-- A read after a store in canonical form. -/
theorem Tab.get_store {α : Type} [DecidableEq α] (d : α) (t : Tab α) (k j : Nat) (v : α) :
    Tab.get d (Tab.store d t k v) j = if j = k then v else Tab.get d t j := by
  by_cases hv : v = d
  · subst hv; simp [Tab.store, Tab.get_erase]
  · simp [Tab.store, hv, Tab.get_put]

/-- A range taken out reads as the default. -/
theorem Tab.get_eraseRange {α : Type} (d : α) (t : Tab α) (lo n j : Nat) :
    Tab.get d (Tab.eraseRange t lo n) j = if lo ≤ j ∧ j < lo + n then d else Tab.get d t j := by
  have h := Tab.get_filter d t (fun i => decide (¬ (lo ≤ i ∧ i < lo + n))) j
  by_cases hj : lo ≤ j ∧ j < lo + n <;> simp [Tab.eraseRange, hj] at h ⊢ <;> exact h

theorem Tab.wfFrom_weaken {α : Type} [DecidableEq α] {d : α} {t : Tab α} {a b : Nat} (hab : a ≤ b)
    (h : Tab.wfFrom d b t = true) : Tab.wfFrom d a t = true := by
  cases t with
  | nil => rfl
  | cons e r =>
    simp only [Tab.wfFrom, Bool.and_eq_true, decide_eq_true_eq] at h ⊢
    exact ⟨⟨by omega, h.1.2⟩, h.2⟩

theorem Tab.wfFrom_put {α : Type} [DecidableEq α] {d : α} {t : Tab α} {lo k : Nat} {v : α} (hv : v ≠ d) (hk : lo ≤ k)
    (h : Tab.wfFrom d lo t = true) : Tab.wfFrom d lo (Tab.put t k v) = true := by
  induction t generalizing lo with
  | nil => simp [Tab.put, Tab.wfFrom, hv, hk]
  | cons e r ih =>
    obtain ⟨i, w⟩ := e
    simp only [Tab.wfFrom, Bool.and_eq_true, decide_eq_true_eq] at h
    obtain ⟨⟨hi, hw⟩, hr⟩ := h
    by_cases he : i = k
    · subst he; simp [Tab.put, Tab.wfFrom, hv, hk, hr]
    · by_cases hlt : k < i
      · simp [Tab.put, Tab.wfFrom, hlt, hv, hk, hw, hr, show ¬i = k by omega]
      · have := ih (lo := i + 1) (by omega) hr
        simp [Tab.put, Tab.wfFrom, he, hlt, hi, hw, this]

theorem Tab.wfFrom_filter {α : Type} [DecidableEq α] {d : α} {t : Tab α} {lo : Nat} (p : Nat × α → Bool)
    (h : Tab.wfFrom d lo t = true) : Tab.wfFrom d lo (t.filter p) = true := by
  induction t generalizing lo with
  | nil => rfl
  | cons e r ih =>
    obtain ⟨i, w⟩ := e
    simp only [Tab.wfFrom, Bool.and_eq_true, decide_eq_true_eq] at h
    obtain ⟨⟨hi, hw⟩, hr⟩ := h
    by_cases hp : p (i, w) = true
    · simp [hp, Tab.wfFrom, hi, hw, ih hr]
    · simp [hp, Tab.wfFrom_weaken (by omega : lo ≤ i + 1) (ih hr)]

/-- A store keeps the canonical form. -/
theorem Tab.wf_store {α : Type} [DecidableEq α] {d : α} {t : Tab α} (k : Nat) (v : α) (h : Tab.wf d t = true) :
    Tab.wf d (Tab.store d t k v) = true := by
  unfold Tab.store
  split
  · exact Tab.wfFrom_filter _ h
  · exact Tab.wfFrom_put (by assumption) (Nat.zero_le _) h

theorem Tab.wf_eraseRange {α : Type} [DecidableEq α] {d : α} {t : Tab α} (lo n : Nat) (h : Tab.wf d t = true) :
    Tab.wf d (Tab.eraseRange t lo n) = true := Tab.wfFrom_filter _ h

/-- Writes of bytes, rows and erasures keep the canonical form of a memory. -/
theorem writeLE_wf (m : Tab Byte) (a n v : Nat) (h : Memory.wf 0 m = true) : Memory.wf 0 (writeLE m a n v) = true := by
  induction n generalizing m a v with
  | zero => exact h
  | succ n ih => exact ih _ _ _ (Tab.wf_store _ _ h)

theorem writeRow_wf (m : Tab Byte) (a : Nat) (v : Row) (h : Memory.wf 0 m = true) : Memory.wf 0 (writeRow m a v) = true :=
  writeLE_wf m a 512 v.toNat h

theorem eraseRange_wf (d : Byte) (m : Tab Byte) (lo n : Nat) (h : Memory.wf d m = true) :
    Memory.wf d (Tab.eraseRange m lo n) = true := Tab.wf_eraseRange lo n h

theorem flashPut_wf (v : Nv) (a : Nat) (b : Byte) (h : Memory.wf 0xFF v.flash = true) :
    Memory.wf 0xFF (v.put a b).flash = true := Tab.wf_store a b h

theorem flashErase_wf (v : Nv) (a n : Nat) (h : Memory.wf 0xFF v.flash = true) :
    Memory.wf 0xFF (v.erase a n).flash = true := eraseRange_wf 0xFF v.flash a n h

theorem flashWrite_wf (v : Nv) (a n x : Nat) (h : Memory.wf 0xFF v.flash = true) :
    Memory.wf 0xFF (v.write a n x).flash = true := by
  induction n generalizing v a x with
  | zero => exact h
  | succ n ih => exact ih _ _ _ (flashPut_wf v a _ h)

/-- A write of bytes leaves every byte outside them. -/
theorem writeLE_other (m : Tab Byte) (a n v j : Nat) (h : j < a ∨ a + n ≤ j) :
    Tab.get 0 (writeLE m a n v) j = Tab.get 0 m j := by
  induction n generalizing m a v with
  | zero => rfl
  | succ n ih =>
    show Tab.get 0 (writeLE (Tab.store 0 m a (BitVec.ofNat 8 v)) (a + 1) n (v / 256)) j = _
    rw [ih _ _ _ (by omega), Tab.get_store]
    have : j ≠ a := by omega
    simp [this]

/-- The bytes written hold the value, least significant first. -/
theorem writeLE_same (m : Tab Byte) (a n v i : Nat) (h : i < n) :
    Tab.get 0 (writeLE m a n v) (a + i) = BitVec.ofNat 8 (v / 256 ^ i) := by
  induction n generalizing m a v i with
  | zero => omega
  | succ n ih =>
    show Tab.get 0 (writeLE (Tab.store 0 m a (BitVec.ofNat 8 v)) (a + 1) n (v / 256)) (a + i) = _
    cases i with
    | zero => rw [writeLE_other _ _ _ _ _ (by omega), Tab.get_store]; simp
    | succ i =>
      have := ih (Tab.store 0 m a (BitVec.ofNat 8 v)) (a + 1) (v / 256) i (by omega)
      rw [show a + (i + 1) = a + 1 + i by omega, this, Nat.div_div_eq_div_mul, Nat.pow_succ, Nat.mul_comm 256]

/-- The bytes written, read back. -/
theorem readLE_writeLE (m : Tab Byte) (a n v : Nat) : readLE (writeLE m a n v) a n = v % 256 ^ n := by
  have h : ∀ (k : Nat) (m' : Tab Byte) (b w : Nat), (∀ i, i < k → Tab.get 0 m' (b + i) = BitVec.ofNat 8 (w / 256 ^ i)) →
      readLE m' b k = w % 256 ^ k := by
    intro k
    induction k with
    | zero => intro m' b w _; simp [readLE, Nat.mod_one]
    | succ k ih =>
      intro m' b w hb
      have h0 := hb 0 (by omega)
      have h1 := ih m' (b + 1) (w / 256) (fun i hi => by
        have := hb (i + 1) (by omega)
        rw [Nat.add_assoc, Nat.add_comm 1 i, this, Nat.div_div_eq_div_mul, Nat.pow_succ, Nat.mul_comm 256])
      simp only [Nat.add_zero, Nat.pow_zero, Nat.div_one] at h0
      simp only [readLE, h0, h1, BitVec.toNat_ofNat]
      rw [show (256 : Nat) ^ (k + 1) = 256 * 256 ^ k by rw [Nat.pow_succ, Nat.mul_comm], Nat.mod_mul]
  exact h n _ a v (fun i hi => writeLE_same m a n v i hi)

theorem readRow_writeRow (m : Tab Byte) (a : Nat) (v : Row) : readRow (writeRow m a v) a = v := by
  unfold readRow writeRow
  rw [readLE_writeLE, show (256 : Nat) ^ 512 = 2 ^ 4096 by rw [show (256 : Nat) = 2 ^ 8 from rfl, ← Nat.pow_mul]]
  rw [Nat.mod_eq_of_lt v.isLt]
  exact BitVec.eq_of_toNat_eq (by simp)

/-- The memory after reset has the canonical form. -/
theorem reset_memoryWf : State.reset.memoryWf = true := by decide

end Sys2Proof.Machine
end

