-- ==== Sys2Proof/Laws/State.lean ====
section
/-! SUPPORT.
The small laws of the state: each update of one field leaves every other field (true by rfl), the derived updates as the
base ones, and reads after writes of registers, cores, links, processors and members. -/

namespace Sys2Proof.Machine

/-! ### State.setReg -/

section
variable (s : State) (off : Nat) (v : W64)
@[simp] theorem State.setReg_ct : (s.setReg off v).ct = s.ct := rfl
@[simp] theorem State.setReg_cyc : (s.setReg off v).cyc = s.cyc := rfl
@[simp] theorem State.setReg_nextEdge : (s.setReg off v).nextEdge = s.nextEdge := rfl
@[simp] theorem State.setReg_prevEdge : (s.setReg off v).prevEdge = s.prevEdge := rfl
@[simp] theorem State.setReg_tu : (s.setReg off v).tu = s.tu := rfl
@[simp] theorem State.setReg_point : (s.setReg off v).point = s.point := rfl
@[simp] theorem State.setReg_throttled : (s.setReg off v).throttled = s.throttled := rfl
@[simp] theorem State.setReg_marks : (s.setReg off v).marks = s.marks := rfl
@[simp] theorem State.setReg_cores : (s.setReg off v).cores = s.cores := rfl
@[simp] theorem State.setReg_comb : (s.setReg off v).comb = s.comb := rfl
@[simp] theorem State.setReg_cellar : (s.setReg off v).cellar = s.cellar := rfl
@[simp] theorem State.setReg_glades : (s.setReg off v).glades = s.glades := rfl
@[simp] theorem State.setReg_flights : (s.setReg off v).flights = s.flights := rfl
@[simp] theorem State.setReg_ctls : (s.setReg off v).ctls = s.ctls := rfl
@[simp] theorem State.setReg_edgeGot : (s.setReg off v).edgeGot = s.edgeGot := rfl
@[simp] theorem State.setReg_nextFlight : (s.setReg off v).nextFlight = s.nextFlight := rfl
@[simp] theorem State.setReg_evStacks : (s.setReg off v).evStacks = s.evStacks := rfl
@[simp] theorem State.setReg_charges : (s.setReg off v).charges = s.charges := rfl
@[simp] theorem State.setReg_overruns : (s.setReg off v).overruns = s.overruns := rfl
@[simp] theorem State.setReg_monOver : (s.setReg off v).monOver = s.monOver := rfl
@[simp] theorem State.setReg_monUnder : (s.setReg off v).monUnder = s.monUnder := rfl
@[simp] theorem State.setReg_thrBase : (s.setReg off v).thrBase = s.thrBase := rfl
@[simp] theorem State.setReg_thrEnd : (s.setReg off v).thrEnd = s.thrEnd := rfl
@[simp] theorem State.setReg_links : (s.setReg off v).links = s.links := rfl
@[simp] theorem State.setReg_fifos : (s.setReg off v).fifos = s.fifos := rfl
@[simp] theorem State.setReg_fifoDue : (s.setReg off v).fifoDue = s.fifoDue := rfl
@[simp] theorem State.setReg_dma : (s.setReg off v).dma = s.dma := rfl
@[simp] theorem State.setReg_inbox : (s.setReg off v).inbox = s.inbox := rfl
@[simp] theorem State.setReg_sideWait : (s.setReg off v).sideWait = s.sideWait := rfl
@[simp] theorem State.setReg_sideCross : (s.setReg off v).sideCross = s.sideCross := rfl
@[simp] theorem State.setReg_floods : (s.setReg off v).floods = s.floods := rfl
@[simp] theorem State.setReg_cmt : (s.setReg off v).cmt = s.cmt := rfl
@[simp] theorem State.setReg_stages : (s.setReg off v).stages = s.stages := rfl
@[simp] theorem State.setReg_inbuf : (s.setReg off v).inbuf = s.inbuf := rfl
@[simp] theorem State.setReg_redIn : (s.setReg off v).redIn = s.redIn := rfl
@[simp] theorem State.setReg_redSeen : (s.setReg off v).redSeen = s.redSeen := rfl
@[simp] theorem State.setReg_formed : (s.setReg off v).formed = s.formed := rfl
@[simp] theorem State.setReg_cdef : (s.setReg off v).cdef = s.cdef := rfl
@[simp] theorem State.setReg_chk : (s.setReg off v).chk = s.chk := rfl
@[simp] theorem State.setReg_flushAt : (s.setReg off v).flushAt = s.flushAt := rfl
@[simp] theorem State.setReg_mr4 : (s.setReg off v).mr4 = s.mr4 := rfl
@[simp] theorem State.setReg_mr4At : (s.setReg off v).mr4At = s.mr4At := rfl
@[simp] theorem State.setReg_refBank : (s.setReg off v).refBank = s.refBank := rfl
@[simp] theorem State.setReg_refAt : (s.setReg off v).refAt = s.refAt := rfl
@[simp] theorem State.setReg_bankBlk : (s.setReg off v).bankBlk = s.bankBlk := rfl
@[simp] theorem State.setReg_wck : (s.setReg off v).wck = s.wck := rfl
@[simp] theorem State.setReg_osc : (s.setReg off v).osc = s.osc := rfl
@[simp] theorem State.setReg_wokeAt : (s.setReg off v).wokeAt = s.wokeAt := rfl
@[simp] theorem State.setReg_patPend : (s.setReg off v).patPend = s.patPend := rfl
@[simp] theorem State.setReg_slower : (s.setReg off v).slower = s.slower := rfl
@[simp] theorem State.setReg_retraining : (s.setReg off v).retraining = s.retraining := rfl
@[simp] theorem State.setReg_pprs : (s.setReg off v).pprs = s.pprs := rfl
@[simp] theorem State.setReg_pprBusy : (s.setReg off v).pprBusy = s.pprBusy := rfl
@[simp] theorem State.setReg_linkBad : (s.setReg off v).linkBad = s.linkBad := rfl
@[simp] theorem State.setReg_hch : (s.setReg off v).hch = s.hch := rfl
@[simp] theorem State.setReg_syncMark : (s.setReg off v).syncMark = s.syncMark := rfl
@[simp] theorem State.setReg_out : (s.setReg off v).out = s.out := rfl
@[simp] theorem State.setReg_free : (s.setReg off v).free = s.free := rfl
@[simp] theorem State.setReg_mapPend : (s.setReg off v).mapPend = s.mapPend := rfl
@[simp] theorem State.setReg_root : (s.setReg off v).root = s.root := rfl
@[simp] theorem State.setReg_procs : (s.setReg off v).procs = s.procs := rfl
@[simp] theorem State.setReg_bus : (s.setReg off v).bus = s.bus := rfl
@[simp] theorem State.setReg_port : (s.setReg off v).port = s.port := rfl
@[simp] theorem State.setReg_members : (s.setReg off v).members = s.members := rfl
@[simp] theorem State.setReg_swapAt : (s.setReg off v).swapAt = s.swapAt := rfl
@[simp] theorem State.setReg_nv : (s.setReg off v).nv = s.nv := rfl
@[simp] theorem State.setReg_nonceSeq : (s.setReg off v).nonceSeq = s.nonceSeq := rfl
@[simp] theorem State.setReg_testOpen : (s.setReg off v).testOpen = s.testOpen := rfl
@[simp] theorem State.setReg_powered : (s.setReg off v).powered = s.powered := rfl
@[simp] theorem State.setReg_hiveOff : (s.setReg off v).hiveOff = s.hiveOff := rfl
@[simp] theorem State.setReg_portReady : (s.setReg off v).portReady = s.portReady := rfl
@[simp] theorem State.setReg_cpPend : (s.setReg off v).cpPend = s.cpPend := rfl
@[simp] theorem State.setReg_running : (s.setReg off v).running = s.running := rfl
@[simp] theorem State.setReg_bootF : (s.setReg off v).bootF = s.bootF := rfl
@[simp] theorem State.setReg_pending : (s.setReg off v).pending = s.pending := rfl
end

/-! ### State.setCore -/

section
variable (s : State) (i : Nat) (k : Core)
@[simp] theorem State.setCore_ct : (s.setCore i k).ct = s.ct := rfl
@[simp] theorem State.setCore_cyc : (s.setCore i k).cyc = s.cyc := rfl
@[simp] theorem State.setCore_nextEdge : (s.setCore i k).nextEdge = s.nextEdge := rfl
@[simp] theorem State.setCore_prevEdge : (s.setCore i k).prevEdge = s.prevEdge := rfl
@[simp] theorem State.setCore_tu : (s.setCore i k).tu = s.tu := rfl
@[simp] theorem State.setCore_point : (s.setCore i k).point = s.point := rfl
@[simp] theorem State.setCore_throttled : (s.setCore i k).throttled = s.throttled := rfl
@[simp] theorem State.setCore_regs : (s.setCore i k).regs = s.regs := rfl
@[simp] theorem State.setCore_marks : (s.setCore i k).marks = s.marks := rfl
@[simp] theorem State.setCore_comb : (s.setCore i k).comb = s.comb := rfl
@[simp] theorem State.setCore_cellar : (s.setCore i k).cellar = s.cellar := rfl
@[simp] theorem State.setCore_glades : (s.setCore i k).glades = s.glades := rfl
@[simp] theorem State.setCore_flights : (s.setCore i k).flights = s.flights := rfl
@[simp] theorem State.setCore_ctls : (s.setCore i k).ctls = s.ctls := rfl
@[simp] theorem State.setCore_edgeGot : (s.setCore i k).edgeGot = s.edgeGot := rfl
@[simp] theorem State.setCore_nextFlight : (s.setCore i k).nextFlight = s.nextFlight := rfl
@[simp] theorem State.setCore_evStacks : (s.setCore i k).evStacks = s.evStacks := rfl
@[simp] theorem State.setCore_charges : (s.setCore i k).charges = s.charges := rfl
@[simp] theorem State.setCore_overruns : (s.setCore i k).overruns = s.overruns := rfl
@[simp] theorem State.setCore_monOver : (s.setCore i k).monOver = s.monOver := rfl
@[simp] theorem State.setCore_monUnder : (s.setCore i k).monUnder = s.monUnder := rfl
@[simp] theorem State.setCore_thrBase : (s.setCore i k).thrBase = s.thrBase := rfl
@[simp] theorem State.setCore_thrEnd : (s.setCore i k).thrEnd = s.thrEnd := rfl
@[simp] theorem State.setCore_links : (s.setCore i k).links = s.links := rfl
@[simp] theorem State.setCore_fifos : (s.setCore i k).fifos = s.fifos := rfl
@[simp] theorem State.setCore_fifoDue : (s.setCore i k).fifoDue = s.fifoDue := rfl
@[simp] theorem State.setCore_dma : (s.setCore i k).dma = s.dma := rfl
@[simp] theorem State.setCore_inbox : (s.setCore i k).inbox = s.inbox := rfl
@[simp] theorem State.setCore_sideWait : (s.setCore i k).sideWait = s.sideWait := rfl
@[simp] theorem State.setCore_sideCross : (s.setCore i k).sideCross = s.sideCross := rfl
@[simp] theorem State.setCore_floods : (s.setCore i k).floods = s.floods := rfl
@[simp] theorem State.setCore_cmt : (s.setCore i k).cmt = s.cmt := rfl
@[simp] theorem State.setCore_stages : (s.setCore i k).stages = s.stages := rfl
@[simp] theorem State.setCore_inbuf : (s.setCore i k).inbuf = s.inbuf := rfl
@[simp] theorem State.setCore_redIn : (s.setCore i k).redIn = s.redIn := rfl
@[simp] theorem State.setCore_redSeen : (s.setCore i k).redSeen = s.redSeen := rfl
@[simp] theorem State.setCore_formed : (s.setCore i k).formed = s.formed := rfl
@[simp] theorem State.setCore_cdef : (s.setCore i k).cdef = s.cdef := rfl
@[simp] theorem State.setCore_chk : (s.setCore i k).chk = s.chk := rfl
@[simp] theorem State.setCore_flushAt : (s.setCore i k).flushAt = s.flushAt := rfl
@[simp] theorem State.setCore_mr4 : (s.setCore i k).mr4 = s.mr4 := rfl
@[simp] theorem State.setCore_mr4At : (s.setCore i k).mr4At = s.mr4At := rfl
@[simp] theorem State.setCore_refBank : (s.setCore i k).refBank = s.refBank := rfl
@[simp] theorem State.setCore_refAt : (s.setCore i k).refAt = s.refAt := rfl
@[simp] theorem State.setCore_bankBlk : (s.setCore i k).bankBlk = s.bankBlk := rfl
@[simp] theorem State.setCore_wck : (s.setCore i k).wck = s.wck := rfl
@[simp] theorem State.setCore_osc : (s.setCore i k).osc = s.osc := rfl
@[simp] theorem State.setCore_wokeAt : (s.setCore i k).wokeAt = s.wokeAt := rfl
@[simp] theorem State.setCore_patPend : (s.setCore i k).patPend = s.patPend := rfl
@[simp] theorem State.setCore_slower : (s.setCore i k).slower = s.slower := rfl
@[simp] theorem State.setCore_retraining : (s.setCore i k).retraining = s.retraining := rfl
@[simp] theorem State.setCore_pprs : (s.setCore i k).pprs = s.pprs := rfl
@[simp] theorem State.setCore_pprBusy : (s.setCore i k).pprBusy = s.pprBusy := rfl
@[simp] theorem State.setCore_linkBad : (s.setCore i k).linkBad = s.linkBad := rfl
@[simp] theorem State.setCore_hch : (s.setCore i k).hch = s.hch := rfl
@[simp] theorem State.setCore_syncMark : (s.setCore i k).syncMark = s.syncMark := rfl
@[simp] theorem State.setCore_out : (s.setCore i k).out = s.out := rfl
@[simp] theorem State.setCore_free : (s.setCore i k).free = s.free := rfl
@[simp] theorem State.setCore_mapPend : (s.setCore i k).mapPend = s.mapPend := rfl
@[simp] theorem State.setCore_root : (s.setCore i k).root = s.root := rfl
@[simp] theorem State.setCore_procs : (s.setCore i k).procs = s.procs := rfl
@[simp] theorem State.setCore_bus : (s.setCore i k).bus = s.bus := rfl
@[simp] theorem State.setCore_port : (s.setCore i k).port = s.port := rfl
@[simp] theorem State.setCore_members : (s.setCore i k).members = s.members := rfl
@[simp] theorem State.setCore_swapAt : (s.setCore i k).swapAt = s.swapAt := rfl
@[simp] theorem State.setCore_nv : (s.setCore i k).nv = s.nv := rfl
@[simp] theorem State.setCore_nonceSeq : (s.setCore i k).nonceSeq = s.nonceSeq := rfl
@[simp] theorem State.setCore_testOpen : (s.setCore i k).testOpen = s.testOpen := rfl
@[simp] theorem State.setCore_powered : (s.setCore i k).powered = s.powered := rfl
@[simp] theorem State.setCore_hiveOff : (s.setCore i k).hiveOff = s.hiveOff := rfl
@[simp] theorem State.setCore_portReady : (s.setCore i k).portReady = s.portReady := rfl
@[simp] theorem State.setCore_cpPend : (s.setCore i k).cpPend = s.cpPend := rfl
@[simp] theorem State.setCore_running : (s.setCore i k).running = s.running := rfl
@[simp] theorem State.setCore_bootF : (s.setCore i k).bootF = s.bootF := rfl
@[simp] theorem State.setCore_pending : (s.setCore i k).pending = s.pending := rfl
end

/-! ### State.setLink -/

section
variable (s : State) (i : Nat) (l : Link)
@[simp] theorem State.setLink_ct : (s.setLink i l).ct = s.ct := rfl
@[simp] theorem State.setLink_cyc : (s.setLink i l).cyc = s.cyc := rfl
@[simp] theorem State.setLink_nextEdge : (s.setLink i l).nextEdge = s.nextEdge := rfl
@[simp] theorem State.setLink_prevEdge : (s.setLink i l).prevEdge = s.prevEdge := rfl
@[simp] theorem State.setLink_tu : (s.setLink i l).tu = s.tu := rfl
@[simp] theorem State.setLink_point : (s.setLink i l).point = s.point := rfl
@[simp] theorem State.setLink_throttled : (s.setLink i l).throttled = s.throttled := rfl
@[simp] theorem State.setLink_regs : (s.setLink i l).regs = s.regs := rfl
@[simp] theorem State.setLink_marks : (s.setLink i l).marks = s.marks := rfl
@[simp] theorem State.setLink_cores : (s.setLink i l).cores = s.cores := rfl
@[simp] theorem State.setLink_comb : (s.setLink i l).comb = s.comb := rfl
@[simp] theorem State.setLink_cellar : (s.setLink i l).cellar = s.cellar := rfl
@[simp] theorem State.setLink_glades : (s.setLink i l).glades = s.glades := rfl
@[simp] theorem State.setLink_flights : (s.setLink i l).flights = s.flights := rfl
@[simp] theorem State.setLink_ctls : (s.setLink i l).ctls = s.ctls := rfl
@[simp] theorem State.setLink_edgeGot : (s.setLink i l).edgeGot = s.edgeGot := rfl
@[simp] theorem State.setLink_nextFlight : (s.setLink i l).nextFlight = s.nextFlight := rfl
@[simp] theorem State.setLink_evStacks : (s.setLink i l).evStacks = s.evStacks := rfl
@[simp] theorem State.setLink_charges : (s.setLink i l).charges = s.charges := rfl
@[simp] theorem State.setLink_overruns : (s.setLink i l).overruns = s.overruns := rfl
@[simp] theorem State.setLink_monOver : (s.setLink i l).monOver = s.monOver := rfl
@[simp] theorem State.setLink_monUnder : (s.setLink i l).monUnder = s.monUnder := rfl
@[simp] theorem State.setLink_thrBase : (s.setLink i l).thrBase = s.thrBase := rfl
@[simp] theorem State.setLink_thrEnd : (s.setLink i l).thrEnd = s.thrEnd := rfl
@[simp] theorem State.setLink_fifos : (s.setLink i l).fifos = s.fifos := rfl
@[simp] theorem State.setLink_fifoDue : (s.setLink i l).fifoDue = s.fifoDue := rfl
@[simp] theorem State.setLink_dma : (s.setLink i l).dma = s.dma := rfl
@[simp] theorem State.setLink_inbox : (s.setLink i l).inbox = s.inbox := rfl
@[simp] theorem State.setLink_sideWait : (s.setLink i l).sideWait = s.sideWait := rfl
@[simp] theorem State.setLink_sideCross : (s.setLink i l).sideCross = s.sideCross := rfl
@[simp] theorem State.setLink_floods : (s.setLink i l).floods = s.floods := rfl
@[simp] theorem State.setLink_cmt : (s.setLink i l).cmt = s.cmt := rfl
@[simp] theorem State.setLink_stages : (s.setLink i l).stages = s.stages := rfl
@[simp] theorem State.setLink_inbuf : (s.setLink i l).inbuf = s.inbuf := rfl
@[simp] theorem State.setLink_redIn : (s.setLink i l).redIn = s.redIn := rfl
@[simp] theorem State.setLink_redSeen : (s.setLink i l).redSeen = s.redSeen := rfl
@[simp] theorem State.setLink_formed : (s.setLink i l).formed = s.formed := rfl
@[simp] theorem State.setLink_cdef : (s.setLink i l).cdef = s.cdef := rfl
@[simp] theorem State.setLink_chk : (s.setLink i l).chk = s.chk := rfl
@[simp] theorem State.setLink_flushAt : (s.setLink i l).flushAt = s.flushAt := rfl
@[simp] theorem State.setLink_mr4 : (s.setLink i l).mr4 = s.mr4 := rfl
@[simp] theorem State.setLink_mr4At : (s.setLink i l).mr4At = s.mr4At := rfl
@[simp] theorem State.setLink_refBank : (s.setLink i l).refBank = s.refBank := rfl
@[simp] theorem State.setLink_refAt : (s.setLink i l).refAt = s.refAt := rfl
@[simp] theorem State.setLink_bankBlk : (s.setLink i l).bankBlk = s.bankBlk := rfl
@[simp] theorem State.setLink_wck : (s.setLink i l).wck = s.wck := rfl
@[simp] theorem State.setLink_osc : (s.setLink i l).osc = s.osc := rfl
@[simp] theorem State.setLink_wokeAt : (s.setLink i l).wokeAt = s.wokeAt := rfl
@[simp] theorem State.setLink_patPend : (s.setLink i l).patPend = s.patPend := rfl
@[simp] theorem State.setLink_slower : (s.setLink i l).slower = s.slower := rfl
@[simp] theorem State.setLink_retraining : (s.setLink i l).retraining = s.retraining := rfl
@[simp] theorem State.setLink_pprs : (s.setLink i l).pprs = s.pprs := rfl
@[simp] theorem State.setLink_pprBusy : (s.setLink i l).pprBusy = s.pprBusy := rfl
@[simp] theorem State.setLink_linkBad : (s.setLink i l).linkBad = s.linkBad := rfl
@[simp] theorem State.setLink_hch : (s.setLink i l).hch = s.hch := rfl
@[simp] theorem State.setLink_syncMark : (s.setLink i l).syncMark = s.syncMark := rfl
@[simp] theorem State.setLink_out : (s.setLink i l).out = s.out := rfl
@[simp] theorem State.setLink_free : (s.setLink i l).free = s.free := rfl
@[simp] theorem State.setLink_mapPend : (s.setLink i l).mapPend = s.mapPend := rfl
@[simp] theorem State.setLink_root : (s.setLink i l).root = s.root := rfl
@[simp] theorem State.setLink_procs : (s.setLink i l).procs = s.procs := rfl
@[simp] theorem State.setLink_bus : (s.setLink i l).bus = s.bus := rfl
@[simp] theorem State.setLink_port : (s.setLink i l).port = s.port := rfl
@[simp] theorem State.setLink_members : (s.setLink i l).members = s.members := rfl
@[simp] theorem State.setLink_swapAt : (s.setLink i l).swapAt = s.swapAt := rfl
@[simp] theorem State.setLink_nv : (s.setLink i l).nv = s.nv := rfl
@[simp] theorem State.setLink_nonceSeq : (s.setLink i l).nonceSeq = s.nonceSeq := rfl
@[simp] theorem State.setLink_testOpen : (s.setLink i l).testOpen = s.testOpen := rfl
@[simp] theorem State.setLink_powered : (s.setLink i l).powered = s.powered := rfl
@[simp] theorem State.setLink_hiveOff : (s.setLink i l).hiveOff = s.hiveOff := rfl
@[simp] theorem State.setLink_portReady : (s.setLink i l).portReady = s.portReady := rfl
@[simp] theorem State.setLink_cpPend : (s.setLink i l).cpPend = s.cpPend := rfl
@[simp] theorem State.setLink_running : (s.setLink i l).running = s.running := rfl
@[simp] theorem State.setLink_bootF : (s.setLink i l).bootF = s.bootF := rfl
@[simp] theorem State.setLink_pending : (s.setLink i l).pending = s.pending := rfl
end

/-! ### State.setProc -/

section
variable (s : State) (p : Nat) (k : Proc)
@[simp] theorem State.setProc_ct : (s.setProc p k).ct = s.ct := rfl
@[simp] theorem State.setProc_cyc : (s.setProc p k).cyc = s.cyc := rfl
@[simp] theorem State.setProc_nextEdge : (s.setProc p k).nextEdge = s.nextEdge := rfl
@[simp] theorem State.setProc_prevEdge : (s.setProc p k).prevEdge = s.prevEdge := rfl
@[simp] theorem State.setProc_tu : (s.setProc p k).tu = s.tu := rfl
@[simp] theorem State.setProc_point : (s.setProc p k).point = s.point := rfl
@[simp] theorem State.setProc_throttled : (s.setProc p k).throttled = s.throttled := rfl
@[simp] theorem State.setProc_regs : (s.setProc p k).regs = s.regs := rfl
@[simp] theorem State.setProc_marks : (s.setProc p k).marks = s.marks := rfl
@[simp] theorem State.setProc_cores : (s.setProc p k).cores = s.cores := rfl
@[simp] theorem State.setProc_comb : (s.setProc p k).comb = s.comb := rfl
@[simp] theorem State.setProc_cellar : (s.setProc p k).cellar = s.cellar := rfl
@[simp] theorem State.setProc_glades : (s.setProc p k).glades = s.glades := rfl
@[simp] theorem State.setProc_flights : (s.setProc p k).flights = s.flights := rfl
@[simp] theorem State.setProc_ctls : (s.setProc p k).ctls = s.ctls := rfl
@[simp] theorem State.setProc_edgeGot : (s.setProc p k).edgeGot = s.edgeGot := rfl
@[simp] theorem State.setProc_nextFlight : (s.setProc p k).nextFlight = s.nextFlight := rfl
@[simp] theorem State.setProc_evStacks : (s.setProc p k).evStacks = s.evStacks := rfl
@[simp] theorem State.setProc_charges : (s.setProc p k).charges = s.charges := rfl
@[simp] theorem State.setProc_overruns : (s.setProc p k).overruns = s.overruns := rfl
@[simp] theorem State.setProc_monOver : (s.setProc p k).monOver = s.monOver := rfl
@[simp] theorem State.setProc_monUnder : (s.setProc p k).monUnder = s.monUnder := rfl
@[simp] theorem State.setProc_thrBase : (s.setProc p k).thrBase = s.thrBase := rfl
@[simp] theorem State.setProc_thrEnd : (s.setProc p k).thrEnd = s.thrEnd := rfl
@[simp] theorem State.setProc_links : (s.setProc p k).links = s.links := rfl
@[simp] theorem State.setProc_fifos : (s.setProc p k).fifos = s.fifos := rfl
@[simp] theorem State.setProc_fifoDue : (s.setProc p k).fifoDue = s.fifoDue := rfl
@[simp] theorem State.setProc_dma : (s.setProc p k).dma = s.dma := rfl
@[simp] theorem State.setProc_inbox : (s.setProc p k).inbox = s.inbox := rfl
@[simp] theorem State.setProc_sideWait : (s.setProc p k).sideWait = s.sideWait := rfl
@[simp] theorem State.setProc_sideCross : (s.setProc p k).sideCross = s.sideCross := rfl
@[simp] theorem State.setProc_floods : (s.setProc p k).floods = s.floods := rfl
@[simp] theorem State.setProc_cmt : (s.setProc p k).cmt = s.cmt := rfl
@[simp] theorem State.setProc_stages : (s.setProc p k).stages = s.stages := rfl
@[simp] theorem State.setProc_inbuf : (s.setProc p k).inbuf = s.inbuf := rfl
@[simp] theorem State.setProc_redIn : (s.setProc p k).redIn = s.redIn := rfl
@[simp] theorem State.setProc_redSeen : (s.setProc p k).redSeen = s.redSeen := rfl
@[simp] theorem State.setProc_formed : (s.setProc p k).formed = s.formed := rfl
@[simp] theorem State.setProc_cdef : (s.setProc p k).cdef = s.cdef := rfl
@[simp] theorem State.setProc_chk : (s.setProc p k).chk = s.chk := rfl
@[simp] theorem State.setProc_flushAt : (s.setProc p k).flushAt = s.flushAt := rfl
@[simp] theorem State.setProc_mr4 : (s.setProc p k).mr4 = s.mr4 := rfl
@[simp] theorem State.setProc_mr4At : (s.setProc p k).mr4At = s.mr4At := rfl
@[simp] theorem State.setProc_refBank : (s.setProc p k).refBank = s.refBank := rfl
@[simp] theorem State.setProc_refAt : (s.setProc p k).refAt = s.refAt := rfl
@[simp] theorem State.setProc_bankBlk : (s.setProc p k).bankBlk = s.bankBlk := rfl
@[simp] theorem State.setProc_wck : (s.setProc p k).wck = s.wck := rfl
@[simp] theorem State.setProc_osc : (s.setProc p k).osc = s.osc := rfl
@[simp] theorem State.setProc_wokeAt : (s.setProc p k).wokeAt = s.wokeAt := rfl
@[simp] theorem State.setProc_patPend : (s.setProc p k).patPend = s.patPend := rfl
@[simp] theorem State.setProc_slower : (s.setProc p k).slower = s.slower := rfl
@[simp] theorem State.setProc_retraining : (s.setProc p k).retraining = s.retraining := rfl
@[simp] theorem State.setProc_pprs : (s.setProc p k).pprs = s.pprs := rfl
@[simp] theorem State.setProc_pprBusy : (s.setProc p k).pprBusy = s.pprBusy := rfl
@[simp] theorem State.setProc_linkBad : (s.setProc p k).linkBad = s.linkBad := rfl
@[simp] theorem State.setProc_hch : (s.setProc p k).hch = s.hch := rfl
@[simp] theorem State.setProc_syncMark : (s.setProc p k).syncMark = s.syncMark := rfl
@[simp] theorem State.setProc_out : (s.setProc p k).out = s.out := rfl
@[simp] theorem State.setProc_free : (s.setProc p k).free = s.free := rfl
@[simp] theorem State.setProc_mapPend : (s.setProc p k).mapPend = s.mapPend := rfl
@[simp] theorem State.setProc_root : (s.setProc p k).root = s.root := rfl
@[simp] theorem State.setProc_bus : (s.setProc p k).bus = s.bus := rfl
@[simp] theorem State.setProc_port : (s.setProc p k).port = s.port := rfl
@[simp] theorem State.setProc_members : (s.setProc p k).members = s.members := rfl
@[simp] theorem State.setProc_swapAt : (s.setProc p k).swapAt = s.swapAt := rfl
@[simp] theorem State.setProc_nv : (s.setProc p k).nv = s.nv := rfl
@[simp] theorem State.setProc_nonceSeq : (s.setProc p k).nonceSeq = s.nonceSeq := rfl
@[simp] theorem State.setProc_testOpen : (s.setProc p k).testOpen = s.testOpen := rfl
@[simp] theorem State.setProc_powered : (s.setProc p k).powered = s.powered := rfl
@[simp] theorem State.setProc_hiveOff : (s.setProc p k).hiveOff = s.hiveOff := rfl
@[simp] theorem State.setProc_portReady : (s.setProc p k).portReady = s.portReady := rfl
@[simp] theorem State.setProc_cpPend : (s.setProc p k).cpPend = s.cpPend := rfl
@[simp] theorem State.setProc_running : (s.setProc p k).running = s.running := rfl
@[simp] theorem State.setProc_bootF : (s.setProc p k).bootF = s.bootF := rfl
@[simp] theorem State.setProc_pending : (s.setProc p k).pending = s.pending := rfl
end

/-! ### State.setNv -/

section
variable (s : State) (g : Nv → Nv)
@[simp] theorem State.setNv_ct : (s.setNv g).ct = s.ct := rfl
@[simp] theorem State.setNv_cyc : (s.setNv g).cyc = s.cyc := rfl
@[simp] theorem State.setNv_nextEdge : (s.setNv g).nextEdge = s.nextEdge := rfl
@[simp] theorem State.setNv_prevEdge : (s.setNv g).prevEdge = s.prevEdge := rfl
@[simp] theorem State.setNv_tu : (s.setNv g).tu = s.tu := rfl
@[simp] theorem State.setNv_point : (s.setNv g).point = s.point := rfl
@[simp] theorem State.setNv_throttled : (s.setNv g).throttled = s.throttled := rfl
@[simp] theorem State.setNv_regs : (s.setNv g).regs = s.regs := rfl
@[simp] theorem State.setNv_marks : (s.setNv g).marks = s.marks := rfl
@[simp] theorem State.setNv_cores : (s.setNv g).cores = s.cores := rfl
@[simp] theorem State.setNv_comb : (s.setNv g).comb = s.comb := rfl
@[simp] theorem State.setNv_cellar : (s.setNv g).cellar = s.cellar := rfl
@[simp] theorem State.setNv_glades : (s.setNv g).glades = s.glades := rfl
@[simp] theorem State.setNv_flights : (s.setNv g).flights = s.flights := rfl
@[simp] theorem State.setNv_ctls : (s.setNv g).ctls = s.ctls := rfl
@[simp] theorem State.setNv_edgeGot : (s.setNv g).edgeGot = s.edgeGot := rfl
@[simp] theorem State.setNv_nextFlight : (s.setNv g).nextFlight = s.nextFlight := rfl
@[simp] theorem State.setNv_evStacks : (s.setNv g).evStacks = s.evStacks := rfl
@[simp] theorem State.setNv_charges : (s.setNv g).charges = s.charges := rfl
@[simp] theorem State.setNv_overruns : (s.setNv g).overruns = s.overruns := rfl
@[simp] theorem State.setNv_monOver : (s.setNv g).monOver = s.monOver := rfl
@[simp] theorem State.setNv_monUnder : (s.setNv g).monUnder = s.monUnder := rfl
@[simp] theorem State.setNv_thrBase : (s.setNv g).thrBase = s.thrBase := rfl
@[simp] theorem State.setNv_thrEnd : (s.setNv g).thrEnd = s.thrEnd := rfl
@[simp] theorem State.setNv_links : (s.setNv g).links = s.links := rfl
@[simp] theorem State.setNv_fifos : (s.setNv g).fifos = s.fifos := rfl
@[simp] theorem State.setNv_fifoDue : (s.setNv g).fifoDue = s.fifoDue := rfl
@[simp] theorem State.setNv_dma : (s.setNv g).dma = s.dma := rfl
@[simp] theorem State.setNv_inbox : (s.setNv g).inbox = s.inbox := rfl
@[simp] theorem State.setNv_sideWait : (s.setNv g).sideWait = s.sideWait := rfl
@[simp] theorem State.setNv_sideCross : (s.setNv g).sideCross = s.sideCross := rfl
@[simp] theorem State.setNv_floods : (s.setNv g).floods = s.floods := rfl
@[simp] theorem State.setNv_cmt : (s.setNv g).cmt = s.cmt := rfl
@[simp] theorem State.setNv_stages : (s.setNv g).stages = s.stages := rfl
@[simp] theorem State.setNv_inbuf : (s.setNv g).inbuf = s.inbuf := rfl
@[simp] theorem State.setNv_redIn : (s.setNv g).redIn = s.redIn := rfl
@[simp] theorem State.setNv_redSeen : (s.setNv g).redSeen = s.redSeen := rfl
@[simp] theorem State.setNv_formed : (s.setNv g).formed = s.formed := rfl
@[simp] theorem State.setNv_cdef : (s.setNv g).cdef = s.cdef := rfl
@[simp] theorem State.setNv_chk : (s.setNv g).chk = s.chk := rfl
@[simp] theorem State.setNv_flushAt : (s.setNv g).flushAt = s.flushAt := rfl
@[simp] theorem State.setNv_mr4 : (s.setNv g).mr4 = s.mr4 := rfl
@[simp] theorem State.setNv_mr4At : (s.setNv g).mr4At = s.mr4At := rfl
@[simp] theorem State.setNv_refBank : (s.setNv g).refBank = s.refBank := rfl
@[simp] theorem State.setNv_refAt : (s.setNv g).refAt = s.refAt := rfl
@[simp] theorem State.setNv_bankBlk : (s.setNv g).bankBlk = s.bankBlk := rfl
@[simp] theorem State.setNv_wck : (s.setNv g).wck = s.wck := rfl
@[simp] theorem State.setNv_osc : (s.setNv g).osc = s.osc := rfl
@[simp] theorem State.setNv_wokeAt : (s.setNv g).wokeAt = s.wokeAt := rfl
@[simp] theorem State.setNv_patPend : (s.setNv g).patPend = s.patPend := rfl
@[simp] theorem State.setNv_slower : (s.setNv g).slower = s.slower := rfl
@[simp] theorem State.setNv_retraining : (s.setNv g).retraining = s.retraining := rfl
@[simp] theorem State.setNv_pprs : (s.setNv g).pprs = s.pprs := rfl
@[simp] theorem State.setNv_pprBusy : (s.setNv g).pprBusy = s.pprBusy := rfl
@[simp] theorem State.setNv_linkBad : (s.setNv g).linkBad = s.linkBad := rfl
@[simp] theorem State.setNv_hch : (s.setNv g).hch = s.hch := rfl
@[simp] theorem State.setNv_syncMark : (s.setNv g).syncMark = s.syncMark := rfl
@[simp] theorem State.setNv_out : (s.setNv g).out = s.out := rfl
@[simp] theorem State.setNv_free : (s.setNv g).free = s.free := rfl
@[simp] theorem State.setNv_mapPend : (s.setNv g).mapPend = s.mapPend := rfl
@[simp] theorem State.setNv_root : (s.setNv g).root = s.root := rfl
@[simp] theorem State.setNv_procs : (s.setNv g).procs = s.procs := rfl
@[simp] theorem State.setNv_bus : (s.setNv g).bus = s.bus := rfl
@[simp] theorem State.setNv_port : (s.setNv g).port = s.port := rfl
@[simp] theorem State.setNv_members : (s.setNv g).members = s.members := rfl
@[simp] theorem State.setNv_swapAt : (s.setNv g).swapAt = s.swapAt := rfl
@[simp] theorem State.setNv_nonceSeq : (s.setNv g).nonceSeq = s.nonceSeq := rfl
@[simp] theorem State.setNv_testOpen : (s.setNv g).testOpen = s.testOpen := rfl
@[simp] theorem State.setNv_powered : (s.setNv g).powered = s.powered := rfl
@[simp] theorem State.setNv_hiveOff : (s.setNv g).hiveOff = s.hiveOff := rfl
@[simp] theorem State.setNv_portReady : (s.setNv g).portReady = s.portReady := rfl
@[simp] theorem State.setNv_cpPend : (s.setNv g).cpPend = s.cpPend := rfl
@[simp] theorem State.setNv_running : (s.setNv g).running = s.running := rfl
@[simp] theorem State.setNv_bootF : (s.setNv g).bootF = s.bootF := rfl
@[simp] theorem State.setNv_pending : (s.setNv g).pending = s.pending := rfl
end

/-! ### State.send -/

section
variable (s : State) (m : OutMsg)
@[simp] theorem State.send_ct : (s.send m).ct = s.ct := rfl
@[simp] theorem State.send_cyc : (s.send m).cyc = s.cyc := rfl
@[simp] theorem State.send_nextEdge : (s.send m).nextEdge = s.nextEdge := rfl
@[simp] theorem State.send_prevEdge : (s.send m).prevEdge = s.prevEdge := rfl
@[simp] theorem State.send_tu : (s.send m).tu = s.tu := rfl
@[simp] theorem State.send_point : (s.send m).point = s.point := rfl
@[simp] theorem State.send_throttled : (s.send m).throttled = s.throttled := rfl
@[simp] theorem State.send_regs : (s.send m).regs = s.regs := rfl
@[simp] theorem State.send_marks : (s.send m).marks = s.marks := rfl
@[simp] theorem State.send_cores : (s.send m).cores = s.cores := rfl
@[simp] theorem State.send_comb : (s.send m).comb = s.comb := rfl
@[simp] theorem State.send_cellar : (s.send m).cellar = s.cellar := rfl
@[simp] theorem State.send_glades : (s.send m).glades = s.glades := rfl
@[simp] theorem State.send_flights : (s.send m).flights = s.flights := rfl
@[simp] theorem State.send_ctls : (s.send m).ctls = s.ctls := rfl
@[simp] theorem State.send_edgeGot : (s.send m).edgeGot = s.edgeGot := rfl
@[simp] theorem State.send_nextFlight : (s.send m).nextFlight = s.nextFlight := rfl
@[simp] theorem State.send_evStacks : (s.send m).evStacks = s.evStacks := rfl
@[simp] theorem State.send_charges : (s.send m).charges = s.charges := rfl
@[simp] theorem State.send_overruns : (s.send m).overruns = s.overruns := rfl
@[simp] theorem State.send_monOver : (s.send m).monOver = s.monOver := rfl
@[simp] theorem State.send_monUnder : (s.send m).monUnder = s.monUnder := rfl
@[simp] theorem State.send_thrBase : (s.send m).thrBase = s.thrBase := rfl
@[simp] theorem State.send_thrEnd : (s.send m).thrEnd = s.thrEnd := rfl
@[simp] theorem State.send_links : (s.send m).links = s.links := rfl
@[simp] theorem State.send_fifos : (s.send m).fifos = s.fifos := rfl
@[simp] theorem State.send_fifoDue : (s.send m).fifoDue = s.fifoDue := rfl
@[simp] theorem State.send_dma : (s.send m).dma = s.dma := rfl
@[simp] theorem State.send_inbox : (s.send m).inbox = s.inbox := rfl
@[simp] theorem State.send_sideWait : (s.send m).sideWait = s.sideWait := rfl
@[simp] theorem State.send_sideCross : (s.send m).sideCross = s.sideCross := rfl
@[simp] theorem State.send_floods : (s.send m).floods = s.floods := rfl
@[simp] theorem State.send_cmt : (s.send m).cmt = s.cmt := rfl
@[simp] theorem State.send_stages : (s.send m).stages = s.stages := rfl
@[simp] theorem State.send_inbuf : (s.send m).inbuf = s.inbuf := rfl
@[simp] theorem State.send_redIn : (s.send m).redIn = s.redIn := rfl
@[simp] theorem State.send_redSeen : (s.send m).redSeen = s.redSeen := rfl
@[simp] theorem State.send_formed : (s.send m).formed = s.formed := rfl
@[simp] theorem State.send_cdef : (s.send m).cdef = s.cdef := rfl
@[simp] theorem State.send_chk : (s.send m).chk = s.chk := rfl
@[simp] theorem State.send_flushAt : (s.send m).flushAt = s.flushAt := rfl
@[simp] theorem State.send_mr4 : (s.send m).mr4 = s.mr4 := rfl
@[simp] theorem State.send_mr4At : (s.send m).mr4At = s.mr4At := rfl
@[simp] theorem State.send_refBank : (s.send m).refBank = s.refBank := rfl
@[simp] theorem State.send_refAt : (s.send m).refAt = s.refAt := rfl
@[simp] theorem State.send_bankBlk : (s.send m).bankBlk = s.bankBlk := rfl
@[simp] theorem State.send_wck : (s.send m).wck = s.wck := rfl
@[simp] theorem State.send_osc : (s.send m).osc = s.osc := rfl
@[simp] theorem State.send_wokeAt : (s.send m).wokeAt = s.wokeAt := rfl
@[simp] theorem State.send_patPend : (s.send m).patPend = s.patPend := rfl
@[simp] theorem State.send_slower : (s.send m).slower = s.slower := rfl
@[simp] theorem State.send_retraining : (s.send m).retraining = s.retraining := rfl
@[simp] theorem State.send_pprs : (s.send m).pprs = s.pprs := rfl
@[simp] theorem State.send_pprBusy : (s.send m).pprBusy = s.pprBusy := rfl
@[simp] theorem State.send_linkBad : (s.send m).linkBad = s.linkBad := rfl
@[simp] theorem State.send_hch : (s.send m).hch = s.hch := rfl
@[simp] theorem State.send_syncMark : (s.send m).syncMark = s.syncMark := rfl
@[simp] theorem State.send_free : (s.send m).free = s.free := rfl
@[simp] theorem State.send_mapPend : (s.send m).mapPend = s.mapPend := rfl
@[simp] theorem State.send_root : (s.send m).root = s.root := rfl
@[simp] theorem State.send_procs : (s.send m).procs = s.procs := rfl
@[simp] theorem State.send_bus : (s.send m).bus = s.bus := rfl
@[simp] theorem State.send_port : (s.send m).port = s.port := rfl
@[simp] theorem State.send_members : (s.send m).members = s.members := rfl
@[simp] theorem State.send_swapAt : (s.send m).swapAt = s.swapAt := rfl
@[simp] theorem State.send_nv : (s.send m).nv = s.nv := rfl
@[simp] theorem State.send_nonceSeq : (s.send m).nonceSeq = s.nonceSeq := rfl
@[simp] theorem State.send_testOpen : (s.send m).testOpen = s.testOpen := rfl
@[simp] theorem State.send_powered : (s.send m).powered = s.powered := rfl
@[simp] theorem State.send_hiveOff : (s.send m).hiveOff = s.hiveOff := rfl
@[simp] theorem State.send_portReady : (s.send m).portReady = s.portReady := rfl
@[simp] theorem State.send_cpPend : (s.send m).cpPend = s.cpPend := rfl
@[simp] theorem State.send_running : (s.send m).running = s.running := rfl
@[simp] theorem State.send_bootF : (s.send m).bootF = s.bootF := rfl
@[simp] theorem State.send_pending : (s.send m).pending = s.pending := rfl
end

/-! ### State.modMember -/

section
variable (s : State) (m : Nat) (g : Member → Member)
@[simp] theorem State.modMember_ct : (s.modMember m g).ct = s.ct := rfl
@[simp] theorem State.modMember_cyc : (s.modMember m g).cyc = s.cyc := rfl
@[simp] theorem State.modMember_nextEdge : (s.modMember m g).nextEdge = s.nextEdge := rfl
@[simp] theorem State.modMember_prevEdge : (s.modMember m g).prevEdge = s.prevEdge := rfl
@[simp] theorem State.modMember_tu : (s.modMember m g).tu = s.tu := rfl
@[simp] theorem State.modMember_point : (s.modMember m g).point = s.point := rfl
@[simp] theorem State.modMember_throttled : (s.modMember m g).throttled = s.throttled := rfl
@[simp] theorem State.modMember_regs : (s.modMember m g).regs = s.regs := rfl
@[simp] theorem State.modMember_marks : (s.modMember m g).marks = s.marks := rfl
@[simp] theorem State.modMember_cores : (s.modMember m g).cores = s.cores := rfl
@[simp] theorem State.modMember_comb : (s.modMember m g).comb = s.comb := rfl
@[simp] theorem State.modMember_cellar : (s.modMember m g).cellar = s.cellar := rfl
@[simp] theorem State.modMember_glades : (s.modMember m g).glades = s.glades := rfl
@[simp] theorem State.modMember_flights : (s.modMember m g).flights = s.flights := rfl
@[simp] theorem State.modMember_ctls : (s.modMember m g).ctls = s.ctls := rfl
@[simp] theorem State.modMember_edgeGot : (s.modMember m g).edgeGot = s.edgeGot := rfl
@[simp] theorem State.modMember_nextFlight : (s.modMember m g).nextFlight = s.nextFlight := rfl
@[simp] theorem State.modMember_evStacks : (s.modMember m g).evStacks = s.evStacks := rfl
@[simp] theorem State.modMember_charges : (s.modMember m g).charges = s.charges := rfl
@[simp] theorem State.modMember_overruns : (s.modMember m g).overruns = s.overruns := rfl
@[simp] theorem State.modMember_monOver : (s.modMember m g).monOver = s.monOver := rfl
@[simp] theorem State.modMember_monUnder : (s.modMember m g).monUnder = s.monUnder := rfl
@[simp] theorem State.modMember_thrBase : (s.modMember m g).thrBase = s.thrBase := rfl
@[simp] theorem State.modMember_thrEnd : (s.modMember m g).thrEnd = s.thrEnd := rfl
@[simp] theorem State.modMember_links : (s.modMember m g).links = s.links := rfl
@[simp] theorem State.modMember_fifos : (s.modMember m g).fifos = s.fifos := rfl
@[simp] theorem State.modMember_fifoDue : (s.modMember m g).fifoDue = s.fifoDue := rfl
@[simp] theorem State.modMember_dma : (s.modMember m g).dma = s.dma := rfl
@[simp] theorem State.modMember_inbox : (s.modMember m g).inbox = s.inbox := rfl
@[simp] theorem State.modMember_sideWait : (s.modMember m g).sideWait = s.sideWait := rfl
@[simp] theorem State.modMember_sideCross : (s.modMember m g).sideCross = s.sideCross := rfl
@[simp] theorem State.modMember_floods : (s.modMember m g).floods = s.floods := rfl
@[simp] theorem State.modMember_cmt : (s.modMember m g).cmt = s.cmt := rfl
@[simp] theorem State.modMember_stages : (s.modMember m g).stages = s.stages := rfl
@[simp] theorem State.modMember_inbuf : (s.modMember m g).inbuf = s.inbuf := rfl
@[simp] theorem State.modMember_redIn : (s.modMember m g).redIn = s.redIn := rfl
@[simp] theorem State.modMember_redSeen : (s.modMember m g).redSeen = s.redSeen := rfl
@[simp] theorem State.modMember_formed : (s.modMember m g).formed = s.formed := rfl
@[simp] theorem State.modMember_cdef : (s.modMember m g).cdef = s.cdef := rfl
@[simp] theorem State.modMember_chk : (s.modMember m g).chk = s.chk := rfl
@[simp] theorem State.modMember_flushAt : (s.modMember m g).flushAt = s.flushAt := rfl
@[simp] theorem State.modMember_mr4 : (s.modMember m g).mr4 = s.mr4 := rfl
@[simp] theorem State.modMember_mr4At : (s.modMember m g).mr4At = s.mr4At := rfl
@[simp] theorem State.modMember_refBank : (s.modMember m g).refBank = s.refBank := rfl
@[simp] theorem State.modMember_refAt : (s.modMember m g).refAt = s.refAt := rfl
@[simp] theorem State.modMember_bankBlk : (s.modMember m g).bankBlk = s.bankBlk := rfl
@[simp] theorem State.modMember_wck : (s.modMember m g).wck = s.wck := rfl
@[simp] theorem State.modMember_osc : (s.modMember m g).osc = s.osc := rfl
@[simp] theorem State.modMember_wokeAt : (s.modMember m g).wokeAt = s.wokeAt := rfl
@[simp] theorem State.modMember_patPend : (s.modMember m g).patPend = s.patPend := rfl
@[simp] theorem State.modMember_slower : (s.modMember m g).slower = s.slower := rfl
@[simp] theorem State.modMember_retraining : (s.modMember m g).retraining = s.retraining := rfl
@[simp] theorem State.modMember_pprs : (s.modMember m g).pprs = s.pprs := rfl
@[simp] theorem State.modMember_pprBusy : (s.modMember m g).pprBusy = s.pprBusy := rfl
@[simp] theorem State.modMember_linkBad : (s.modMember m g).linkBad = s.linkBad := rfl
@[simp] theorem State.modMember_hch : (s.modMember m g).hch = s.hch := rfl
@[simp] theorem State.modMember_syncMark : (s.modMember m g).syncMark = s.syncMark := rfl
@[simp] theorem State.modMember_out : (s.modMember m g).out = s.out := rfl
@[simp] theorem State.modMember_free : (s.modMember m g).free = s.free := rfl
@[simp] theorem State.modMember_mapPend : (s.modMember m g).mapPend = s.mapPend := rfl
@[simp] theorem State.modMember_root : (s.modMember m g).root = s.root := rfl
@[simp] theorem State.modMember_procs : (s.modMember m g).procs = s.procs := rfl
@[simp] theorem State.modMember_bus : (s.modMember m g).bus = s.bus := rfl
@[simp] theorem State.modMember_port : (s.modMember m g).port = s.port := rfl
@[simp] theorem State.modMember_swapAt : (s.modMember m g).swapAt = s.swapAt := rfl
@[simp] theorem State.modMember_nv : (s.modMember m g).nv = s.nv := rfl
@[simp] theorem State.modMember_nonceSeq : (s.modMember m g).nonceSeq = s.nonceSeq := rfl
@[simp] theorem State.modMember_testOpen : (s.modMember m g).testOpen = s.testOpen := rfl
@[simp] theorem State.modMember_powered : (s.modMember m g).powered = s.powered := rfl
@[simp] theorem State.modMember_hiveOff : (s.modMember m g).hiveOff = s.hiveOff := rfl
@[simp] theorem State.modMember_portReady : (s.modMember m g).portReady = s.portReady := rfl
@[simp] theorem State.modMember_cpPend : (s.modMember m g).cpPend = s.cpPend := rfl
@[simp] theorem State.modMember_running : (s.modMember m g).running = s.running := rfl
@[simp] theorem State.modMember_bootF : (s.modMember m g).bootF = s.bootF := rfl
@[simp] theorem State.modMember_pending : (s.modMember m g).pending = s.pending := rfl
end

/-! ### State.modPort -/

section
variable (s : State) (g : Port → Port)
@[simp] theorem State.modPort_ct : (s.modPort g).ct = s.ct := rfl
@[simp] theorem State.modPort_cyc : (s.modPort g).cyc = s.cyc := rfl
@[simp] theorem State.modPort_nextEdge : (s.modPort g).nextEdge = s.nextEdge := rfl
@[simp] theorem State.modPort_prevEdge : (s.modPort g).prevEdge = s.prevEdge := rfl
@[simp] theorem State.modPort_tu : (s.modPort g).tu = s.tu := rfl
@[simp] theorem State.modPort_point : (s.modPort g).point = s.point := rfl
@[simp] theorem State.modPort_throttled : (s.modPort g).throttled = s.throttled := rfl
@[simp] theorem State.modPort_regs : (s.modPort g).regs = s.regs := rfl
@[simp] theorem State.modPort_marks : (s.modPort g).marks = s.marks := rfl
@[simp] theorem State.modPort_cores : (s.modPort g).cores = s.cores := rfl
@[simp] theorem State.modPort_comb : (s.modPort g).comb = s.comb := rfl
@[simp] theorem State.modPort_cellar : (s.modPort g).cellar = s.cellar := rfl
@[simp] theorem State.modPort_glades : (s.modPort g).glades = s.glades := rfl
@[simp] theorem State.modPort_flights : (s.modPort g).flights = s.flights := rfl
@[simp] theorem State.modPort_ctls : (s.modPort g).ctls = s.ctls := rfl
@[simp] theorem State.modPort_edgeGot : (s.modPort g).edgeGot = s.edgeGot := rfl
@[simp] theorem State.modPort_nextFlight : (s.modPort g).nextFlight = s.nextFlight := rfl
@[simp] theorem State.modPort_evStacks : (s.modPort g).evStacks = s.evStacks := rfl
@[simp] theorem State.modPort_charges : (s.modPort g).charges = s.charges := rfl
@[simp] theorem State.modPort_overruns : (s.modPort g).overruns = s.overruns := rfl
@[simp] theorem State.modPort_monOver : (s.modPort g).monOver = s.monOver := rfl
@[simp] theorem State.modPort_monUnder : (s.modPort g).monUnder = s.monUnder := rfl
@[simp] theorem State.modPort_thrBase : (s.modPort g).thrBase = s.thrBase := rfl
@[simp] theorem State.modPort_thrEnd : (s.modPort g).thrEnd = s.thrEnd := rfl
@[simp] theorem State.modPort_links : (s.modPort g).links = s.links := rfl
@[simp] theorem State.modPort_fifos : (s.modPort g).fifos = s.fifos := rfl
@[simp] theorem State.modPort_fifoDue : (s.modPort g).fifoDue = s.fifoDue := rfl
@[simp] theorem State.modPort_dma : (s.modPort g).dma = s.dma := rfl
@[simp] theorem State.modPort_inbox : (s.modPort g).inbox = s.inbox := rfl
@[simp] theorem State.modPort_sideWait : (s.modPort g).sideWait = s.sideWait := rfl
@[simp] theorem State.modPort_sideCross : (s.modPort g).sideCross = s.sideCross := rfl
@[simp] theorem State.modPort_floods : (s.modPort g).floods = s.floods := rfl
@[simp] theorem State.modPort_cmt : (s.modPort g).cmt = s.cmt := rfl
@[simp] theorem State.modPort_stages : (s.modPort g).stages = s.stages := rfl
@[simp] theorem State.modPort_inbuf : (s.modPort g).inbuf = s.inbuf := rfl
@[simp] theorem State.modPort_redIn : (s.modPort g).redIn = s.redIn := rfl
@[simp] theorem State.modPort_redSeen : (s.modPort g).redSeen = s.redSeen := rfl
@[simp] theorem State.modPort_formed : (s.modPort g).formed = s.formed := rfl
@[simp] theorem State.modPort_cdef : (s.modPort g).cdef = s.cdef := rfl
@[simp] theorem State.modPort_chk : (s.modPort g).chk = s.chk := rfl
@[simp] theorem State.modPort_flushAt : (s.modPort g).flushAt = s.flushAt := rfl
@[simp] theorem State.modPort_mr4 : (s.modPort g).mr4 = s.mr4 := rfl
@[simp] theorem State.modPort_mr4At : (s.modPort g).mr4At = s.mr4At := rfl
@[simp] theorem State.modPort_refBank : (s.modPort g).refBank = s.refBank := rfl
@[simp] theorem State.modPort_refAt : (s.modPort g).refAt = s.refAt := rfl
@[simp] theorem State.modPort_bankBlk : (s.modPort g).bankBlk = s.bankBlk := rfl
@[simp] theorem State.modPort_wck : (s.modPort g).wck = s.wck := rfl
@[simp] theorem State.modPort_osc : (s.modPort g).osc = s.osc := rfl
@[simp] theorem State.modPort_wokeAt : (s.modPort g).wokeAt = s.wokeAt := rfl
@[simp] theorem State.modPort_patPend : (s.modPort g).patPend = s.patPend := rfl
@[simp] theorem State.modPort_slower : (s.modPort g).slower = s.slower := rfl
@[simp] theorem State.modPort_retraining : (s.modPort g).retraining = s.retraining := rfl
@[simp] theorem State.modPort_pprs : (s.modPort g).pprs = s.pprs := rfl
@[simp] theorem State.modPort_pprBusy : (s.modPort g).pprBusy = s.pprBusy := rfl
@[simp] theorem State.modPort_linkBad : (s.modPort g).linkBad = s.linkBad := rfl
@[simp] theorem State.modPort_hch : (s.modPort g).hch = s.hch := rfl
@[simp] theorem State.modPort_syncMark : (s.modPort g).syncMark = s.syncMark := rfl
@[simp] theorem State.modPort_out : (s.modPort g).out = s.out := rfl
@[simp] theorem State.modPort_free : (s.modPort g).free = s.free := rfl
@[simp] theorem State.modPort_mapPend : (s.modPort g).mapPend = s.mapPend := rfl
@[simp] theorem State.modPort_root : (s.modPort g).root = s.root := rfl
@[simp] theorem State.modPort_procs : (s.modPort g).procs = s.procs := rfl
@[simp] theorem State.modPort_bus : (s.modPort g).bus = s.bus := rfl
@[simp] theorem State.modPort_members : (s.modPort g).members = s.members := rfl
@[simp] theorem State.modPort_swapAt : (s.modPort g).swapAt = s.swapAt := rfl
@[simp] theorem State.modPort_nv : (s.modPort g).nv = s.nv := rfl
@[simp] theorem State.modPort_nonceSeq : (s.modPort g).nonceSeq = s.nonceSeq := rfl
@[simp] theorem State.modPort_testOpen : (s.modPort g).testOpen = s.testOpen := rfl
@[simp] theorem State.modPort_powered : (s.modPort g).powered = s.powered := rfl
@[simp] theorem State.modPort_hiveOff : (s.modPort g).hiveOff = s.hiveOff := rfl
@[simp] theorem State.modPort_portReady : (s.modPort g).portReady = s.portReady := rfl
@[simp] theorem State.modPort_cpPend : (s.modPort g).cpPend = s.cpPend := rfl
@[simp] theorem State.modPort_running : (s.modPort g).running = s.running := rfl
@[simp] theorem State.modPort_bootF : (s.modPort g).bootF = s.bootF := rfl
@[simp] theorem State.modPort_pending : (s.modPort g).pending = s.pending := rfl
end

/-! ### State.setBusQueue -/

section
variable (s : State) (q : Nat) (l : List BusAcc)
@[simp] theorem State.setBusQueue_ct : (s.setBusQueue q l).ct = s.ct := rfl
@[simp] theorem State.setBusQueue_cyc : (s.setBusQueue q l).cyc = s.cyc := rfl
@[simp] theorem State.setBusQueue_nextEdge : (s.setBusQueue q l).nextEdge = s.nextEdge := rfl
@[simp] theorem State.setBusQueue_prevEdge : (s.setBusQueue q l).prevEdge = s.prevEdge := rfl
@[simp] theorem State.setBusQueue_tu : (s.setBusQueue q l).tu = s.tu := rfl
@[simp] theorem State.setBusQueue_point : (s.setBusQueue q l).point = s.point := rfl
@[simp] theorem State.setBusQueue_throttled : (s.setBusQueue q l).throttled = s.throttled := rfl
@[simp] theorem State.setBusQueue_regs : (s.setBusQueue q l).regs = s.regs := rfl
@[simp] theorem State.setBusQueue_marks : (s.setBusQueue q l).marks = s.marks := rfl
@[simp] theorem State.setBusQueue_cores : (s.setBusQueue q l).cores = s.cores := rfl
@[simp] theorem State.setBusQueue_comb : (s.setBusQueue q l).comb = s.comb := rfl
@[simp] theorem State.setBusQueue_cellar : (s.setBusQueue q l).cellar = s.cellar := rfl
@[simp] theorem State.setBusQueue_glades : (s.setBusQueue q l).glades = s.glades := rfl
@[simp] theorem State.setBusQueue_flights : (s.setBusQueue q l).flights = s.flights := rfl
@[simp] theorem State.setBusQueue_ctls : (s.setBusQueue q l).ctls = s.ctls := rfl
@[simp] theorem State.setBusQueue_edgeGot : (s.setBusQueue q l).edgeGot = s.edgeGot := rfl
@[simp] theorem State.setBusQueue_nextFlight : (s.setBusQueue q l).nextFlight = s.nextFlight := rfl
@[simp] theorem State.setBusQueue_evStacks : (s.setBusQueue q l).evStacks = s.evStacks := rfl
@[simp] theorem State.setBusQueue_charges : (s.setBusQueue q l).charges = s.charges := rfl
@[simp] theorem State.setBusQueue_overruns : (s.setBusQueue q l).overruns = s.overruns := rfl
@[simp] theorem State.setBusQueue_monOver : (s.setBusQueue q l).monOver = s.monOver := rfl
@[simp] theorem State.setBusQueue_monUnder : (s.setBusQueue q l).monUnder = s.monUnder := rfl
@[simp] theorem State.setBusQueue_thrBase : (s.setBusQueue q l).thrBase = s.thrBase := rfl
@[simp] theorem State.setBusQueue_thrEnd : (s.setBusQueue q l).thrEnd = s.thrEnd := rfl
@[simp] theorem State.setBusQueue_links : (s.setBusQueue q l).links = s.links := rfl
@[simp] theorem State.setBusQueue_fifos : (s.setBusQueue q l).fifos = s.fifos := rfl
@[simp] theorem State.setBusQueue_fifoDue : (s.setBusQueue q l).fifoDue = s.fifoDue := rfl
@[simp] theorem State.setBusQueue_dma : (s.setBusQueue q l).dma = s.dma := rfl
@[simp] theorem State.setBusQueue_inbox : (s.setBusQueue q l).inbox = s.inbox := rfl
@[simp] theorem State.setBusQueue_sideWait : (s.setBusQueue q l).sideWait = s.sideWait := rfl
@[simp] theorem State.setBusQueue_sideCross : (s.setBusQueue q l).sideCross = s.sideCross := rfl
@[simp] theorem State.setBusQueue_floods : (s.setBusQueue q l).floods = s.floods := rfl
@[simp] theorem State.setBusQueue_cmt : (s.setBusQueue q l).cmt = s.cmt := rfl
@[simp] theorem State.setBusQueue_stages : (s.setBusQueue q l).stages = s.stages := rfl
@[simp] theorem State.setBusQueue_inbuf : (s.setBusQueue q l).inbuf = s.inbuf := rfl
@[simp] theorem State.setBusQueue_redIn : (s.setBusQueue q l).redIn = s.redIn := rfl
@[simp] theorem State.setBusQueue_redSeen : (s.setBusQueue q l).redSeen = s.redSeen := rfl
@[simp] theorem State.setBusQueue_formed : (s.setBusQueue q l).formed = s.formed := rfl
@[simp] theorem State.setBusQueue_cdef : (s.setBusQueue q l).cdef = s.cdef := rfl
@[simp] theorem State.setBusQueue_chk : (s.setBusQueue q l).chk = s.chk := rfl
@[simp] theorem State.setBusQueue_flushAt : (s.setBusQueue q l).flushAt = s.flushAt := rfl
@[simp] theorem State.setBusQueue_mr4 : (s.setBusQueue q l).mr4 = s.mr4 := rfl
@[simp] theorem State.setBusQueue_mr4At : (s.setBusQueue q l).mr4At = s.mr4At := rfl
@[simp] theorem State.setBusQueue_refBank : (s.setBusQueue q l).refBank = s.refBank := rfl
@[simp] theorem State.setBusQueue_refAt : (s.setBusQueue q l).refAt = s.refAt := rfl
@[simp] theorem State.setBusQueue_bankBlk : (s.setBusQueue q l).bankBlk = s.bankBlk := rfl
@[simp] theorem State.setBusQueue_wck : (s.setBusQueue q l).wck = s.wck := rfl
@[simp] theorem State.setBusQueue_osc : (s.setBusQueue q l).osc = s.osc := rfl
@[simp] theorem State.setBusQueue_wokeAt : (s.setBusQueue q l).wokeAt = s.wokeAt := rfl
@[simp] theorem State.setBusQueue_patPend : (s.setBusQueue q l).patPend = s.patPend := rfl
@[simp] theorem State.setBusQueue_slower : (s.setBusQueue q l).slower = s.slower := rfl
@[simp] theorem State.setBusQueue_retraining : (s.setBusQueue q l).retraining = s.retraining := rfl
@[simp] theorem State.setBusQueue_pprs : (s.setBusQueue q l).pprs = s.pprs := rfl
@[simp] theorem State.setBusQueue_pprBusy : (s.setBusQueue q l).pprBusy = s.pprBusy := rfl
@[simp] theorem State.setBusQueue_linkBad : (s.setBusQueue q l).linkBad = s.linkBad := rfl
@[simp] theorem State.setBusQueue_hch : (s.setBusQueue q l).hch = s.hch := rfl
@[simp] theorem State.setBusQueue_syncMark : (s.setBusQueue q l).syncMark = s.syncMark := rfl
@[simp] theorem State.setBusQueue_out : (s.setBusQueue q l).out = s.out := rfl
@[simp] theorem State.setBusQueue_free : (s.setBusQueue q l).free = s.free := rfl
@[simp] theorem State.setBusQueue_mapPend : (s.setBusQueue q l).mapPend = s.mapPend := rfl
@[simp] theorem State.setBusQueue_root : (s.setBusQueue q l).root = s.root := rfl
@[simp] theorem State.setBusQueue_procs : (s.setBusQueue q l).procs = s.procs := rfl
@[simp] theorem State.setBusQueue_port : (s.setBusQueue q l).port = s.port := rfl
@[simp] theorem State.setBusQueue_members : (s.setBusQueue q l).members = s.members := rfl
@[simp] theorem State.setBusQueue_swapAt : (s.setBusQueue q l).swapAt = s.swapAt := rfl
@[simp] theorem State.setBusQueue_nv : (s.setBusQueue q l).nv = s.nv := rfl
@[simp] theorem State.setBusQueue_nonceSeq : (s.setBusQueue q l).nonceSeq = s.nonceSeq := rfl
@[simp] theorem State.setBusQueue_testOpen : (s.setBusQueue q l).testOpen = s.testOpen := rfl
@[simp] theorem State.setBusQueue_powered : (s.setBusQueue q l).powered = s.powered := rfl
@[simp] theorem State.setBusQueue_hiveOff : (s.setBusQueue q l).hiveOff = s.hiveOff := rfl
@[simp] theorem State.setBusQueue_portReady : (s.setBusQueue q l).portReady = s.portReady := rfl
@[simp] theorem State.setBusQueue_cpPend : (s.setBusQueue q l).cpPend = s.cpPend := rfl
@[simp] theorem State.setBusQueue_running : (s.setBusQueue q l).running = s.running := rfl
@[simp] theorem State.setBusQueue_bootF : (s.setBusQueue q l).bootF = s.bootF := rfl
@[simp] theorem State.setBusQueue_pending : (s.setBusQueue q l).pending = s.pending := rfl
end

/-! ### Derived updates -/

section
variable (s : State)
theorem State.modCore_eq (i : Nat) (f : Core → Core) : s.modCore i f = s.setCore i (f (s.core i)) := rfl
theorem State.modCtx_eq (i n : Nat) (f : Ctx → Ctx) : s.modCtx i n f = s.setCore i ((s.core i).modCtx n f) := rfl
theorem State.setFld_eq (off hi lo x : Nat) : s.setFld off hi lo x = s.setReg off (setBits (s.reg off) hi lo x) := rfl
theorem State.setFlag_eq (off i : Nat) : s.setFlag off i = s.setReg off (setBits (s.reg off) i i 1) := rfl
theorem State.clrFlag_eq (off i : Nat) : s.clrFlag off i = s.setReg off (setBits (s.reg off) i i 0) := rfl
theorem State.raise_eq (d src : Nat) : s.raise d src = s.event (blkEVC d + 0x1000 + 8 * src) 8 := rfl
theorem State.raiseKeep_eq (b : Nat) : s.raiseKeep b = s.event rEvpend b := rfl
theorem State.modLink_eq (k : Nat) (f : Link → Link) : s.modLink k f = s.setLink k (f (s.link k)) := rfl
theorem State.modProc_eq (p : Nat) (f : Proc → Proc) : s.modProc p f = s.setProc p (f (s.proc p)) := rfl
end

/-! ### Reads after writes -/

section
variable (s : State)
theorem State.reg_setReg (a b : Nat) (v : W64) : (s.setReg a v).reg b = if b = a then v else s.reg b := by
  simp [State.reg, State.setReg, Tab.get_put]
@[simp] theorem State.reg_setReg_self (a : Nat) (v : W64) : (s.setReg a v).reg a = v := by simp [State.reg_setReg]
theorem State.core_setCore (i j : Nat) (k : Core) : (s.setCore i k).core j = if j = i then k else s.core j := by
  simp [State.core, State.setCore, Tab.get_put]
@[simp] theorem State.core_setCore_self (i : Nat) (k : Core) : (s.setCore i k).core i = k := by simp [State.core_setCore]
@[simp] theorem State.core_setReg (off : Nat) (v : W64) (i : Nat) : (s.setReg off v).core i = s.core i := rfl
@[simp] theorem State.reg_setCore (i : Nat) (k : Core) (off : Nat) : (s.setCore i k).reg off = s.reg off := rfl
theorem State.link_setLink (i j : Nat) (l : Link) : (s.setLink i l).link j = if j = i then l else s.link j := by
  simp [State.link, State.setLink, Tab.get_put]
theorem State.proc_setProc (p q : Nat) (k : Proc) : (s.setProc p k).proc q = if q = p then k else s.proc q := by
  simp [State.proc, State.setProc, Tab.get_put]
theorem State.member_modMember (m n : Nat) (g : Member → Member) :
    (s.modMember m g).member n = if n = m then g (s.member m) else s.member n := by
  simp [State.member, State.modMember, Tab.get_put]
end

section
variable (k : Core)
theorem Core.reg_setReg (a b : Nat) (v : W64) : (k.setReg a v).reg b = if b = a then v else k.reg b := by
  simp [Core.reg, Core.setReg, Tab.get_put]
@[simp] theorem Core.reg_setReg_self (a : Nat) (v : W64) : (k.setReg a v).reg a = v := by simp [Core.reg_setReg]
theorem Core.getCtx_setCtx (n m : Nat) (x : Ctx) : (k.setCtx n x).getCtx m = if m = n then x else k.getCtx m := by
  simp [Core.getCtx, Core.setCtx, Tab.get_put]
@[simp] theorem Core.reg_setCtx (n off : Nat) (x : Ctx) : (k.setCtx n x).reg off = k.reg off := rfl
@[simp] theorem Core.getCtx_setReg (off n : Nat) (v : W64) : (k.setReg off v).getCtx n = k.getCtx n := rfl
end

/-- Scalar registers of a context and of a processor: a read after a write. -/
theorem Ctx.sreg_setSreg (x : Ctx) (r q : Nat) (v : W64) : (x.setSreg r v).sreg q = if q = r then v else x.sreg q := by
  simp [Ctx.sreg, Ctx.setSreg, Tab.get_put]
theorem Proc.sreg_setSreg (k : Proc) (r q : Nat) (v : W64) : (k.setSreg r v).sreg q = if q = r then v else k.sreg q := by
  simp [Proc.sreg, Proc.setSreg, Tab.get_put]

/-! ### Time -/

theorem State.clockTo_past (s : State) (t : Nat) (h : t ≤ s.ct) : s.clockTo t = s := by simp [State.clockTo, h]

/-- Everything that the clocks change as canopy time passes: the time, the grid, lagging glades, registers and the record of
same-time events. -/
theorem State.clockTo_changes (s : State) (t : Nat) :
    ∃ r g n e p m, s.clockTo t = { s with regs := r, glades := g, ct := Nat.max s.ct t, cyc := n, nextEdge := e, prevEdge := p, marks := m } := by
  have count : ∀ (s : State) (w sat off n : Nat), ∃ r m, s.countMod w sat off n = { s with regs := r, marks := m } := by
    intro s w sat off n
    unfold State.countMod
    simp only
    split <;> exact ⟨_, _, rfl⟩
  have fold : ∀ (l : Tab Glade) (f : Nat × Glade → Nat) (s : State),
      ∃ r m, l.foldl (fun a p => if f p = 0 then a else a.countMod 48 63 (blkCLK + 0x20000 + 8 * p.1) (f p)) s =
        { s with regs := r, marks := m } := by
    intro l f
    induction l with
    | nil => intro s; exact ⟨_, _, rfl⟩
    | cons p l ih =>
      intro s
      simp only [List.foldl_cons]
      split
      · exact ih s
      · obtain ⟨r, m, hr⟩ := count s 48 63 (blkCLK + 0x20000 + 8 * p.1) (f p)
        obtain ⟨r', m', hr'⟩ := ih (s.countMod 48 63 (blkCLK + 0x20000 + 8 * p.1) (f p))
        exact ⟨r', m', by rw [hr', hr]⟩
  by_cases h : t ≤ s.ct
  · exact ⟨s.regs, s.glades, s.cyc, s.nextEdge, s.prevEdge, s.marks, by
      have hm : Nat.max s.ct t = s.ct := Nat.max_eq_left h
      rw [s.clockTo_past t h, hm]⟩
  · obtain ⟨r, m, hr⟩ := fold s.glades (fun p => (s.gladeAt p.1 p.2 t).2) s
    have hm : Nat.max s.ct t = t := Nat.max_eq_right (by omega)
    unfold State.clockTo
    simp only [h, if_false, hm]
    rw [hr]
    exact ⟨_, _, _, _, _, _, rfl⟩

/-- Waiting for a time that has passed changes nothing. -/
theorem State.toCt_past (s : State) (t : Nat) (h : t ≤ s.ct) : s.toCt t = s := by
  unfold State.toCt
  split
  · exact s.clockTo_past t h
  · rw [Nat.sub_eq_zero_of_le h]; exact s.clockTo_past t h

/-- Where no core and no router has work in hand, only the clocks move. -/
theorem State.toCt_idle (s : State) (t : Nat) (h : s.gladesAtWork = []) : s.toCt t = s.clockTo t := by
  simp [State.toCt, h]

/-- A core at or past the cycle waited for. -/
theorem State.toCyc_past (s : State) (i c : Nat) (h : c ≤ s.cycOf i) : s.toCyc i c = s := by simp [State.toCyc, h]

end Sys2Proof.Machine
end

