-- ==== Sys2Proof/Laws/Time.lean ====
section
/-! SUPPORT.
What an update of one core leaves of it, and what counting an event leaves. -/

namespace Sys2Proof.Machine

theorem core_modCore (s : State) (i : Nat) (f : Core → Core) : (s.modCore i f).core i = f (s.core i) := by
  simp [State.modCore]

theorem core_count48 (s : State) (i off n : Nat) :
    (s.count48 i off n).core i = (s.core i).setReg off (satCount 48 63 n ((s.core i).reg off)).1 := by
  simp only [State.count48]
  split
  · unfold State.raiseCore
    split
    · exact core_modCore s i (fun k => k.setReg off (satCount 48 63 n ((s.core i).reg off)).1)
    · exact core_modCore s i (fun k => k.setReg off (satCount 48 63 n ((s.core i).reg off)).1)
  · exact core_modCore s i _

theorem core_setCore (s : State) (i : Nat) (k : Core) : (s.setCore i k).core i = k := by
  simp [State.core, State.setCore]

theorem Tab.put_put {α : Type} (t : Tab α) (k : Nat) (v w : α) : Tab.put (Tab.put t k v) k w = Tab.put t k w := by
  induction t with
  | nil => simp [Tab.put]
  | cons p r ih =>
    obtain ⟨j, x⟩ := p
    by_cases h : j = k
    · simp [Tab.put, h]
    · by_cases hk : k < j
      · simp [Tab.put, h, hk]
      · simp [Tab.put, h, hk, ih]

theorem setCore_twice (s : State) (i : Nat) (k k' : Core) : (s.setCore i k).setCore i k' = s.setCore i k' := by
  simp [State.setCore, Tab.put_put]

end Sys2Proof.Machine
end

