-- ==== Sys2Proof/Laws/Fault.lean ====
section
/-! SUPPORT.
What a fault of one context leaves of the others, and the forms of the events that end a WAIT.AT. -/

namespace Sys2Proof.Machine

theorem foldl_cores {α : Type} (g : State → α → State) (h : ∀ a x, (g a x).cores = a.cores) (l : List α) (s : State) :
    (l.foldl g s).cores = s.cores := by
  induction l generalizing s with
  | nil => rfl
  | cons x l ih => exact (ih _).trans (h s x)

theorem State.queueSide_cores (s : State) (o : Nat × Nat) (k : Nat) (f : SideFlit) : (s.queueSide o k f).cores = s.cores := by
  unfold State.queueSide State.joinSide
  split
  · split <;> rfl
  · rfl

theorem State.flood_cores (s : State) (e fid : Nat) (b : BitVec 2048) : (s.flood e fid b).cores = s.cores := by
  unfold State.flood State.queueUp
  refine foldl_cores _ (fun a x => ?_) _ _
  split
  · exact State.queueSide_cores _ _ _ _
  · rfl

theorem State.recordFail_cores (s : State) (r c : Nat) : (s.recordFail r c).cores = s.cores := by
  unfold State.recordFail; split <;> rfl

theorem State.failRel_cores (s : State) (r c : Nat) : (s.failRel r c).cores = s.cores := by
  have h : ∀ u : State, ∀ b : Bool, (if b = true then ({ u with cmt := { u.cmt with failed := BitVec.ofNat 32 r :: u.cmt.failed } }).flood
      0 (agreeFid r 5) (agreeBody 5 c r 0) else u).cores = u.cores := by
    intro u b; split
    · exact State.flood_cores _ _ _ _
    · rfl
  simp only [State.failRel]
  refine (h _ _).trans ?_
  split <;> exact State.recordFail_cores _ _ _

theorem State.raiseCore_cores (s : State) (i k : Nat) : (s.raiseCore i k).cores = s.cores := by
  unfold State.raiseCore; split <;> rfl

theorem State.core_of_cores {s t : State} (h : s.cores = t.cores) (i : Nat) : s.core i = t.core i := by simp [State.core, h]

theorem Core.modCtx_other (k : Core) (n m : Nat) (h : m ≠ n) (f : Ctx → Ctx) : (k.modCtx n f).getCtx m = k.getCtx m := by
  simp [Core.modCtx, Core.setCtx, Core.getCtx, Tab.get_put, h]

theorem State.modCore_ctx_other (s : State) (i n m : Nat) (h : m ≠ n) (g : Core → Core) (f : Ctx → Ctx)
    (hg : ∀ k : Core, (g k).getCtx m = k.getCtx m) : (s.modCore i (fun k => (g k).modCtx n f)).ctx i m = s.ctx i m := by
  simp only [State.ctx, core_modCore]
  exact ((g (s.core i)).modCtx_other n m h f).trans (hg _)

theorem State.stopTask_ctx_other (s : State) (i n m : Nat) (h : m ≠ n) (b : Bool) : (s.stopTask i n b).ctx i m = s.ctx i m := by
  simp only [State.stopTask, State.deschedule, State.ctx, core_modCore]
  have hk := (s.core i).modCtx_other n m h (fun x => { x with mode := .ending b, after := none })
  split
  · split
    · exact hk
    · exact hk
  · exact hk

/-- A fault of context n leaves every other context of its core. -/
theorem State.faultCtx_ctx_other (s : State) (i n m code : Nat) (r : W64) (h : m ≠ n) : (s.faultCtx i n code r).ctx i m = s.ctx i m := by
  have hc : ∀ a b : State, a.cores = b.cores → a.ctx i m = b.ctx i m := fun a b hab => by
    simp only [State.ctx, State.core_of_cores hab i]
  have h1 : ∀ (g : Core → Core) (f : Ctx → Ctx), (∀ k : Core, (g k).getCtx m = k.getCtx m) → ∀ b : State → State,
      (∀ u : State, (b u).cores = u.cores) → (b (s.modCore i (fun k => (g k).modCtx n f))).ctx i m = s.ctx i m :=
    fun g f hg b hb => (hc _ _ (hb _)).trans (s.modCore_ctx_other i n m h g f hg)
  simp only [State.faultCtx]
  split
  · rfl
  · have hs : ∀ (u : State) (c : Prop) [Decidable c], (if c then (u.raiseCore i 0).failCurrent else u.raiseCore i 0).cores = u.cores := by
      intro u c _
      split
      · exact (State.failRel_cores _ _ _).trans (State.raiseCore_cores _ _ _)
      · exact State.raiseCore_cores _ _ _
    have h0 := h1 (fun k => (((k.setFld (offStat n) 23 16 code).setReg (offFaultAt n) r).setReg (offFaultCt n)
      (BitVec.ofNat 64 (s.edgeCt i)))) (fun x => { x with faulted := true }) (fun _ => rfl)
      (fun u => if s.phase = 2 ∨ s.phase = 3 then (u.raiseCore i 0).failCurrent else u.raiseCore i 0) (fun u => hs u _)
    split
    · exact ((State.modCore_ctx_other _ i n m h (fun k => k) _ (fun _ => rfl))).trans h0
    · exact h0
    · exact ((State.modCore_ctx_other _ i n m h (fun k => k) _ (fun _ => rfl))).trans h0
    · exact (State.stopTask_ctx_other _ i n m h true).trans h0

/-- The loss of QUAL reaches a core on which one context waits at WAIT.AT: that context faults. -/
theorem lossCycle_one {s : State} {i : CoreIx} {n : CtxIx} {target : Nat} (h1 : (s.ctx i n).mode = .waiting (.at target))
    (hl : s.lostBefore i target = true) (hr : s.qualReach i ≤ s.edgeCt i) (h6 : ∀ m : CtxIx, m ≠ n → (s.ctx i m).mode = .noTask) :
    lossCycle s i = s.faultAsync i n fTIMEUNQ 6 := by
  have hf : ∀ m : Nat, m ≠ n → (s.faultAsync i n fTIMEUNQ 6).ctx i m = s.ctx i m := fun m hm => s.faultCtx_ctx_other i n m _ _ hm
  obtain ⟨n, hn⟩ := n
  have h0 := fun (m : CtxIx) (hm : m ≠ ⟨n, hn⟩) => h6 m hm
  unfold lossCycle
  match n, hn with
  | 0, _ =>
    have g1 : (s.ctx i 1).mode = .noTask := h0 ⟨1, by decide⟩ (by simp)
    have g2 : (s.ctx i 2).mode = .noTask := h0 ⟨2, by decide⟩ (by simp)
    have g3 : (s.ctx i 3).mode = .noTask := h0 ⟨3, by decide⟩ (by simp)
    simp only [] at h1 hf ⊢
    simp [h1, hf, g1, g2, g3, hl, hr]
  | 1, _ =>
    have g1 : (s.ctx i 0).mode = .noTask := h0 ⟨0, by decide⟩ (by simp)
    have g2 : (s.ctx i 2).mode = .noTask := h0 ⟨2, by decide⟩ (by simp)
    have g3 : (s.ctx i 3).mode = .noTask := h0 ⟨3, by decide⟩ (by simp)
    simp only [] at h1 hf ⊢
    simp [h1, hf, g1, g2, g3, hl, hr]
  | 2, _ =>
    have g1 : (s.ctx i 0).mode = .noTask := h0 ⟨0, by decide⟩ (by simp)
    have g2 : (s.ctx i 1).mode = .noTask := h0 ⟨1, by decide⟩ (by simp)
    have g3 : (s.ctx i 3).mode = .noTask := h0 ⟨3, by decide⟩ (by simp)
    simp only [] at h1 hf ⊢
    simp [h1, hf, g1, g2, g3, hl, hr]
  | 3, _ =>
    have g1 : (s.ctx i 0).mode = .noTask := h0 ⟨0, by decide⟩ (by simp)
    have g2 : (s.ctx i 1).mode = .noTask := h0 ⟨1, by decide⟩ (by simp)
    have g3 : (s.ctx i 2).mode = .noTask := h0 ⟨2, by decide⟩ (by simp)
    simp only [] at h1 hf ⊢
    simp [h1, hf, g1, g2, g3, hl, hr]

/-- WAIT_AT_TARGET_REACHED for a context that still waits in the first cycle at or after its target. -/
theorem waitAtReached_form {s : State} {i n target : Nat} (h1 : (s.ctx i n).mode = .waiting (.at target))
    (h2 : ((s.atTarget i target).ctx i n).mode = .waiting (.at target)) :
    waitAtReached s i n =
      (let u := (s.atTarget i target).modCore i (fun k => k.sampleBy (s.targetCyc i target))
       match (u.core i).power, (u.core i).phase with
       | .run, .gated | .run, .idle => u.modCore i (fun k =>
         { k.modCtx n (fun x => { x with mode := .running }) with
           phase := .running n, nextIssue := Nat.max (s.targetCyc i target) k.nextIssue, lastRun := n })
       | _, _ => u.makeReady i n (s.targetCyc i target)) := by
  unfold waitAtReached
  simp only [h1]
  exact if_neg (fun h => h h2)

end Sys2Proof.Machine
end

