-- ==== Sys2Proof/Laws/Kept.lean ====
section
/-! SUPPORT.
What every operation keeps of the parts of the state that outlast most commands: the queue of waiting commands, the Comb, the
Cellar, and the flash with the fuses.  An operation that touches none of the four has a law `…_k4`, an equation; one that may
write a memory, the flash or a fuse has a law `…_kept`. -/

set_option linter.all false

namespace Sys2Proof.Machine
/-- The parts of the state that outlast most commands: the queue, the two memories, the flash and the fuses. -/
structure K4 where
  pending : List Instr
  comb : Tab Byte
  cellar : Tab Byte
  nv : Nv

def State.k4 (s : State) : K4 := ⟨s.pending, s.comb, s.cellar, s.nv⟩

/-- What every command keeps of them. -/
structure Kept (k t : K4) : Prop where
  pending : t.pending = k.pending
  comb : Memory.wf 0 k.comb = true → Memory.wf 0 t.comb = true
  cellar : Memory.wf 0 k.cellar = true → Memory.wf 0 t.cellar = true
  flash : Memory.wf 0xFF k.nv.flash = true → Memory.wf 0xFF t.nv.flash = true
  fuse : k.nv.f ≤ 64 → t.nv.f ≤ 64 ∧ k.nv.f ≤ t.nv.f
  retired : k.nv.lc = 4 → t.nv.lc = 4

theorem Kept.refl (k : K4) : Kept k k := ⟨rfl, id, id, id, fun h => ⟨h, Nat.le_refl _⟩, id⟩
theorem Kept.trans {a b c : K4} (h : Kept a b) (g : Kept b c) : Kept a c :=
  ⟨g.pending.trans h.pending, fun x => g.comb (h.comb x), fun x => g.cellar (h.cellar x), fun x => g.flash (h.flash x),
   fun x => ⟨(g.fuse (h.fuse x).1).1, Nat.le_trans (h.fuse x).2 (g.fuse (h.fuse x).1).2⟩, fun x => g.retired (h.retired x)⟩
@[simp] theorem kept_self (k : K4) : Kept k k := Kept.refl k
theorem fst_k4 {α : Type} {p : State × α} {a : State} {b : α} (h : p = (a, b)) : a.k4 = p.1.k4 := by rw [h]
theorem snd_k4 {α : Type} {p : α × State} {a : State} {b : α} (h : p = (b, a)) : a.k4 = p.2.k4 := by rw [h]
theorem Kept.foldl {α : Type} (g : State → α → State) (k : K4) (l : List α) (s : State)
    (h : ∀ a x, Kept k a.k4 → Kept k (g a x).k4) (h0 : Kept k s.k4) : Kept k (l.foldl g s).k4 := by
  induction l generalizing s with
  | nil => exact h0
  | cons x l ih => exact ih _ (h _ _ h0)
theorem Kept.foldl_fst {α β : Type} (g : State × β → α → State × β) (k : K4) (l : List α) (p : State × β)
    (h : ∀ a x, Kept k a.1.k4 → Kept k (g a x).1.k4) (h0 : Kept k p.1.k4) : Kept k (l.foldl g p).1.k4 := by
  induction l generalizing p with
  | nil => exact h0
  | cons x l ih => exact ih _ (h _ _ h0)
@[simp] theorem kept_ite (k : K4) (c : Prop) [Decidable c] (a b : K4) :
    Kept k (if c then a else b) ↔ (c → Kept k a) ∧ (¬c → Kept k b) := by split <;> simp [*]

@[simp] theorem k4_mk (x0) (x1) (x2) (x3) (x4) (x5) (x6) (x7) (x8) (x9) (x10) (x11) (x12) (x13) (x14) (x15) (x16) (x17) (x18) (x19) (x20) (x21) (x22) (x23) (x24) (x25) (x26) (x27) (x28) (x29) (x30) (x31) (x32) (x33) (x34) (x35) (x36) (x37) (x38) (x39) (x40) (x41) (x42) (x43) (x44) (x45) (x46) (x47) (x48) (x49) (x50) (x51) (x52) (x53) (x54) (x55) (x56) (x57) (x58) (x59) (x60) (x61) (x62) (x63) (x64) (x65) (x66) (x67) (x68) (x69) (x70) (x71) (x72) (x73) (x74) (x75) :
    State.k4 (State.mk x0 x1 x2 x3 x4 x5 x6 x7 x8 x9 x10 x11 x12 x13 x14 x15 x16 x17 x18 x19 x20 x21 x22 x23 x24 x25 x26 x27 x28 x29 x30 x31 x32 x33 x34 x35 x36 x37 x38 x39 x40 x41 x42 x43 x44 x45 x46 x47 x48 x49 x50 x51 x52 x53 x54 x55 x56 x57 x58 x59 x60 x61 x62 x63 x64 x65 x66 x67 x68 x69 x70 x71 x72 x73 x74 x75) = ⟨x75, x10, x11, x66⟩ := rfl
@[simp] theorem k4_eta (s : State) : K4.mk s.pending s.comb s.cellar s.nv = s.k4 := rfl
@[simp] theorem k4_ite (c : Prop) [Decidable c] (a b : State) : (if c then a else b).k4 = if c then a.k4 else b.k4 := by split <;> rfl
@[simp] theorem k4_foldl {α : Type} (g : State → α → State) (l : List α) (s : State) (h : ∀ a x, (g a x).k4 = a.k4) :
    (l.foldl g s).k4 = s.k4 := by
  induction l generalizing s with
  | nil => rfl
  | cons x l ih => simp [ih, h]
theorem k4_foldl_fst {α β : Type} (g : State × β → α → State × β) (l : List α) (p : State × β) (h : ∀ a x, (g a x).1.k4 = a.1.k4) :
    (l.foldl g p).1.k4 = p.1.k4 := by
  induction l generalizing p with
  | nil => rfl
  | cons x l ih => simp [ih, h]

@[simp] theorem State.setCore_k4 (s : State) (a1) (a2) : (State.setCore s a1 a2).k4 = s.k4 := by
  rfl
@[simp] theorem State.modCore_k4 (s : State) (a1) (a2) : (State.modCore s a1 a2).k4 = s.k4 := by
  rfl
@[simp] theorem State.modCtx_k4 (s : State) (a1) (a2) (a3) : (State.modCtx s a1 a2 a3).k4 = s.k4 := by
  rfl
@[simp] theorem State.setReg_k4 (s : State) (a1) (a2) : (State.setReg s a1 a2).k4 = s.k4 := by
  rfl
@[simp] theorem State.setFld_k4 (s : State) (a1) (a2) (a3) (a4) : (State.setFld s a1 a2 a3 a4).k4 = s.k4 := by
  rfl
@[simp] theorem State.setFlag_k4 (s : State) (a1) (a2) : (State.setFlag s a1 a2).k4 = s.k4 := by
  rfl
@[simp] theorem State.clrFlag_k4 (s : State) (a1) (a2) : (State.clrFlag s a1 a2).k4 = s.k4 := by
  rfl
@[simp] theorem State.mark_k4 (s : State) (a1) (a2) : (State.mark s a1 a2).k4 = s.k4 := by
  rfl
@[simp] theorem State.event_k4 (s : State) (a1) (a2) : (State.event s a1 a2).k4 = s.k4 := by
  rfl
@[simp] theorem State.coreEvent_k4 (s : State) (a1) (a2) (a3) : (State.coreEvent s a1 a2 a3).k4 = s.k4 := by
  rfl
@[simp] theorem State.clear_k4 (s : State) (a1) (a2) : (State.clear s a1 a2).k4 = s.k4 := by
  simp [State.clear]
@[simp] theorem State.coreClear_k4 (s : State) (a1) (a2) (a3) : (State.coreClear s a1 a2 a3).k4 = s.k4 := by
  simp [State.coreClear]
@[simp] theorem State.raise_k4 (s : State) (a1) (a2) : (State.raise s a1 a2).k4 = s.k4 := by
  rfl
@[simp] theorem State.raiseAll_k4 (s : State) (a1) : (State.raiseAll s a1).k4 = s.k4 := by
  simp [State.raiseAll]
@[simp] theorem State.raiseCore_k4 (s : State) (a1) (a2) : (State.raiseCore s a1 a2).k4 = s.k4 := by
  simp [State.raiseCore]
@[simp] theorem State.raiseKeep_k4 (s : State) (a1) : (State.raiseKeep s a1).k4 = s.k4 := by
  rfl
@[simp] theorem State.count48_k4 (s : State) (a1) (a2) (a3) : (State.count48 s a1 a2 a3).k4 = s.k4 := by
  simp [State.count48]
@[simp] theorem State.count16_k4 (s : State) (a1) (a2) (a3) : (State.count16 s a1 a2 a3).k4 = s.k4 := by
  simp [State.count16]
@[simp] theorem State.count32Core_k4 (s : State) (a1) (a2) (a3) : (State.count32Core s a1 a2 a3).k4 = s.k4 := by
  simp [State.count32Core]
@[simp] theorem State.countMod_k4 (s : State) (a1) (a2) (a3) (a4) : (State.countMod s a1 a2 a3 a4).k4 = s.k4 := by
  simp [State.countMod]
@[simp] theorem State.clockTo_k4 (s : State) (a1) : (State.clockTo s a1).k4 = s.k4 := by
  simp [State.clockTo]
@[simp] theorem State.byKeeper_k4 (s : State) (inp) (act refuse : State → State) (ha : (act s).k4 = s.k4) (hr : (refuse s).k4 = s.k4) : (s.byKeeper inp act refuse).k4 = s.k4 := by
  unfold State.byKeeper; split
  · exact ha
  · split
    · rfl
    · exact hr
@[simp] theorem State.byKeeper_kept (k : K4) (s : State) (inp) (act refuse : State → State) (ha : Kept k (act s).k4) (hr : Kept k (refuse s).k4) (h : Kept k s.k4) : Kept k (s.byKeeper inp act refuse).k4 := by
  unfold State.byKeeper; split
  · exact ha
  · split
    · exact h
    · exact hr
@[simp] theorem State.setProc_k4 (s : State) (a1) (a2) : (State.setProc s a1 a2).k4 = s.k4 := by
  rfl
@[simp] theorem State.modProc_k4 (s : State) (a1) (a2) : (State.modProc s a1 a2).k4 = s.k4 := by
  rfl
@[simp] theorem State.modMember_k4 (s : State) (a1) (a2) : (State.modMember s a1 a2).k4 = s.k4 := by
  rfl
@[simp] theorem State.wakeSource_k4 (s : State) (a1) (a2) : (State.wakeSource s a1 a2).k4 = s.k4 := by
  simp [State.wakeSource]
@[simp] theorem State.setLink_k4 (s : State) (a1) (a2) : (State.setLink s a1 a2).k4 = s.k4 := by
  rfl
@[simp] theorem State.modLink_k4 (s : State) (a1) (a2) : (State.modLink s a1 a2).k4 = s.k4 := by
  rfl
@[simp] theorem State.joinSide_k4 (s : State) (a1) (a2) : (State.joinSide s a1 a2).k4 = s.k4 := by
  simp [State.joinSide]
@[simp] theorem State.queueSide_k4 (s : State) (a1) (a2) (a3) : (State.queueSide s a1 a2 a3).k4 = s.k4 := by
  simp [State.queueSide]
@[simp] theorem State.seeFlood_k4 (s : State) (a1) (a2) : (State.seeFlood s a1 a2).k4 = s.k4 := by
  rfl
@[simp] theorem State.queueUp_k4 (s : State) (a1) (a2) (a3) : (State.queueUp s a1 a2 a3).k4 = s.k4 := by
  simp only [State.queueUp]
  repeat' first
    | (with_reducible refine (k4_foldl _ _ _ ?_).trans ?_)
    | (with_reducible refine (k4_foldl_fst _ _ _ ?_).trans ?_)
    | intro _
    | split
  all_goals first
    | (simp [*]; done)
    | (simp only [Prod.ext_iff] at *; repeat (rename _ ∧ _ => hh; obtain ⟨h1, h2⟩ := hh); subst_vars; simp [*]; done)
    | rfl

@[simp] theorem State.flood_k4 (s : State) (a1) (a2) (a3) : (State.flood s a1 a2 a3).k4 = s.k4 := by
  simp only [State.flood]
  repeat' first
    | (with_reducible refine (k4_foldl _ _ _ ?_).trans ?_)
    | (with_reducible refine (k4_foldl_fst _ _ _ ?_).trans ?_)
    | intro _
    | split
  all_goals first
    | (simp [*]; done)
    | (simp only [Prod.ext_iff] at *; repeat (rename _ ∧ _ => hh; obtain ⟨h1, h2⟩ := hh); subst_vars; simp [*]; done)
    | rfl

@[simp] theorem State.recordFail_k4 (s : State) (a1) (a2) : (State.recordFail s a1 a2).k4 = s.k4 := by
  simp [State.recordFail]
@[simp] theorem State.failRel_k4 (s : State) (a1) (a2) : (State.failRel s a1 a2).k4 = s.k4 := by
  simp [State.failRel]
@[simp] theorem State.failStep_k4 (s : State) (a1) : (State.failStep s a1).k4 = s.k4 := by
  simp [State.failStep]
@[simp] theorem State.failCurrent_k4 (s : State) : (State.failCurrent s).k4 = s.k4 := by
  simp [State.failCurrent]
@[simp] theorem State.failCanopy_k4 (s : State) (a1) (a2) (a3) : (State.failCanopy s a1 a2 a3).k4 = s.k4 := by
  simp [State.failCanopy]
@[simp] theorem State.reportErrors_k4 (s : State) (a1) (a2) (a3) (a4) : (State.reportErrors s a1 a2 a3 a4).k4 = s.k4 := by
  (simp only [State.reportErrors]; (repeat' split)) <;> simp [*]
@[simp] theorem State.readComb_k4 (s : State) (a1) (a2) : (State.readComb s a1 a2).1.k4 = s.k4 := by
  (simp only [State.readComb]; (repeat' split)) <;> simp [*]
theorem Kept.setComb {k : K4} {s : State} (h : Kept k s.k4) (m : Tab Byte) (hm : Memory.wf 0 s.comb = true → Memory.wf 0 m = true) :
    Kept k ⟨s.pending, m, s.cellar, s.nv⟩ := h.trans ⟨rfl, hm, id, id, fun x => ⟨x, Nat.le_refl _⟩, id⟩
theorem Kept.setCellar {k : K4} {s : State} (h : Kept k s.k4) (m : Tab Byte)
    (hm : Memory.wf 0 s.cellar = true → Memory.wf 0 m = true) :
    Kept k ⟨s.pending, s.comb, m, s.nv⟩ := h.trans ⟨rfl, id, hm, id, fun x => ⟨x, Nat.le_refl _⟩, id⟩
@[simp] theorem State.putPhys_kept (k : K4) (s : State) (a1) (a2) (a3) (h : Kept k s.k4) : Kept k (State.putPhys s a1 a2 a3).k4 := by
  unfold State.putPhys
  simp only [State.modCore_k4, k4_mk]
  exact h.setComb _ (writeRow_wf _ _ _)
@[simp] theorem State.watchWrite_k4 (s : State) (a1) (a2) : (State.watchWrite s a1 a2).k4 = s.k4 := by
  (simp only [State.watchWrite]; (repeat' split)) <;> simp [*]
@[simp] theorem State.mergeComb_kept (k : K4) (s : State) (a1) (a2) (a3) (h : Kept k s.k4) : Kept k (State.mergeComb s a1 a2 a3).k4 := by
  simp [State.mergeComb, h]
@[simp] theorem State.writeComb_kept (k : K4) (s : State) (a1) (a2) (a3) (h : Kept k s.k4) : Kept k (State.writeComb s a1 a2 a3).k4 := by
  simp [State.writeComb, h]
@[simp] theorem State.readRows_k4 (s : State) (a1) (a2) (a3) : (State.readRows s a1 a2 a3).1.k4 = s.k4 := by
  induction a3 generalizing s a2 with
  | zero => rfl
  | succ n ih =>
    simp only [State.readRows]
    split
    · rename_i h; rw [fst_k4 h]; simp
    · rename_i h
      split
      · rename_i h'; rw [fst_k4 h', ih, fst_k4 h]; simp
      · rename_i h'; rw [fst_k4 h', ih, fst_k4 h]; simp
@[simp] theorem State.writeRows_kept (k : K4) (s : State) (a1) (a2) (a3) (h : Kept k s.k4) : Kept k (State.writeRows s a1 a2 a3).k4 := by
  induction a3 generalizing s a2 with
  | nil => exact h
  | cons v l ih => exact ih _ _ (State.writeComb_kept _ _ _ _ _ h)
@[simp] theorem State.deschedule_k4 (s : State) (a1) (a2) (a3) (a4) : (State.deschedule s a1 a2 a3 a4).k4 = s.k4 := by
  rfl
@[simp] theorem State.waitFor_k4 (s : State) (a1) (a2) (a3) : (State.waitFor s a1 a2 a3).k4 = s.k4 := by
  (simp only [State.waitFor]; (repeat' split)) <;> simp [*]
@[simp] theorem State.makeReady_k4 (s : State) (a1) (a2) (a3) : (State.makeReady s a1 a2 a3).k4 = s.k4 := by
  rfl
@[simp] theorem State.stopTask_k4 (s : State) (a1) (a2) (a3) : (State.stopTask s a1 a2 a3).k4 = s.k4 := by
  rfl
@[simp] theorem State.faultCtx_k4 (s : State) (a1) (a2) (a3) (a4) : (State.faultCtx s a1 a2 a3 a4).k4 = s.k4 := by
  (simp only [State.faultCtx]; (repeat' split)) <;> simp [*]
@[simp] theorem State.faultAsync_k4 (s : State) (a1) (a2) (a3) (a4) : (State.faultAsync s a1 a2 a3 a4).k4 = s.k4 := by
  simp [State.faultAsync]
@[simp] theorem State.faultStream_k4 (s : State) (a1) (a2) (a3) (a4) : (State.faultStream s a1 a2 a3 a4).k4 = s.k4 := by
  simp [State.faultStream]
@[simp] theorem State.rush_k4 (s : State) (a1) (a2) (a3) : (State.rush s a1 a2 a3).k4 = s.k4 := by
  rfl
@[simp] theorem State.raiseFlags_k4 (s : State) (a1) (a2) (a3) (a4) : (State.raiseFlags s a1 a2 a3 a4).k4 = s.k4 := by
  rfl
@[simp] theorem State.writeReg_k4 (s : State) (a1) (a2) (a3) (a4) (a5) : (State.writeReg s a1 a2 a3 a4 a5).k4 = s.k4 := by
  rfl
@[simp] theorem State.lockLine_k4 (s : State) (a1) (a2) : (State.lockLine s a1 a2).k4 = s.k4 := by
  simp [State.lockLine]
@[simp] theorem State.startFill_k4 (s : State) (a1) (a2) (a3) (a4) : (State.startFill s a1 a2 a3 a4).k4 = s.k4 := by
  simp [State.startFill]
@[simp] theorem State.startTask_k4 (s : State) (a1) (a2) (a3) : (State.startTask s a1 a2 a3).k4 = s.k4 := by
  rfl
@[simp] theorem passRush_k4 (a0) (a1) (s : State) : (passRush a0 a1 s).k4 = s.k4 := by
  (simp only [passRush]; (repeat' split)) <;> simp [*]
@[simp] theorem passIssue_k4 (a0) (a1) (s : State) : (passIssue a0 a1 s).k4 = s.k4 := by
  rfl
@[simp] theorem passCycle_k4 (s : State) (a1) (a2) (a3) : (passCycle s a1 a2 a3).k4 = s.k4 := by
  (simp only [passCycle]; (repeat' split)) <;> simp [*]
@[simp] theorem drainCycle_k4 (a0) (a1) (a2) (s : State) (a4) : (drainCycle a0 a1 a2 s a4).k4 = s.k4 := by
  (simp only [drainCycle]; (repeat' split)) <;> simp [*]
@[simp] theorem gangEnd_k4 (s : State) (a1) (a2) (a3) : (gangEnd s a1 a2 a3).k4 = s.k4 := by
  (simp only [gangEnd]; (repeat' split)) <;> simp [*]
@[simp] theorem tmIssue_k4 (a0) (a1) (s : State) : (tmIssue a0 a1 s).k4 = s.k4 := by
  rfl
@[simp] theorem State.writeOwn_kept (k : K4) (s : State) (a1) (a2) (a3) (a4) (a5) (h : Kept k s.k4) : Kept k (State.writeOwn s a1 a2 a3 a4 a5).k4 := by
  simp [State.writeOwn, h]
@[simp] theorem State.writeOwns_kept (k : K4) (s : State) (a1) (a2) (a3) (a4) (a5) (h : Kept k s.k4) : Kept k (State.writeOwns s a1 a2 a3 a4 a5).k4 := by
  induction a5 generalizing s a4 with
  | nil => exact h
  | cons v l ih => exact ih _ _ (State.writeOwn_kept _ _ _ _ _ _ _ h)
@[simp] theorem State.readLocal_k4 (s : State) (a1) (a2) (a3) (a4) (a5) : (State.readLocal s a1 a2 a3 a4 a5).1.k4 = s.k4 := by
  simp only [State.readLocal]; (repeat' first
      | rfl
      | assumption
      | (with_reducible refine (k4_foldl _ _ _ ?_).trans ?_)
      | (with_reducible refine (k4_foldl_fst _ _ _ ?_).trans ?_)
      | (simp [*]; done)
      | intro _
      | split
      | (simp only [Prod.ext_iff] at *; repeat (rename _ ∧ _ => hh; obtain ⟨h1, h2⟩ := hh); subst_vars; simp [*]; done)
      | (simp_all; done)); done
@[simp] theorem moveRead_k4 (s : State) (a1) (a2) : (moveRead s a1 a2).k4 = s.k4 := by
  simp only [moveRead]; (repeat' first
      | rfl
      | assumption
      | (with_reducible refine (k4_foldl _ _ _ ?_).trans ?_)
      | (with_reducible refine (k4_foldl_fst _ _ _ ?_).trans ?_)
      | (simp [*]; done)
      | intro _
      | split
      | (simp only [Prod.ext_iff] at *; repeat (rename _ ∧ _ => hh; obtain ⟨h1, h2⟩ := hh); subst_vars; simp [*]; done)
      | (simp_all; done)); done
@[simp] theorem moveWrite_kept (k : K4) (s : State) (a1) (a2) (h : Kept k s.k4) : Kept k (moveWrite s a1 a2).k4 := by
  (simp only [moveWrite]; (repeat' split)) <;> simp [*]
@[simp] theorem tilesWrite_k4 (s : State) (a1) (a2) (a3) : (tilesWrite s a1 a2 a3).k4 = s.k4 := by
  simp [tilesWrite]
@[simp] theorem loadCycle_k4 (s : State) (a1) (a2) : (loadCycle s a1 a2).k4 = s.k4 := by
  (simp only [loadCycle]; (repeat' split)) <;> simp [*]
@[simp] theorem passOver_k4 (s : State) (a1) (a2) : (passOver s a1 a2).k4 = s.k4 := by
  rfl
@[simp] theorem passRead_k4 (a0) (a1) (s : State) (a3) : (passRead a0 a1 s a3).k4 = s.k4 := by
  simp only [passRead]; (repeat' first
      | rfl
      | assumption
      | (with_reducible refine (k4_foldl _ _ _ ?_).trans ?_)
      | (with_reducible refine (k4_foldl_fst _ _ _ ?_).trans ?_)
      | (simp [*]; done)
      | intro _
      | split
      | (simp only [Prod.ext_iff] at *; repeat (rename _ ∧ _ => hh; obtain ⟨h1, h2⟩ := hh); subst_vars; simp [*]; done)
      | (simp_all; done)); done
@[simp] theorem passWrite_k4 (a0) (a1) (s : State) (a3) : (passWrite a0 a1 s a3).k4 = s.k4 := by
  simp [passWrite]
@[simp] theorem mvpEnd_k4 (s : State) (a1) (a2) : (mvpEnd s a1 a2).k4 = s.k4 := by
  simp [mvpEnd]
@[simp] theorem svuCycle_k4 (s : State) (a1) (a2) : (svuCycle s a1 a2).k4 = s.k4 := by
  (simp only [svuCycle]; (repeat' split)) <;> simp [*]
@[simp] theorem svuWrite_kept (k : K4) (a0) (a1) (s : State) (a3) (h : Kept k s.k4) : Kept k (svuWrite a0 a1 s a3).k4 := by
  simp only [svuWrite]; (repeat' first
      | rfl
      | assumption
      | (with_reducible refine Kept.foldl _ _ _ _ ?_ ?_)
      | (with_reducible refine Kept.foldl_fst _ _ _ _ ?_ ?_)
      | (simp [*]; done)
      | intro _
      | split
      | (simp only [Prod.ext_iff] at *; repeat (rename _ ∧ _ => hh; obtain ⟨h1, h2⟩ := hh); subst_vars; simp [*]; done)
      | (simp_all; done)); done
@[simp] theorem svuEndOne_kept (k : K4) (a0) (a1) (s : State) (a3) (h : Kept k s.k4) : Kept k (svuEndOne a0 a1 s a3).k4 := by
  simp [svuEndOne, h]
@[simp] theorem svuEnd_kept (k : K4) (s : State) (a1) (a2) (h : Kept k s.k4) : Kept k (svuEnd s a1 a2).k4 := by
  unfold svuEnd; simp only [State.modCore_k4]
  exact Kept.foldl _ _ _ _ (fun a x ha => svuEndOne_kept _ _ _ _ _ ha) h
@[simp] theorem bldCycle_k4 (s : State) (a1) (a2) : (bldCycle s a1 a2).k4 = s.k4 := by
  (simp only [bldCycle]; (repeat' split)) <;> simp [*]
@[simp] theorem epCycle_k4 (s : State) (a1) (a2) : (epCycle s a1 a2).k4 = s.k4 := by
  (simp only [epCycle]; (repeat' split)) <;> simp [*]
@[simp] theorem epEndOne_kept (k : K4) (a0) (a1) (s : State) (a3) (h : Kept k s.k4) : Kept k (epEndOne a0 a1 s a3).k4 := by
  unfold epEndOne; simp only []
  have hw : Kept k (List.foldl (fun s r => s.writeOwn a0 a3.ctx a3.tag (a3.drow + r) ((epCompute a3 (epResid a3)).1.getD r 0)) s (a3.writes a1)).k4 :=
    Kept.foldl _ _ _ _ (fun a x ha => by simp [ha]) h
  split
  · exact hw
  · simp only [State.raiseFlags_k4, State.modCore_k4]; exact hw
@[simp] theorem epEnd_kept (k : K4) (s : State) (a1) (a2) (h : Kept k s.k4) : Kept k (epEnd s a1 a2).k4 := by
  unfold epEnd; simp only [State.modCore_k4]
  exact Kept.foldl _ _ _ _ (fun a x ha => epEndOne_kept _ _ _ _ _ ha) h
@[simp] theorem State.launch_k4 (s : State) (a1) (a2) (a3) (a4) : (State.launch s a1 a2 a3 a4).k4 = s.k4 := by
  rfl
@[simp] theorem State.sendCtl_k4 (s : State) (a1) (a2) (a3) : (State.sendCtl s a1 a2 a3).k4 = s.k4 := by
  rfl
@[simp] theorem State.sendStatus_k4 (s : State) (a1) (a2) (a3) (a4) : (State.sendStatus s a1 a2 a3 a4).k4 = s.k4 := by
  (simp only [State.sendStatus]; (repeat' split)) <;> simp [*]
@[simp] theorem State.copyStop_k4 (s : State) (a1) (a2) : (State.copyStop s a1 a2).k4 = s.k4 := by
  rfl
@[simp] theorem State.collided_k4 (s : State) (a1) (a2) : (State.collided s a1 a2).k4 = s.k4 := by
  (simp only [State.collided]; (repeat' split)) <;> simp [*]
@[simp] theorem State.rowCycle_k4 (s : State) (a1) (a2) : (State.rowCycle s a1 a2).k4 = s.k4 := by
  simp only [State.rowCycle]; (repeat' first
      | rfl
      | assumption
      | (with_reducible refine (k4_foldl _ _ _ ?_).trans ?_)
      | (with_reducible refine (k4_foldl_fst _ _ _ ?_).trans ?_)
      | (simp [*]; done)
      | intro _
      | split
      | (simp only [Prod.ext_iff] at *; repeat (rename _ ∧ _ => hh; obtain ⟨h1, h2⟩ := hh); subst_vars; simp [*]; done)
      | (simp_all; done)); done
@[simp] theorem State.ctlCycle_k4 (s : State) (a1) (a2) : (State.ctlCycle s a1 a2).k4 = s.k4 := by
  simp only [State.ctlCycle]; (repeat' first
      | rfl
      | assumption
      | (with_reducible refine (k4_foldl _ _ _ ?_).trans ?_)
      | (with_reducible refine (k4_foldl_fst _ _ _ ?_).trans ?_)
      | (simp [*]; done)
      | intro _
      | split
      | (simp only [Prod.ext_iff] at *; repeat (rename _ ∧ _ => hh; obtain ⟨h1, h2⟩ := hh); subst_vars; simp [*]; done)
      | (simp_all; done)); done
@[simp] theorem State.landSides_k4 (s : State) (a1) : (State.landSides s a1).k4 = s.k4 := by
  simp only [State.landSides]; (repeat' first
      | rfl
      | assumption
      | (with_reducible refine (k4_foldl _ _ _ ?_).trans ?_)
      | (with_reducible refine (k4_foldl_fst _ _ _ ?_).trans ?_)
      | (simp [*]; done)
      | intro _
      | split
      | (simp only [Prod.ext_iff] at *; repeat (rename _ ∧ _ => hh; obtain ⟨h1, h2⟩ := hh); subst_vars; simp [*]; done)
      | (simp_all; done)); done
@[simp] theorem State.crossSide_k4 (s : State) (a1) (a2) : (State.crossSide s a1 a2).k4 = s.k4 := by
  (simp only [State.crossSide]; (repeat' split)) <;> simp [*]
@[simp] theorem State.fabricCycle_k4 (s : State) (a1) (a2) : (State.fabricCycle s a1 a2).k4 = s.k4 := by
  simp [State.fabricCycle]
@[simp] theorem State.refuse_k4 (s : State) (a1) (a2) (a3) : (State.refuse s a1 a2 a3).k4 = s.k4 := by
  simp [State.refuse]
@[simp] theorem State.resolve_k4 (s : State) (a1) (a2) (a3) (a4) : (State.resolve s a1 a2 a3 a4).k4 = s.k4 := by
  (simp only [State.resolve]; (repeat' split)) <;> simp [*]
@[simp] theorem State.returnRow_k4 (s : State) (a1) (a2) (a3) (a4) : (State.returnRow s a1 a2 a3 a4).k4 = s.k4 := by
  (simp only [State.returnRow]; (repeat' split)) <;> simp [*]
@[simp] theorem State.refusedRow_k4 (s : State) (a1) (a2) (a3) : (State.refusedRow s a1 a2 a3).k4 = s.k4 := by
  (simp only [State.refusedRow]; (repeat' split)) <;> simp [*]
@[simp] theorem State.admitOrdered_k4 (s : State) (a1) (a2) (a3) (a4) : (State.admitOrdered s a1 a2 a3 a4).k4 = s.k4 := by
  (simp only [State.admitOrdered]; (repeat' split)) <;> simp [*]
@[simp] theorem State.takeAccess_kept (k : K4) (s : State) (a1) (a2) (a3) (h : Kept k s.k4) : Kept k (State.takeAccess s a1 a2 a3).k4 := by
  simp only [State.takeAccess]; (repeat' first
      | rfl
      | assumption
      | (with_reducible refine Kept.foldl _ _ _ _ ?_ ?_)
      | (with_reducible refine Kept.foldl_fst _ _ _ _ ?_ ?_)
      | (simp [*]; done)
      | intro _
      | split
      | (simp only [Prod.ext_iff] at *; repeat (rename _ ∧ _ => hh; obtain ⟨h1, h2⟩ := hh); subst_vars; simp [*]; done)
      | (simp_all; done)); done
@[simp] theorem State.tryAccess_kept (k : K4) (s : State) (a1) (a2) (a3) (h : Kept k s.k4) : Kept k (State.tryAccess s a1 a2 a3).1.k4 := by
  (simp only [State.tryAccess]; (repeat' split)) <;> simp [*]
@[simp] theorem State.portHead_kept (k : K4) (s : State) (a1) (a2) (h : Kept k s.k4) : Kept k (State.portHead s a1 a2).k4 := by
  simp only [State.portHead]; (repeat' first
      | rfl
      | assumption
      | (with_reducible refine Kept.foldl _ _ _ _ ?_ ?_)
      | (with_reducible refine Kept.foldl_fst _ _ _ _ ?_ ?_)
      | (simp [*]; done)
      | intro _
      | split
      | (simp only [Prod.ext_iff] at *; repeat (rename _ ∧ _ => hh; obtain ⟨h1, h2⟩ := hh); subst_vars; simp [*]; done)
      | (simp_all; done)); done
@[simp] theorem State.wakeArray_k4 (s : State) (a1) : (State.wakeArray s a1).k4 = s.k4 := by
  simp [State.wakeArray]
@[simp] theorem State.arrive_kept (k : K4) (s : State) (a1) (a2) (a3) (h : Kept k s.k4) : Kept k (State.arrive s a1 a2 a3).k4 := by
  simp only [State.arrive]; (repeat' first
      | rfl
      | assumption
      | (with_reducible refine Kept.foldl _ _ _ _ ?_ ?_)
      | (with_reducible refine Kept.foldl_fst _ _ _ _ ?_ ?_)
      | (simp [*]; done)
      | intro _
      | split
      | (simp only [Prod.ext_iff] at *; repeat (rename _ ∧ _ => hh; obtain ⟨h1, h2⟩ := hh); subst_vars; simp [*]; done)
      | (simp_all; done)); done
@[simp] theorem State.passTurn_k4 (s : State) (a1) (a2) : (State.passTurn s a1 a2).k4 = s.k4 := by
  (simp only [State.passTurn]; (repeat' split)) <;> simp [*]
@[simp] theorem seqCycle_kept (k : K4) (s : State) (a1) (a2) (h : Kept k s.k4) : Kept k (seqCycle s a1 a2).k4 := by
  simp only [seqCycle]; (repeat' first
      | rfl
      | assumption
      | (with_reducible refine Kept.foldl _ _ _ _ ?_ ?_)
      | (with_reducible refine Kept.foldl_fst _ _ _ _ ?_ ?_)
      | (simp [*]; done)
      | intro _
      | split
      | (simp only [Prod.ext_iff] at *; repeat (rename _ ∧ _ => hh; obtain ⟨h1, h2⟩ := hh); subst_vars; simp [*]; done)
      | (simp_all; done)); done
@[simp] theorem State.dropWindow_k4 (s : State) (a1) (a2) : (State.dropWindow s a1 a2).k4 = s.k4 := by
  (simp only [State.dropWindow]; (repeat' split)) <;> simp [*]
@[simp] theorem State.closeWindows_k4 (s : State) (a1) (a2) : (State.closeWindows s a1 a2).k4 = s.k4 := by
  simp [State.closeWindows]
@[simp] theorem repairWrite_k4 (s : State) (a1) (a2) : (repairWrite s a1 a2).k4 = s.k4 := by
  simp [repairWrite]
@[simp] theorem State.scrubRow_k4 (s : State) (a1) (a2) : (State.scrubRow s a1 a2).k4 = s.k4 := by
  simp [State.scrubRow]
@[simp] theorem State.recordRepair_kept (k : K4) (s : State) (a1) (a2) (h : Kept k s.k4) : Kept k (State.recordRepair s a1 a2).k4 := by
  exact h.trans ⟨rfl, id, id, id, fun x => ⟨x, Nat.le_refl _⟩, id⟩
@[simp] theorem State.repairRow_kept (k : K4) (s : State) (a1) (a2) (h : Kept k s.k4) : Kept k (State.repairRow s a1 a2).k4 := by
  unfold State.repairRow; simp only []
  split
  · exact h
  · apply State.recordRepair_kept
    simp only [State.coreEvent_k4]
    split
    · simp only [State.coreEvent_k4, State.modCore_k4, k4_mk]; exact h.setComb _ (writeRow_wf _ _ _)
    · simp only [State.modCore_k4, k4_mk]; exact h.setComb _ (writeRow_wf _ _ _)
@[simp] theorem maintEnd_kept (k : K4) (s : State) (a1) (a2) (h : Kept k s.k4) : Kept k (maintEnd s a1 a2).k4 := by
  (simp only [maintEnd]; (repeat' split)) <;> simp [*]
@[simp] theorem shadowWrite_k4 (s : State) (a1) (a2) : (shadowWrite s a1 a2).k4 = s.k4 := by
  simp [shadowWrite]
@[simp] theorem copyGo_k4 (s : State) (a1) (a2) : (copyGo s a1 a2).k4 = s.k4 := by
  simp [copyGo]
@[simp] theorem copyEnd_k4 (s : State) (a1) (a2) : (copyEnd s a1 a2).k4 = s.k4 := by
  simp only [copyEnd]; (repeat' first
      | rfl
      | assumption
      | (with_reducible refine (k4_foldl _ _ _ ?_).trans ?_)
      | (with_reducible refine (k4_foldl_fst _ _ _ ?_).trans ?_)
      | (simp [*]; done)
      | intro _
      | split
      | (simp only [Prod.ext_iff] at *; repeat (rename _ ∧ _ => hh; obtain ⟨h1, h2⟩ := hh); subst_vars; simp [*]; done)
      | (simp_all; done)); done
@[simp] theorem State.send_k4 (s : State) (a1) : (State.send s a1).k4 = s.k4 := by
  rfl
@[simp] theorem State.msix_k4 (s : State) (a1) : (State.msix s a1).k4 = s.k4 := by
  simp [State.msix]
@[simp] theorem State.setHrows_k4 (s : State) (a1) (a2) : (State.setHrows s a1 a2).k4 = s.k4 := by
  rfl
@[simp] theorem State.issueHost_k4 (s : State) (a1) (a2) : (State.issueHost s a1 a2).k4 = s.k4 := by
  simp only [State.issueHost]
  repeat' first
    | (with_reducible refine (k4_foldl _ _ _ ?_).trans ?_)
    | (with_reducible refine (k4_foldl_fst _ _ _ ?_).trans ?_)
    | intro _
    | split
  all_goals first
    | (simp [*]; done)
    | (simp only [Prod.ext_iff] at *; repeat (rename _ ∧ _ => hh; obtain ⟨h1, h2⟩ := hh); subst_vars; simp [*]; done)
    | rfl

@[simp] theorem foragerEnd_k4 (s : State) (a1) (a2) : (foragerEnd s a1 a2).k4 = s.k4 := by
  simp [foragerEnd]
@[simp] theorem hostEnd_k4 (s : State) (a1) (a2) : (hostEnd s a1 a2).k4 = s.k4 := by
  simp [hostEnd]
@[simp] theorem renameEnd_k4 (a0) (a1) (a2) (a3) (s : State) : (renameEnd a0 a1 a2 a3 s).k4 = s.k4 := by
  (simp only [renameEnd]; (repeat' split)) <;> simp [*]
@[simp] theorem renamesEnd_k4 (s : State) (a1) (a2) : (renamesEnd s a1 a2).k4 = s.k4 := by
  unfold renamesEnd
  exact k4_foldl _ _ _ (fun a n => k4_foldl _ _ _ (fun b t => renameEnd_k4 _ _ _ _ _))
@[simp] theorem sendRead_k4 (a0) (a1) (s : State) (a3) : (sendRead a0 a1 s a3).k4 = s.k4 := by
  simp only [sendRead]; (repeat' first
      | rfl
      | assumption
      | (with_reducible refine (k4_foldl _ _ _ ?_).trans ?_)
      | (with_reducible refine (k4_foldl_fst _ _ _ ?_).trans ?_)
      | (simp [*]; done)
      | intro _
      | split
      | (simp only [Prod.ext_iff] at *; repeat (rename _ ∧ _ => hh; obtain ⟨h1, h2⟩ := hh); subst_vars; simp [*]; done)
      | (simp_all; done)); done
@[simp] theorem budgetEnd_k4 (s : State) (a1) (a2) : (budgetEnd s a1 a2).k4 = s.k4 := by
  (simp only [budgetEnd]; (repeat' split)) <;> simp [*]
@[simp] theorem State.endCycle_kept (k : K4) (s : State) (a1) (a2) (h : Kept k s.k4) : Kept k (State.endCycle s a1 a2).k4 := by
  unfold State.endCycle
  simp only [State.modCore_k4, renamesEnd_k4]
  apply epEnd_kept; apply svuEnd_kept; rw [mvpEnd_k4]; apply moveWrite_kept
  rw [k4_foldl _ _ _ (fun a x => gangEnd_k4 _ _ _ _)]
  apply maintEnd_kept; simp [h]
@[simp] theorem lossCycle_k4 (s : State) (a1) : (lossCycle s a1).k4 = s.k4 := by
  unfold lossCycle
  refine k4_foldl _ _ _ (fun a n => ?_)
  simp only []
  split
  · split
    · simp
    · rfl
  · split
    · simp
    · rfl
  · rfl
@[simp] theorem State.startCycle_kept (k : K4) (s : State) (a1) (a2) (h : Kept k s.k4) : Kept k (State.startCycle s a1 a2).k4 := by
  simp [State.startCycle, h]
@[simp] theorem State.unitCycle_kept (k : K4) (s : State) (a1) (a2) (h : Kept k s.k4) : Kept k (State.unitCycle s a1 a2).k4 := by
  simp [State.unitCycle, h]
@[simp] theorem State.runCore_kept (k : K4) (old s : State) (a2) (h : Kept k s.k4) : Kept k (State.runCore old s a2).k4 := by
  unfold State.runCore
  exact Kept.foldl _ _ _ _ (fun a x ha => State.unitCycle_kept _ _ _ _ ha) h
@[simp] theorem State.runFabric_k4 (old s : State) (a2) : (State.runFabric old s a2).k4 = s.k4 := by
  unfold State.runFabric
  exact k4_foldl _ _ _ (fun a x => State.fabricCycle_k4 _ _ _)
@[simp] theorem State.runEdges_kept (k : K4) (old s : State) (h : Kept k s.k4) : Kept k (State.runEdges old s).k4 := by
  unfold State.runEdges
  rw [k4_foldl _ _ _ (fun a x => State.runFabric_k4 _ _ _)]
  exact Kept.foldl _ _ _ _ (fun a x ha => State.runCore_kept _ _ _ _ ha) h
@[simp] theorem State.runTo_kept (k : K4) (a0) (a1) (s : State) (h : Kept k s.k4) : Kept k (State.runTo a0 a1 s).k4 := by
  induction a1 generalizing s with
  | zero => simp [State.runTo, h]
  | succ n ih =>
    unfold State.runTo; split
    · exact h
    · exact ih _ (State.runEdges_kept _ _ _ (by simp [h]))
@[simp] theorem State.toCt_kept (k : K4) (s : State) (a1) (h : Kept k s.k4) : Kept k (State.toCt s a1).k4 := by
  simp [State.toCt, h]
@[simp] theorem State.tickTo_kept (k : K4) (a0) (a1) (a2) (s : State) (h : Kept k s.k4) : Kept k (State.tickTo a0 a1 a2 s).k4 := by
  induction a2 generalizing s with
  | zero => exact h
  | succ n ih =>
    unfold State.tickTo; split
    · exact h
    · exact ih _ (by simp [h])
@[simp] theorem State.toCyc_kept (k : K4) (s : State) (a1) (a2) (h : Kept k s.k4) : Kept k (State.toCyc s a1 a2).k4 := by
  simp [State.toCyc, h]
@[simp] theorem State.toRoot_kept (k : K4) (s : State) (a1) (h : Kept k s.k4) : Kept k (State.toRoot s a1).k4 := by
  simp [State.toRoot, h]
@[simp] theorem State.await_kept (k : K4) (a0) (a1) (a2) (s : State) (h : Kept k s.k4) : Kept k (State.await a0 a1 a2 s).k4 := by
  induction a2 generalizing s with
  | zero => exact h
  | succ n ih =>
    unfold State.await; split
    · exact h
    · exact ih _ (by simp [h])
@[simp] theorem State.landed_kept (k : K4) (s : State) (a1) (a2) (h : Kept k s.k4) : Kept k (State.landed s a1 a2).1.k4 := by
  unfold State.landed; simp only []
  generalize hu : State.await a1 _ _ _ = u
  have h' : Kept k u.k4 := by rw [← hu]; exact State.await_kept _ _ _ _ _ (by simp [h])
  split
  · simp [h']
  · exact h'
@[simp] theorem State.dropFlight_k4 (s : State) (a1) : (State.dropFlight s a1).k4 = s.k4 := by
  rfl
@[simp] theorem State.ctlLanded_kept (k : K4) (s : State) (a1) (a2) (h : Kept k s.k4) : Kept k (State.ctlLanded s a1 a2).1.k4 := by
  unfold State.ctlLanded; simp only []
  generalize hu : State.await a1 _ _ _ = u
  have h' : Kept k u.k4 := by rw [← hu]; exact State.await_kept _ _ _ _ _ (by simp [h])
  split
  · simp [h']
  · exact h'
@[simp] theorem remoteArrival_kept (k : K4) (s : State) (a1) (a2) (h : Kept k s.k4) : Kept k (remoteArrival s a1 a2).k4 := by
  simp only [remoteArrival]; (repeat' first
      | rfl
      | assumption
      | (with_reducible refine Kept.foldl _ _ _ _ ?_ ?_)
      | (with_reducible refine Kept.foldl_fst _ _ _ _ ?_ ?_)
      | (simp [*]; done)
      | intro _
      | split
      | (simp only [Prod.ext_iff] at *; repeat (rename _ ∧ _ => hh; obtain ⟨h1, h2⟩ := hh); subst_vars; simp [*]; done)
      | (simp_all; done)); done
@[simp] theorem remoteApply_kept (k : K4) (s : State) (a1) (h : Kept k s.k4) : Kept k (remoteApply s a1).k4 := by
  (simp only [remoteApply]; (repeat' split)) <;> simp [*]
@[simp] theorem sequencerApply_kept (k : K4) (s : State) (a1) (h : Kept k s.k4) : Kept k (sequencerApply s a1).k4 := by
  simp [sequencerApply, h]
@[simp] theorem State.sideTake_kept (k : K4) (s : State) (a1) (a2) (h : Kept k s.k4) : Kept k (State.sideTake s a1 a2).k4 := by
  simp [State.sideTake, h]
@[simp] theorem State.sideRead_kept (k : K4) (s : State) (a1) (a2) (h : Kept k s.k4) : Kept k (State.sideRead s a1 a2).1.k4 := by
  simp only [State.sideRead]
  repeat' first
    | (with_reducible refine Kept.foldl _ _ _ _ ?_ ?_)
    | (with_reducible refine Kept.foldl_fst _ _ _ _ ?_ ?_)
    | intro _
    | split
  all_goals first
    | (simp [*]; done)
    | (simp only [Prod.ext_iff] at *; repeat (rename _ ∧ _ => hh; obtain ⟨h1, h2⟩ := hh); subst_vars; simp [*]; done)
    | rfl

@[simp] theorem State.sideWrite_kept (k : K4) (s : State) (a1) (a2) (a3) (a4) (a5) (h : Kept k s.k4) : Kept k (State.sideWrite s a1 a2 a3 a4 a5).1.k4 := by
  unfold State.sideWrite; simp only []
  generalize hb : State.sideTake _ _ _ = u
  have hu : Kept k u.k4 := by rw [← hb]; simp [h]
  split
  · exact hu
  · split
    · simp [hu]
    · split
      · rename_i h1; rw [fst_k4 h1]; simp [hu]
      · rename_i h1; simp [fst_k4 h1, hu]
@[simp] theorem rowRewrite_kept (k : K4) (s : State) (a1) (h : Kept k s.k4) : Kept k (rowRewrite s a1).k4 := by
  (simp only [rowRewrite]; (repeat' split)) <;> simp [*]
@[simp] theorem scrubStep_kept (k : K4) (s : State) (a1) (h : Kept k s.k4) : Kept k (scrubStep s a1).k4 := by
  simp [scrubStep, h]
@[simp] theorem repairDone_kept (k : K4) (s : State) (a1) (h : Kept k s.k4) : Kept k (repairDone s a1).k4 := by
  unfold repairDone; split
  · exact h
  · exact State.await_kept _ _ _ _ _ h
@[simp] theorem copyRow_kept (k : K4) (s : State) (a1) (h : Kept k s.k4) : Kept k (copyRow s a1).k4 := by
  unfold copyRow; split
  · exact h
  · exact State.await_kept _ _ _ _ _ h
@[simp] theorem copyDone_k4 (s : State) (a1) : (copyDone s a1).k4 = s.k4 := by
  (simp only [copyDone]; (repeat' split)) <;> simp [*]
@[simp] theorem State.through_kept (k : K4) (s : State) (a1) (a2) (h : Kept k s.k4) : Kept k (State.through s a1 a2).k4 := by
  simp [State.through, h]
@[simp] theorem passStart_kept (k : K4) (s : State) (a1) (a2) (h : Kept k s.k4) : Kept k (passStart s a1 a2).k4 := by
  (simp only [passStart]; (repeat' split)) <;> simp [*]
@[simp] theorem passBlock_kept (k : K4) (s : State) (a1) (a2) (h : Kept k s.k4) : Kept k (passBlock s a1 a2).k4 := by
  (simp only [passBlock]; (repeat' split)) <;> simp [*]
@[simp] theorem passResume_kept (k : K4) (s : State) (a1) (a2) (h : Kept k s.k4) : Kept k (passResume s a1 a2).k4 := by
  (simp only [passResume]; (repeat' split)) <;> simp [*]
@[simp] theorem passSwap_kept (k : K4) (s : State) (a1) (a2) (h : Kept k s.k4) : Kept k (passSwap s a1 a2).k4 := by
  (simp only [passSwap]; (repeat' split)) <;> simp [*]
@[simp] theorem passDrain_kept (k : K4) (s : State) (a1) (a2) (h : Kept k s.k4) : Kept k (passDrain s a1 a2).k4 := by
  (simp only [passDrain]; (repeat' split)) <;> simp [*]
@[simp] theorem tileMoveDone_kept (k : K4) (s : State) (a1) (h : Kept k s.k4) : Kept k (tileMoveDone s a1).k4 := by
  (simp only [tileMoveDone]; (repeat' split)) <;> simp [*]
@[simp] theorem mvLoadDone_kept (k : K4) (s : State) (a1) (h : Kept k s.k4) : Kept k (mvLoadDone s a1).k4 := by
  (simp only [mvLoadDone]; (repeat' split)) <;> simp [*]
@[simp] theorem mvBlock_kept (k : K4) (s : State) (a1) (h : Kept k s.k4) : Kept k (mvBlock s a1).k4 := by
  (simp only [mvBlock]; (repeat' split)) <;> simp [*]
@[simp] theorem mvPassDone_kept (k : K4) (s : State) (a1) (h : Kept k s.k4) : Kept k (mvPassDone s a1).k4 := by
  (simp only [mvPassDone]; (repeat' split)) <;> simp [*]
@[simp] theorem mvpClearDone_kept (k : K4) (s : State) (a1) (h : Kept k s.k4) : Kept k (mvpClearDone s a1).k4 := by
  (simp only [mvpClearDone]; (repeat' split)) <;> simp [*]
@[simp] theorem svuRun_kept (k : K4) (s : State) (a1) (a2) (h : Kept k s.k4) : Kept k (svuRun s a1 a2).k4 := by
  (simp only [svuRun]; (repeat' split)) <;> simp [*]
@[simp] theorem svuDone_kept (k : K4) (s : State) (a1) (h : Kept k s.k4) : Kept k (svuDone s a1).k4 := by
  (simp only [svuDone]; (repeat' split)) <;> simp [*]
@[simp] theorem epDone_kept (k : K4) (s : State) (a1) (h : Kept k s.k4) : Kept k (epDone s a1).k4 := by
  (simp only [epDone]; (repeat' split)) <;> simp [*]
@[simp] theorem putIssue_k4 (a0) (a1) (a2) (s : State) : (putIssue a0 a1 a2 s).k4 = s.k4 := by
  rfl
@[simp] theorem getIssue_k4 (a0) (s : State) : (getIssue a0 s).k4 = s.k4 := by
  rfl
@[simp] theorem State.xferDone_k4 (s : State) (a1) (a2) (a3) : (State.xferDone s a1 a2 a3).k4 = s.k4 := by
  simp [State.xferDone]
@[simp] theorem State.ctlArrives_kept (k : K4) (s : State) (a1) (a2) (h : Kept k s.k4) : Kept k (State.ctlArrives s a1 a2).1.k4 := by
  simp only [State.ctlArrives]; (repeat' first
      | rfl
      | assumption
      | (with_reducible refine Kept.foldl _ _ _ _ ?_ ?_)
      | (with_reducible refine Kept.foldl_fst _ _ _ _ ?_ ?_)
      | (simp [*]; done)
      | intro _
      | split
      | (simp only [Prod.ext_iff] at *; repeat (rename _ ∧ _ => hh; obtain ⟨h1, h2⟩ := hh); subst_vars; simp [*]; done)
      | (simp_all; done)); done
@[simp] theorem statusArrival_kept (k : K4) (s : State) (a1) (a2) (h : Kept k s.k4) : Kept k (statusArrival s a1 a2).k4 := by
  simp only [statusArrival]; (repeat' first
      | rfl
      | assumption
      | (with_reducible refine Kept.foldl _ _ _ _ ?_ ?_)
      | (with_reducible refine Kept.foldl_fst _ _ _ _ ?_ ?_)
      | (simp [*]; done)
      | intro _
      | split
      | (simp only [Prod.ext_iff] at *; repeat (rename _ ∧ _ => hh; obtain ⟨h1, h2⟩ := hh); subst_vars; simp [*]; done)
      | (simp_all; done)); done
@[simp] theorem xferStatusArrival_kept (k : K4) (s : State) (a1) (a2) (h : Kept k s.k4) : Kept k (xferStatusArrival s a1 a2).k4 := by
  simp [xferStatusArrival, h]
@[simp] theorem sendStatusArrival_kept (k : K4) (s : State) (a1) (a2) (h : Kept k s.k4) : Kept k (sendStatusArrival s a1 a2).k4 := by
  simp [sendStatusArrival, h]
@[simp] theorem xferLost_kept (k : K4) (s : State) (a1) (a2) (a3) (h : Kept k s.k4) : Kept k (xferLost s a1 a2 a3).k4 := by
  (simp only [xferLost]; (repeat' split)) <;> simp [*]
@[simp] theorem getRowReturn_kept (k : K4) (s : State) (a1) (a2) (h : Kept k s.k4) : Kept k (getRowReturn s a1 a2).k4 := by
  simp only [getRowReturn]; (repeat' first
      | rfl
      | assumption
      | (with_reducible refine Kept.foldl _ _ _ _ ?_ ?_)
      | (with_reducible refine Kept.foldl_fst _ _ _ _ ?_ ?_)
      | (simp [*]; done)
      | intro _
      | split
      | (simp only [Prod.ext_iff] at *; repeat (rename _ ∧ _ => hh; obtain ⟨h1, h2⟩ := hh); subst_vars; simp [*]; done)
      | (simp_all; done)); done
@[simp] theorem recordDiscard_kept (k : K4) (s : State) (a1) (a2) (h : Kept k s.k4) : Kept k (recordDiscard s a1 a2).k4 := by
  (simp only [recordDiscard]; (repeat' split)) <;> simp [*]
@[simp] theorem State.signal_k4 (s : State) (a1) (a2) (a3) (a4) : (State.signal s a1 a2 a3 a4).k4 = s.k4 := by
  simp [State.signal]
@[simp] theorem signalArrival_kept (k : K4) (s : State) (a1) (a2) (h : Kept k s.k4) : Kept k (signalArrival s a1 a2).k4 := by
  simp only [signalArrival]; (repeat' first
      | rfl
      | assumption
      | (with_reducible refine Kept.foldl _ _ _ _ ?_ ?_)
      | (with_reducible refine Kept.foldl_fst _ _ _ _ ?_ ?_)
      | (simp [*]; done)
      | intro _
      | split
      | (simp only [Prod.ext_iff] at *; repeat (rename _ ∧ _ => hh; obtain ⟨h1, h2⟩ := hh); subst_vars; simp [*]; done)
      | (simp_all; done)); done
@[simp] theorem flagownWrite_k4 (s : State) (a1) (a2) (a3) : (flagownWrite s a1 a2 a3).k4 = s.k4 := by
  simp [flagownWrite]
@[simp] theorem wqownWrite_k4 (s : State) (a1) (a2) : (wqownWrite s a1 a2).k4 = s.k4 := by
  simp [wqownWrite]
@[simp] theorem bindWrite_k4 (s : State) (a1) (a2) (a3) (a4) : (bindWrite s a1 a2 a3 a4).k4 = s.k4 := by
  simp [bindWrite]
@[simp] theorem State.judgeMsg_k4 (s : State) (a1) (a2) (a3) (a4) (a5) (a6) (a7) : (State.judgeMsg s a1 a2 a3 a4 a5 a6 a7).k4 = s.k4 := by
  simp [State.judgeMsg]
@[simp] theorem waggleJudge_kept (k : K4) (s : State) (a1) (a2) (h : Kept k s.k4) : Kept k (waggleJudge s a1 a2).k4 := by
  simp only [waggleJudge]; (repeat' first
      | rfl
      | assumption
      | (with_reducible refine Kept.foldl _ _ _ _ ?_ ?_)
      | (with_reducible refine Kept.foldl_fst _ _ _ _ ?_ ?_)
      | (simp [*]; done)
      | intro _
      | split
      | (simp only [Prod.ext_iff] at *; repeat (rename _ ∧ _ => hh; obtain ⟨h1, h2⟩ := hh); subst_vars; simp [*]; done)
      | (simp_all; done)); done
@[simp] theorem State.touchCheck_k4 (s : State) (a1) (a2) (a3) : (State.touchCheck s a1 a2 a3).k4 = s.k4 := by
  rfl
@[simp] theorem checkFlush_kept (k : K4) (s : State) (a1) (h : Kept k s.k4) : Kept k (checkFlush s a1).k4 := by
  simp [checkFlush, h]
@[simp] theorem State.cellErr_k4 (s : State) (a1) (a2) (a3) (a4) (a5) : (State.cellErr s a1 a2 a3 a4 a5).k4 = s.k4 := by
  rfl
@[simp] theorem State.readBurst_k4 (s : State) (a1) (a2) : (State.readBurst s a1 a2).1.k4 = s.k4 := by
  (simp only [State.readBurst]; (repeat' split)) <;> simp [*]
@[simp] theorem State.writeBurst_kept (k : K4) (s : State) (a1) (a2) (a3) (a4) (a5) (h : Kept k s.k4) : Kept k (State.writeBurst s a1 a2 a3 a4 a5).k4 := by
  unfold State.writeBurst
  simp only []
  generalize hu : s.touchCheck _ _ _ = u
  have h' : Kept k u.k4 := by rw [← hu]; simp [h]
  simp only [k4_mk]
  exact h'.setCellar _ (writeLE_wf _ _ _ _)
@[simp] theorem State.readCellar_k4 (s : State) (a1) (a2) : (State.readCellar s a1 a2).1.k4 = s.k4 := by
  simp only [State.readCellar]
  repeat' first
    | (with_reducible refine (k4_foldl _ _ _ ?_).trans ?_)
    | (with_reducible refine (k4_foldl_fst _ _ _ ?_).trans ?_)
    | intro _
    | split
  all_goals first
    | (simp [*]; done)
    | (simp only [Prod.ext_iff] at *; repeat (rename _ ∧ _ => hh; obtain ⟨h1, h2⟩ := hh); subst_vars; simp [*]; done)
    | rfl

@[simp] theorem State.writeCellar_kept (k : K4) (s : State) (a1) (a2) (a3) (h : Kept k s.k4) : Kept k (State.writeCellar s a1 a2 a3).k4 := by
  unfold State.writeCellar
  simp only []
  generalize hu : List.foldl _ _ _ = u
  have h' : Kept k u.k4 := by
    rw [← hu]; exact Kept.foldl _ _ _ _ (fun a e ha => by simp [ha]) h
  simp only [k4_mk]
  exact h'.setCellar _ (writeRow_wf _ _ _)
theorem k4_linkBad (s : State) (l : List Nat) (n : Nat) : State.k4 { s with linkBad := l, free := n } = s.k4 := rfl
@[simp] theorem linkReread_k4 (s : State) (a1) (a2) (a3) : (linkReread s a1 a2 a3).k4 = s.k4 := by
  unfold linkReread; split
  · simp
  · simp only []; rw [k4_linkBad]; simp
@[simp] theorem State.refreshOne_k4 (s : State) (a1) (a2) : (State.refreshOne s a1 a2).k4 = s.k4 := by
  rfl
@[simp] theorem State.refreshPast_k4 (s : State) (a1) : (State.refreshPast s a1).k4 = s.k4 := by
  simp [State.refreshPast]
@[simp] theorem bankRefresh_kept (k : K4) (s : State) (a1) (a2) (h : Kept k s.k4) : Kept k (bankRefresh s a1 a2).k4 := by
  simp [bankRefresh, h]
@[simp] theorem State.refreshDev_k4 (s : State) (a1) : (State.refreshDev s a1).k4 = s.k4 := by
  simp [State.refreshDev]
@[simp] theorem State.refreshAnew_k4 (s : State) (a1) : (State.refreshAnew s a1).k4 = s.k4 := by
  rfl
@[simp] theorem State.mr4Plan_k4 (s : State) (a1) (a2) (a3) (a4) : (State.mr4Plan s a1 a2 a3 a4).k4 = s.k4 := by
  simp [State.mr4Plan]
@[simp] theorem mr4Poll_kept (k : K4) (s : State) (a1) (a2) (a3) (a4) (h : Kept k s.k4) : Kept k (mr4Poll s a1 a2 a3 a4).k4 := by
  simp [mr4Poll, h]
@[simp] theorem patternChange_kept (k : K4) (s : State) (a1) (h : Kept k s.k4) : Kept k (patternChange s a1).k4 := by
  (simp only [patternChange]; (repeat' split)) <;> simp [*]
@[simp] theorem wckTrack_kept (k : K4) (s : State) (a1) (a2) (a3) (h : Kept k s.k4) : Kept k (wckTrack s a1 a2 a3).k4 := by
  (simp only [wckTrack]; (repeat' split)) <;> simp [*]
@[simp] theorem shareWrite_k4 (s : State) (a1) : (shareWrite s a1).k4 = s.k4 := by
  simp [shareWrite]
@[simp] theorem shareChange_kept (k : K4) (s : State) (h : Kept k s.k4) : Kept k (shareChange s).k4 := by
  (simp only [shareChange]; (repeat' split)) <;> simp [*]
@[simp] theorem retrainWrite_k4 (s : State) (a1) : (retrainWrite s a1).k4 = s.k4 := by
  simp [retrainWrite]
@[simp] theorem retrainBegin_k4 (s : State) (a1) : (retrainBegin s a1).k4 = s.k4 := by
  simp [retrainBegin]
@[simp] theorem retrainEnd_k4 (s : State) (a1) : (retrainEnd s a1).k4 = s.k4 := by
  simp [retrainEnd]
@[simp] theorem pprWrite_k4 (s : State) (a1) : (pprWrite s a1).k4 = s.k4 := by
  simp [pprWrite]
@[simp] theorem pprBegin_k4 (s : State) : (pprBegin s).k4 = s.k4 := by
  (simp only [pprBegin]; (repeat' split)) <;> simp [*]
@[simp] theorem pprEnd_k4 (s : State) : (pprEnd s).k4 = s.k4 := by
  (simp only [pprEnd]; (repeat' split)) <;> simp [*]
@[simp] theorem State.cellRead_k4 (s : State) (a1) (a2) : (State.cellRead s a1 a2).1.k4 = s.k4 := by
  simp [State.cellRead]
@[simp] theorem State.cellWrite_kept (k : K4) (s : State) (a1) (a2) (a3) (h : Kept k s.k4) : Kept k (State.cellWrite s a1 a2 a3).1.k4 := by
  (simp only [State.cellWrite]; (repeat' split)) <;> simp [*]
@[simp] theorem State.haltAt_k4 (s : State) (a1) (a2) (a3) (a4) (a5) (a6) (a7) (a8) (a9) (a10) : (State.haltAt s a1 a2 a3 a4 a5 a6 a7 a8 a9 a10).k4 = s.k4 := by
  simp [State.haltAt]
@[simp] theorem State.hostError_k4 (s : State) (a1) (a2) : (State.hostError s a1 a2).k4 = s.k4 := by
  (simp only [State.hostError]; (repeat' split)) <;> simp [*]
@[simp] theorem State.unhalt_k4 (s : State) (a1) : (State.unhalt s a1).k4 = s.k4 := by
  rfl
@[simp] theorem State.freeHalt_k4 (s : State) (a1) : (State.freeHalt s a1).k4 = s.k4 := by
  simp [State.freeHalt]
@[simp] theorem State.freeHalts_k4 (s : State) (a1) : (State.freeHalts s a1).k4 = s.k4 := by
  simp [State.freeHalts]
@[simp] theorem hostLine_k4 (s : State) (a1) (a2) (a3) (a4) : (hostLine s a1 a2 a3 a4).k4 = s.k4 := by
  (simp only [hostLine]; (repeat' split)) <;> simp [*]
@[simp] theorem hostTimeout_kept (k : K4) (s : State) (a1) (a2) (h : Kept k s.k4) : Kept k (hostTimeout s a1 a2).k4 := by
  (simp only [hostTimeout]; (repeat' split)) <;> simp [*]
@[simp] theorem State.hostErrors_k4 (s : State) : (State.hostErrors s).k4 = s.k4 := by
  simp only [State.hostErrors]
  repeat' first
    | (with_reducible refine (k4_foldl _ _ _ ?_).trans ?_)
    | (with_reducible refine (k4_foldl_fst _ _ _ ?_).trans ?_)
    | intro _
    | split
  all_goals first
    | (simp [*]; done)
    | (simp only [Prod.ext_iff] at *; repeat (rename _ ∧ _ => hh; obtain ⟨h1, h2⟩ := hh); subst_vars; simp [*]; done)
    | rfl

@[simp] theorem hchBindWrite_k4 (s : State) (a1) (a2) : (hchBindWrite s a1 a2).k4 = s.k4 := by
  simp [hchBindWrite]
@[simp] theorem httsync_k4 (s : State) : (httsync s).k4 = s.k4 := by
  rfl
@[simp] theorem httsyncDone_k4 (s : State) : (httsyncDone s).k4 = s.k4 := by
  simp [httsyncDone]
@[simp] theorem dbell_k4 (s : State) (a1) (a2) : (dbell s a1 a2).k4 = s.k4 := by
  simp [dbell]
@[simp] theorem State.streamFault_k4 (s : State) (a1) (a2) (a3) (a4) : (State.streamFault s a1 a2 a3 a4).k4 = s.k4 := by
  simp [State.streamFault]
@[simp] theorem programRead_kept (k : K4) (s : State) (a1) (a2) (h : Kept k s.k4) : Kept k (programRead s a1 a2).k4 := by
  unfold programRead; simp only []
  split
  · exact h
  · split
    · exact h
    · generalize hb : State.await a1 _ _ _ = u
      have hu : Kept k u.k4 := by rw [← hb]; exact State.await_kept _ _ _ _ _ (by simp [h])
      split
      · exact hu
      · split
        · simp [hu]
        · split
          · rename_i h1; simp [fst_k4 h1, hu]
          · rename_i h1
            split
            · simp [fst_k4 h1, hu]
            · simp [fst_k4 h1, hu]
@[simp] theorem State.holdStream_k4 (s : State) (a1) (a2) (a3) : (State.holdStream s a1 a2 a3).k4 = s.k4 := by
  rfl
@[simp] theorem State.grantHomeRead_k4 (s : State) (a1) (a2) (a3) (a4) (a5) : (State.grantHomeRead s a1 a2 a3 a4 a5).k4 = s.k4 := by
  simp only [State.grantHomeRead]
  repeat' first
    | (with_reducible refine (k4_foldl _ _ _ ?_).trans ?_)
    | (with_reducible refine (k4_foldl_fst _ _ _ ?_).trans ?_)
    | intro _
    | split
  all_goals first
    | (simp [*]; done)
    | (simp only [Prod.ext_iff] at *; repeat (rename _ ∧ _ => hh; obtain ⟨h1, h2⟩ := hh); subst_vars; simp [*]; done)
    | rfl

@[simp] theorem State.rowGiven_k4 (s : State) (a1) (a2) (a3) : (State.rowGiven s a1 a2 a3).k4 = s.k4 := by
  (simp only [State.rowGiven]; (repeat' split)) <;> simp [*]
@[simp] theorem rowGrant_kept (k : K4) (s : State) (a1) (a2) (h : Kept k s.k4) : Kept k (rowGrant s a1 a2).k4 := by
  simp only [rowGrant]
  repeat' first
    | (with_reducible refine Kept.foldl _ _ _ _ ?_ ?_)
    | (with_reducible refine Kept.foldl_fst _ _ _ _ ?_ ?_)
    | intro _
    | split
  all_goals first
    | (simp [*]; done)
    | (simp only [Prod.ext_iff] at *; repeat (rename _ ∧ _ => hh; obtain ⟨h1, h2⟩ := hh); subst_vars; simp [*]; done)
    | rfl

@[simp] theorem fwaitGrant_kept (k : K4) (s : State) (a1) (a2) (h : Kept k s.k4) : Kept k (fwaitGrant s a1 a2).k4 := by
  (simp only [fwaitGrant]; (repeat' split)) <;> simp [*]
@[simp] theorem signalGrant_kept (k : K4) (s : State) (a1) (a2) (h : Kept k s.k4) : Kept k (signalGrant s a1 a2).k4 := by
  (simp only [signalGrant]; (repeat' split)) <;> simp [*]
@[simp] theorem State.landRow_k4 (s : State) (a1) (a2) (a3) (a4) : (State.landRow s a1 a2 a3 a4).k4 = s.k4 := by
  unfold State.landRow; split
  rename_i h1; simp [fst_k4 h1]
@[simp] theorem State.serveFirst_k4 (s : State) (l) (serve : State → Nat × Nat × Nat × Nat → State) (hs : ∀ a x, (serve a x).k4 = a.k4) : (s.serveFirst l serve).k4 = s.k4 := by
  unfold State.serveFirst
  refine k4_foldl _ _ _ (fun a x => ?_)
  split
  · exact hs _ _
  · rfl
@[simp] theorem State.serveFirst_kept (k : K4) (s : State) (l) (serve : State → Nat × Nat × Nat × Nat → State) (h : Kept k s.k4) (hs : ∀ a x, Kept k a.k4 → Kept k (serve a x).k4) : Kept k (s.serveFirst l serve).k4 := by
  unfold State.serveFirst
  refine Kept.foldl _ _ _ _ (fun a x ha => ?_) h
  split
  · exact hs _ _ ha
  · exact ha
@[simp] theorem cellarLand_kept (k : K4) (s : State) (a1) (a2) (a3) (h : Kept k s.k4) : Kept k (cellarLand s a1 a2 a3).k4 := by
  (simp only [cellarLand]; (repeat' split)) <;> simp [*]
@[simp] theorem queueDelivery_k4 (s : State) (a1) (a2) : (queueDelivery s a1 a2).k4 = s.k4 := by
  (simp only [queueDelivery]; (repeat' split)) <;> simp [*]
@[simp] theorem foragerWrite_kept (k : K4) (s : State) (a1) (h : Kept k s.k4) : Kept k (foragerWrite s a1).k4 := by
  (simp only [foragerWrite]; (repeat' split)) <;> simp [*]
@[simp] theorem State.commitRow_kept (k : K4) (s : State) (a1) (a2) (a3) (h : Kept k s.k4) : Kept k (State.commitRow s a1 a2 a3).k4 := by
  (simp only [State.commitRow]; (repeat' split)) <;> simp [*]
@[simp] theorem queueCommit_kept (k : K4) (s : State) (a1) (a2) (a3) (h : Kept k s.k4) : Kept k (queueCommit s a1 a2 a3).k4 := by
  unfold queueCommit; simp only []
  split
  · exact h
  · split
    · split
      · simp [h]
      · exact State.commitRow_kept _ _ _ _ _ (State.serveFirst_kept _ _ _ _ (by simp [h]) (fun a x ha => State.commitRow_kept _ _ _ _ _ ha))
    · split
      · simp [h]
      · simp [h]
@[simp] theorem streamEnd_kept (k : K4) (s : State) (a1) (a2) (h : Kept k s.k4) : Kept k (streamEnd s a1 a2).k4 := by
  (simp only [streamEnd]; (repeat' split)) <;> simp [*]
@[simp] theorem streamHalt_kept (k : K4) (s : State) (a1) (a2) (a3) (h : Kept k s.k4) : Kept k (streamHalt s a1 a2 a3).k4 := by
  (simp only [streamHalt]; (repeat' split)) <;> simp [*]
@[simp] theorem State.cmdRefused_k4 (s : State) (a1) (a2) : (State.cmdRefused s a1 a2).k4 = s.k4 := by
  rfl
@[simp] theorem resumeStream_k4 (s : State) (a1) (a2) : (resumeStream s a1 a2).k4 = s.k4 := by
  (simp only [resumeStream]; (repeat' split)) <;> simp [*]
@[simp] theorem abortStream_k4 (s : State) (a1) (a2) : (abortStream s a1 a2).k4 = s.k4 := by
  (simp only [abortStream]; (repeat' split)) <;> simp [*]
@[simp] theorem State.squash_k4 (s : State) (a1) (a2) (a3) : (State.squash s a1 a2 a3).k4 = s.k4 := by
  simp [State.squash]
@[simp] theorem squashComplete_k4 (s : State) (a1) (a2) (a3) : (squashComplete s a1 a2 a3).k4 = s.k4 := by
  simp [squashComplete]
@[simp] theorem confirmResume_kept (k : K4) (s : State) (a1) (a2) (h : Kept k s.k4) : Kept k (confirmResume s a1 a2).k4 := by
  (simp only [confirmResume]; (repeat' split)) <;> simp [*]
@[simp] theorem confirmComplete_kept (k : K4) (s : State) (a1) (a2) (h : Kept k s.k4) : Kept k (confirmComplete s a1 a2).k4 := by
  (simp only [confirmComplete]; (repeat' split)) <;> simp [*]
@[simp] theorem ehtClear_k4 (s : State) (a1) : (ehtClear s a1).k4 = s.k4 := by
  unfold ehtClear; split <;> rfl
@[simp] theorem contextSwitch_kept (k : K4) (s : State) (a1) (h : Kept k s.k4) : Kept k (contextSwitch s a1).k4 := by
  (simp only [contextSwitch]; (repeat' split)) <;> simp [*]
@[simp] theorem gatedWake_kept (k : K4) (s : State) (a1) (h : Kept k s.k4) : Kept k (gatedWake s a1).k4 := by
  (simp only [gatedWake]; (repeat' split)) <;> simp [*]
@[simp] theorem waitAtReached_kept (k : K4) (s : State) (a1) (a2) (h : Kept k s.k4) : Kept k (waitAtReached s a1 a2).k4 := by
  (simp only [waitAtReached]; (repeat' split)) <;> simp [*]
@[simp] theorem waitMetEvent_kept (k : K4) (s : State) (a1) (a2) (h : Kept k s.k4) : Kept k (waitMetEvent s a1 a2).k4 := by
  (simp only [waitMetEvent]; (repeat' split)) <;> simp [*]
@[simp] theorem icacheMiss_kept (k : K4) (s : State) (a1) (a2) (h : Kept k s.k4) : Kept k (icacheMiss s a1 a2).k4 := by
  first
  | (simp [icacheMiss, h]; done)
  | (simp only [icacheMiss]; (repeat' first
      | rfl
      | assumption
      | (with_reducible refine Kept.foldl _ _ _ _ ?_ ?_)
      | (with_reducible refine Kept.foldl_fst _ _ _ _ ?_ ?_)
      | (simp [*]; done)
      | intro _
      | split
      | (simp only [Prod.ext_iff] at *; repeat (rename _ ∧ _ => hh; obtain ⟨h1, h2⟩ := hh); subst_vars; simp [*]; done)
      | (simp_all; done)); done)
@[simp] theorem State.lineFilled_k4 (s : State) (a1) (a2) : (State.lineFilled s a1 a2).k4 = s.k4 := by
  simp only [State.lineFilled]; (repeat' first
      | rfl
      | assumption
      | (with_reducible refine (k4_foldl _ _ _ ?_).trans ?_)
      | (with_reducible refine (k4_foldl_fst _ _ _ ?_).trans ?_)
      | (simp [*]; done)
      | intro _
      | split
      | (simp only [Prod.ext_iff] at *; repeat (rename _ ∧ _ => hh; obtain ⟨h1, h2⟩ := hh); subst_vars; simp [*]; done)
      | (simp_all; done)); done
@[simp] theorem State.readLine_k4 (s : State) (a1) (a2) : (State.readLine s a1 a2).1.k4 = s.k4 := by
  simp only [State.readLine]
  repeat' first
    | (with_reducible refine (k4_foldl _ _ _ ?_).trans ?_)
    | (with_reducible refine (k4_foldl_fst _ _ _ ?_).trans ?_)
    | intro _
    | split
  all_goals first
    | (simp [*]; done)
    | (simp only [Prod.ext_iff] at *; repeat (rename _ ∧ _ => hh; obtain ⟨h1, h2⟩ := hh); subst_vars; simp [*]; done)
    | rfl

@[simp] theorem icacheFill_kept (k : K4) (s : State) (a1) (a2) (h : Kept k s.k4) : Kept k (icacheFill s a1 a2).k4 := by
  (simp only [icacheFill]; (repeat' split)) <;> simp [*]
@[simp] theorem startCmd_k4 (s : State) (a1) (a2) (a3) : (startCmd s a1 a2 a3).k4 = s.k4 := by
  simp [startCmd]
@[simp] theorem endTask_k4 (s : State) (a1) (a2) : (endTask s a1 a2).k4 = s.k4 := by
  (simp only [endTask]; (repeat' split)) <;> simp [*]
@[simp] theorem goCmd_k4 (s : State) (a1) (a2) : (goCmd s a1 a2).k4 = s.k4 := by
  (simp only [goCmd]; (repeat' split)) <;> simp [*]
@[simp] theorem paramWrite_k4 (s : State) (a1) (a2) (a3) (a4) : (paramWrite s a1 a2 a3 a4).k4 = s.k4 := by
  (simp only [paramWrite]; (repeat' split)) <;> simp [*]
@[simp] theorem State.beginClear_k4 (s : State) (a1) (a2) : (State.beginClear s a1 a2).k4 = s.k4 := by
  simp [State.beginClear]
@[simp] theorem clearBegin_k4 (s : State) (a1) (a2) : (clearBegin s a1 a2).k4 = s.k4 := by
  (simp only [clearBegin]; (repeat' split)) <;> simp [*]
@[simp] theorem clearEnd_kept (k : K4) (s : State) (a1) (a2) (h : Kept k s.k4) : Kept k (clearEnd s a1 a2).k4 := by
  (simp only [clearEnd]; (repeat' split)) <;> simp [*]
@[simp] theorem tileClear_kept (k : K4) (s : State) (a1) (h : Kept k s.k4) : Kept k (tileClear s a1).k4 := by
  (simp only [tileClear]; (repeat' split)) <;> simp [*]
@[simp] theorem tileRushDone_kept (k : K4) (s : State) (a1) (h : Kept k s.k4) : Kept k (tileRushDone s a1).k4 := by
  (simp only [tileRushDone]; (repeat' split)) <;> simp [*]
@[simp] theorem State.overrun_k4 (s : State) (a1) (a2) : (State.overrun s a1 a2).k4 = s.k4 := by
  simp [State.overrun]
@[simp] theorem State.bundleBegin_k4 (s : State) (a1) (a2) (a3) : (State.bundleBegin s a1 a2 a3).k4 = s.k4 := by
  simp [State.bundleBegin]
@[simp] theorem State.bundleEnd_k4 (s : State) (a1) (a2) (a3) (a4) (a5) (a6) : (State.bundleEnd s a1 a2 a3 a4 a5 a6).k4 = s.k4 := by
  simp [State.bundleEnd]
@[simp] theorem State.stallOn_k4 (s : State) (a1) : (State.stallOn s a1).k4 = s.k4 := by
  rfl
@[simp] theorem State.bundleFault_k4 (s : State) (a1) (a2) (a3) : (State.bundleFault s a1 a2 a3).k4 = s.k4 := by
  simp [State.bundleFault]
@[simp] theorem State.enter_k4 (s : State) (a1) (a2) : (State.enter s a1 a2).k4 = s.k4 := by
  rfl
@[simp] theorem pwrCtl_k4 (s : State) (a1) (a2) (a3) : (pwrCtl s a1 a2 a3).k4 = s.k4 := by
  (simp only [pwrCtl]; (repeat' split)) <;> simp [*]
@[simp] theorem entryComplete_kept (k : K4) (s : State) (a1) (h : Kept k s.k4) : Kept k (entryComplete s a1).k4 := by
  (simp only [entryComplete]; (repeat' split)) <;> simp [*]
@[simp] theorem coreWake_k4 (s : State) (a1) (a2) : (coreWake s a1 a2).k4 = s.k4 := by
  (simp only [coreWake]; (repeat' split)) <;> simp [*]
@[simp] theorem timerWake_kept (k : K4) (s : State) (a1) (h : Kept k s.k4) : Kept k (timerWake s a1).k4 := by
  (simp only [timerWake]; (repeat' split)) <;> simp [*]
@[simp] theorem State.countWake_k4 (s : State) (a1) (a2) : (State.countWake s a1 a2).k4 = s.k4 := by
  rfl
@[simp] theorem State.firstEdge_kept (k : K4) (s : State) (a1) (a2) (a3) (h : Kept k s.k4) : Kept k (State.firstEdge s a1 a2 a3).k4 := by
  simp [State.firstEdge, h]
@[simp] theorem wakeReady_kept (k : K4) (s : State) (a1) (h : Kept k s.k4) : Kept k (wakeReady s a1).k4 := by
  (simp only [wakeReady]; (repeat' split)) <;> simp [*]
@[simp] theorem wakeFail_kept (k : K4) (s : State) (a1) (h : Kept k s.k4) : Kept k (wakeFail s a1).k4 := by
  (simp only [wakeFail]; (repeat' split)) <;> simp [*]
@[simp] theorem arrayReady_kept (k : K4) (s : State) (a1) (h : Kept k s.k4) : Kept k (arrayReady s a1).k4 := by
  (simp only [arrayReady]; (repeat' split)) <;> simp [*]
@[simp] theorem capWrite_k4 (s : State) (a1) : (capWrite s a1).k4 = s.k4 := by
  rfl
@[simp] theorem budgetWrite_k4 (s : State) (a1) (a2) : (budgetWrite s a1 a2).k4 = s.k4 := by
  rfl
@[simp] theorem budgetEffect_kept (k : K4) (s : State) (a1) (h : Kept k s.k4) : Kept k (budgetEffect s a1).k4 := by
  simp [budgetEffect, h]
@[simp] theorem budgetWindow_kept (k : K4) (s : State) (a1) (h : Kept k s.k4) : Kept k (budgetWindow s a1).k4 := by
  simp [budgetWindow, h]
theorem k4_averages (s : State) (mo mu : Nat) : State.k4 { s with monOver := mo, monUnder := mu } = s.k4 := rfl
@[simp] theorem powerAverage_kept (k : K4) (s : State) (a1) (h : Kept k s.k4) : Kept k (powerAverage s a1).k4 := by
  unfold powerAverage; simp only []; rw [k4_averages]; simp [h]
@[simp] theorem throttleTrip_k4 (s : State) : (throttleTrip s).k4 = s.k4 := by
  simp [throttleTrip]
@[simp] theorem State.raiseLag_k4 (s : State) (a1) : (State.raiseLag s a1).k4 = s.k4 := by
  simp [State.raiseLag]
@[simp] theorem throttleStart_kept (k : K4) (s : State) (h : Kept k s.k4) : Kept k (throttleStart s).k4 := by
  simp [throttleStart, h]
@[simp] theorem throttleEnd_k4 (s : State) : (throttleEnd s).k4 = s.k4 := by
  simp [throttleEnd]
@[simp] theorem State.regrid_k4 (s : State) (a1) (a2) : (State.regrid s a1 a2).k4 = s.k4 := by
  rfl
@[simp] theorem State.resumeWake_kept (k : K4) (s : State) (a1) (a2) (h : Kept k s.k4) : Kept k (State.resumeWake s a1 a2).k4 := by
  (simp only [State.resumeWake]; (repeat' split)) <;> simp [*]
@[simp] theorem gladeResume_kept (k : K4) (s : State) (h : Kept k s.k4) : Kept k (gladeResume s).k4 := by
  simp only [gladeResume]; (repeat' first
      | rfl
      | assumption
      | (with_reducible refine Kept.foldl _ _ _ _ ?_ ?_)
      | (with_reducible refine Kept.foldl_fst _ _ _ _ ?_ ?_)
      | (simp [*]; done)
      | intro _
      | split
      | (simp only [Prod.ext_iff] at *; repeat (rename _ ∧ _ => hh; obtain ⟨h1, h2⟩ := hh); subst_vars; simp [*]; done)
      | (simp_all; done)); done
@[simp] theorem State.modGlade_k4 (s : State) (a1) (a2) : (State.modGlade s a1 a2).k4 = s.k4 := by
  rfl
@[simp] theorem droopAlarm_k4 (s : State) (a1) (a2) : (droopAlarm s a1 a2).k4 = s.k4 := by
  rfl
@[simp] theorem repayEdge_kept (k : K4) (s : State) (a1) (h : Kept k s.k4) : Kept k (repayEdge s a1).k4 := by
  simp [repayEdge, h]
@[simp] theorem lagRaise_k4 (s : State) (a1) : (lagRaise s a1).k4 = s.k4 := by
  simp [lagRaise]
@[simp] theorem gctlWrite_k4 (s : State) (a1) : (gctlWrite s a1).k4 = s.k4 := by
  rfl
@[simp] theorem opreqWrite_k4 (s : State) (a1) : (opreqWrite s a1).k4 = s.k4 := by
  simp [opreqWrite]
@[simp] theorem opChange_kept (k : K4) (s : State) (h : Kept k s.k4) : Kept k (opChange s).k4 := by
  (simp only [opChange]; (repeat' split)) <;> simp [*]
@[simp] theorem jobEpochWrite_k4 (s : State) (a1) : (jobEpochWrite s a1).k4 = s.k4 := by
  simp [jobEpochWrite]
@[simp] theorem State.setTu_k4 (s : State) (a1) : (State.setTu s a1).k4 = s.k4 := by
  rfl
@[simp] theorem tctlWrite_k4 (s : State) (a1) : (tctlWrite s a1).k4 = s.k4 := by
  simp [tctlWrite]
@[simp] theorem State.unschedule_k4 (s : State) (a1) : (State.unschedule s a1).k4 = s.k4 := by
  simp [State.unschedule]
@[simp] theorem State.unqualify_k4 (s : State) : (State.unqualify s).k4 = s.k4 := by
  simp only [State.unqualify]
  repeat' first
    | (with_reducible refine (k4_foldl _ _ _ ?_).trans ?_)
    | (with_reducible refine (k4_foldl_fst _ _ _ ?_).trans ?_)
    | intro _
    | split
  all_goals first
    | (simp [*]; done)
    | (simp only [Prod.ext_iff] at *; repeat (rename _ ∧ _ => hh; obtain ⟨h1, h2⟩ := hh); subst_vars; simp [*]; done)
    | rfl

@[simp] theorem State.enterTime_k4 (s : State) (a1) : (State.enterTime s a1).k4 = s.k4 := by
  simp [State.enterTime]
@[simp] theorem State.timeSource_k4 (s : State) : (State.timeSource s).k4 = s.k4 := by
  (simp only [State.timeSource]; (repeat' split)) <;> simp [*]
@[simp] theorem hallRefLoss_k4 (s : State) : (hallRefLoss s).k4 = s.k4 := by
  simp [hallRefLoss]
@[simp] theorem hallRefGood_k4 (s : State) : (hallRefGood s).k4 = s.k4 := by
  simp [hallRefGood]
@[simp] theorem State.setOffset_k4 (s : State) (a1) : (State.setOffset s a1).k4 = s.k4 := by
  rfl
@[simp] theorem hallPps_k4 (s : State) : (hallPps s).k4 = s.k4 := by
  simp [hallPps]
@[simp] theorem ppsLost_kept (k : K4) (s : State) (h : Kept k s.k4) : Kept k (ppsLost s).k4 := by
  simp [ppsLost, h]
@[simp] theorem State.closeDelay_k4 (s : State) (a1) : (State.closeDelay s a1).k4 = s.k4 := by
  simp [State.closeDelay]
@[simp] theorem linkEstimate_kept (k : K4) (s : State) (h : Kept k s.k4) : Kept k (linkEstimate s).k4 := by
  simp only [linkEstimate]
  repeat' first
    | (with_reducible refine Kept.foldl _ _ _ _ ?_ ?_)
    | (with_reducible refine Kept.foldl_fst _ _ _ _ ?_ ?_)
    | intro _
    | split
  all_goals first
    | (simp [*]; done)
    | (simp only [Prod.ext_iff] at *; repeat (rename _ ∧ _ => hh; obtain ⟨h1, h2⟩ := hh); subst_vars; simp [*]; done)
    | rfl

@[simp] theorem timeStep_kept (k : K4) (s : State) (h : Kept k s.k4) : Kept k (timeStep s).k4 := by
  (simp only [timeStep]; (repeat' split)) <;> simp [*]
@[simp] theorem acquireComplete_kept (k : K4) (s : State) (h : Kept k s.k4) : Kept k (acquireComplete s).k4 := by
  (simp only [acquireComplete]; (repeat' split)) <;> simp [*]
@[simp] theorem holdoverExpiry_kept (k : K4) (s : State) (h : Kept k s.k4) : Kept k (holdoverExpiry s).k4 := by
  simp [holdoverExpiry, h]
@[simp] theorem State.countLink_k4 (s : State) (a1) (a2) : (State.countLink s a1 a2).k4 = s.k4 := by
  simp [State.countLink]
@[simp] theorem State.setFifo_k4 (s : State) (a1) (a2) (a3) : (State.setFifo s a1 a2 a3).k4 = s.k4 := by
  rfl
@[simp] theorem State.sendSide_k4 (s : State) (a1) (a2) : (State.sendSide s a1 a2).k4 = s.k4 := by
  (simp only [State.sendSide]; (repeat' split)) <;> simp [*]
@[simp] theorem State.edgeSend_k4 (s : State) (a1) (a2) (a3) (a4) (a5) (a6) : (State.edgeSend s a1 a2 a3 a4 a5 a6).k4 = s.k4 := by
  simp [State.edgeSend]
@[simp] theorem State.edgeReturn_kept (k : K4) (s : State) (a1) (a2) (h : Kept k s.k4) : Kept k (State.edgeReturn s a1 a2).k4 := by
  simp only [State.edgeReturn]; (repeat' first
      | rfl
      | assumption
      | (with_reducible refine Kept.foldl _ _ _ _ ?_ ?_)
      | (with_reducible refine Kept.foldl_fst _ _ _ _ ?_ ?_)
      | (simp [*]; done)
      | intro _
      | split
      | (simp only [Prod.ext_iff] at *; repeat (rename _ ∧ _ => hh; obtain ⟨h1, h2⟩ := hh); subst_vars; simp [*]; done)
      | (simp_all; done)); done
@[simp] theorem State.edgeWait_kept (k : K4) (a0) (a1) (a2) (a3) (s : State) (h : Kept k s.k4) : Kept k (State.edgeWait a0 a1 a2 a3 s).k4 := by
  induction a3 generalizing s with
  | zero => exact h
  | succ n ih =>
    unfold State.edgeWait
    split
    · exact h
    · split
      · split
        · exact ih _ (by simp [h])
        · exact ih _ (by simp [h])
      · split
        · exact ih _ (by simp [h])
        · exact h
@[simp] theorem State.edgeJob_kept (k : K4) (s : State) (a1) (a2) (a3) (h : Kept k s.k4) : Kept k (State.edgeJob s a1 a2 a3).1.k4 := by
  simp [State.edgeJob, h]
@[simp] theorem State.edgeRead_kept (k : K4) (s : State) (a1) (a2) (a3) (h : Kept k s.k4) : Kept k (State.edgeRead s a1 a2 a3).1.k4 := by
  simp [State.edgeRead, h]
@[simp] theorem State.edgeWrite_kept (k : K4) (s : State) (a1) (a2) (a3) (h : Kept k s.k4) : Kept k (State.edgeWrite s a1 a2 a3).1.k4 := by
  simp [State.edgeWrite, h]
@[simp] theorem State.edgeRow_k4 (s : State) (a1) (a2) (a3) (a4) (a5) (a6) : (State.edgeRow s a1 a2 a3 a4 a5 a6).k4 = s.k4 := by
  rfl
@[simp] theorem bucketWrite_k4 (s : State) (a1) (a2) (a3) : (bucketWrite s a1 a2 a3).k4 = s.k4 := by
  simp [bucketWrite]
@[simp] theorem bucketPart_k4 (s : State) (a1) (a2) : (bucketPart s a1 a2).k4 = s.k4 := by
  simp [bucketPart]
@[simp] theorem bucketDeadline_kept (k : K4) (s : State) (a1) (h : Kept k s.k4) : Kept k (bucketDeadline s a1).k4 := by
  simp [bucketDeadline, h]
@[simp] theorem stageWrite_k4 (s : State) (a1) (a2) (a3) (a4) : (stageWrite s a1 a2 a3 a4).k4 = s.k4 := by
  simp [stageWrite]
@[simp] theorem State.mismatch_k4 (s : State) (a1) (a2) : (State.mismatch s a1 a2).k4 = s.k4 := by
  (simp only [State.mismatch]; (repeat' split)) <;> simp [*]
@[simp] theorem redAccept_k4 (s : State) (a1) : (redAccept s a1).k4 = s.k4 := by
  (simp only [redAccept]; (repeat' split)) <;> simp [*]
@[simp] theorem State.readFlits_kept (k : K4) (s : State) (a1) (a2) (a3) (h : Kept k s.k4) : Kept k (State.readFlits s a1 a2 a3).1.k4 := by
  (simp only [State.readFlits]; (repeat' split)) <;> simp [*]
@[simp] theorem State.writeBits_kept (k : K4) (s : State) (a1) (a2) (a3) (a4) (a5) (h : Kept k s.k4) : Kept k (State.writeBits s a1 a2 a3 a4 a5).1.k4 := by
  (simp only [State.writeBits]; (repeat' split)) <;> simp [*]
@[simp] theorem State.bucketElems_kept (k : K4) (s : State) (a1) (a2) (a3) (a4) (h : Kept k s.k4) : Kept k (State.bucketElems s a1 a2 a3 a4).1.k4 := by
  simp [State.bucketElems, h]
@[simp] theorem State.blockWords_kept (k : K4) (s : State) (a1) (a2) (a3) (a4) (h : Kept k s.k4) : Kept k (State.blockWords s a1 a2 a3 a4).1.k4 := by
  simp only [State.blockWords]; (repeat' first
      | rfl
      | assumption
      | (with_reducible refine Kept.foldl _ _ _ _ ?_ ?_)
      | (with_reducible refine Kept.foldl_fst _ _ _ _ ?_ ?_)
      | (simp [*]; done)
      | intro _
      | split
      | (simp only [Prod.ext_iff] at *; repeat (rename _ ∧ _ => hh; obtain ⟨h1, h2⟩ := hh); subst_vars; simp [*]; done)
      | (simp_all; done)); done
@[simp] theorem State.localOperand_kept (k : K4) (s : State) (a1) (a2) (a3) (a4) (a5) (h : Kept k s.k4) : Kept k (State.localOperand s a1 a2 a3 a4 a5).1.k4 := by
  simp only [State.localOperand]; (repeat' first
      | rfl
      | assumption
      | (with_reducible refine Kept.foldl _ _ _ _ ?_ ?_)
      | (with_reducible refine Kept.foldl_fst _ _ _ _ ?_ ?_)
      | (simp [*]; done)
      | intro _
      | split
      | (simp only [Prod.ext_iff] at *; repeat (rename _ ∧ _ => hh; obtain ⟨h1, h2⟩ := hh); subst_vars; simp [*]; done)
      | (simp_all; done)); done
@[simp] theorem State.setCruFlags_k4 (s : State) (a1) (a2) : (State.setCruFlags s a1 a2).k4 = s.k4 := by
  simp [State.setCruFlags]
@[simp] theorem State.writeResult_kept (k : K4) (s : State) (a1) (a2) (a3) (a4) (a5) (a6) (h : Kept k s.k4) : Kept k (State.writeResult s a1 a2 a3 a4 a5 a6).1.k4 := by
  simp only [State.writeResult]; (repeat' first
      | rfl
      | assumption
      | (with_reducible refine Kept.foldl _ _ _ _ ?_ ?_)
      | (with_reducible refine Kept.foldl_fst _ _ _ _ ?_ ?_)
      | (simp [*]; done)
      | intro _
      | split
      | (simp only [Prod.ext_iff] at *; repeat (rename _ ∧ _ => hh; obtain ⟨h1, h2⟩ := hh); subst_vars; simp [*]; done)
      | (simp_all; done)); done
@[simp] theorem State.stageOut_kept (k : K4) (s : State) (a1) (a2) (a3) (a4) (a5) (a6) (a7) (a8) (h : Kept k s.k4) : Kept k (State.stageOut s a1 a2 a3 a4 a5 a6 a7 a8).k4 := by
  simp [State.stageOut, h]
@[simp] theorem State.stageFill_k4 (s : State) (a1) (a2) (a3) : (State.stageFill s a1 a2 a3).k4 = s.k4 := by
  simp [State.stageFill]
@[simp] theorem State.stageMark_k4 (s : State) (a1) (a2) (a3) (a4) (a5) : (State.stageMark s a1 a2 a3 a4 a5).k4 = s.k4 := by
  rfl
@[simp] theorem State.formTurn_kept (k : K4) (s : State) (a1) (h : Kept k s.k4) : Kept k (State.formTurn s a1).k4 := by
  simp [State.formTurn, h]
@[simp] theorem State.stageMissed_kept (k : K4) (s : State) (a1) (a2) (a3) (a4) (a5) (h : Kept k s.k4) : Kept k (State.stageMissed s a1 a2 a3 a4 a5).k4 := by
  simp [State.stageMissed, h]
@[simp] theorem State.fillSlot_k4 (s : State) (a1) (a2) (a3) : (State.fillSlot s a1 a2 a3).k4 = s.k4 := by
  (simp only [State.fillSlot]; (repeat' split)) <;> simp [*]
@[simp] theorem stageForm_kept (k : K4) (s : State) (a1) (a2) (h : Kept k s.k4) : Kept k (stageForm s a1 a2).k4 := by
  unfold stageForm; simp only []
  split
  · exact h
  · split
    · exact h
    · split
      · simp [h]
      · split
        · exact h
        · generalize hb : State.localOperand _ _ _ _ _ _ = p
          have hu : Kept k p.1.k4 := by
            rw [← hb]; apply State.localOperand_kept; split
            · simp [h]
            · exact h
          split
          · simp at hu ⊢; exact hu
          · simp only [] at hu
            split
            · simp [hu]
            · simp [hu]
@[simp] theorem State.modCmt_k4 (s : State) (a1) : (State.modCmt s a1).k4 = s.k4 := by
  rfl
@[simp] theorem release_k4 (s : State) (a1) (a2) : (release s a1 a2).k4 = s.k4 := by
  simp [release]
@[simp] theorem State.split_k4 (s : State) : (State.split s).k4 = s.k4 := by
  simp only [State.split]
  repeat' first
    | (with_reducible refine (k4_foldl _ _ _ ?_).trans ?_)
    | (with_reducible refine (k4_foldl_fst _ _ _ ?_).trans ?_)
    | intro _
    | split
  all_goals first
    | (simp [*]; done)
    | (simp only [Prod.ext_iff] at *; repeat (rename _ ∧ _ => hh; obtain ⟨h1, h2⟩ := hh); subst_vars; simp [*]; done)
    | rfl

@[simp] theorem allready_k4 (s : State) (a1) : (allready s a1).k4 = s.k4 := by
  simp [allready]
@[simp] theorem State.tryArrived_k4 (s : State) : (State.tryArrived s).k4 = s.k4 := by
  simp [State.tryArrived]
@[simp] theorem arrive_k4 (s : State) : (arrive s).k4 = s.k4 := by
  simp [arrive]
@[simp] theorem runtimeFail_k4 (s : State) : (runtimeFail s).k4 = s.k4 := by
  simp [runtimeFail]
@[simp] theorem arrived_k4 (s : State) (a1) (a2) (a3) : (arrived s a1 a2 a3).k4 = s.k4 := by
  simp [arrived]
@[simp] theorem State.tryReady_k4 (s : State) : (State.tryReady s).k4 = s.k4 := by
  simp [State.tryReady]
@[simp] theorem stepRelease_kept (k : K4) (s : State) (h : Kept k s.k4) : Kept k (stepRelease s).k4 := by
  (simp only [stepRelease]; (repeat' split)) <;> simp [*]
@[simp] theorem stageFlit_kept (k : K4) (s : State) (a1) (a2) (h : Kept k s.k4) : Kept k (stageFlit s a1 a2).k4 := by
  simp [stageFlit, h]
@[simp] theorem commitArrival_k4 (s : State) : (commitArrival s).k4 = s.k4 := by
  (simp only [commitArrival]; (repeat' split)) <;> simp [*]
@[simp] theorem ready_k4 (s : State) (a1) (a2) : (ready s a1 a2).k4 = s.k4 := by
  simp [ready]
@[simp] theorem failToken_k4 (s : State) (a1) : (failToken s a1).k4 = s.k4 := by
  (simp only [failToken]; (repeat' split)) <;> simp [*]
@[simp] theorem stepDeadline_kept (k : K4) (s : State) (h : Kept k s.k4) : Kept k (stepDeadline s).k4 := by
  simp [stepDeadline, h]
@[simp] theorem commitPoint_kept (k : K4) (s : State) (h : Kept k s.k4) : Kept k (commitPoint s).k4 := by
  simp [commitPoint, h]
@[simp] theorem cmtConfig_k4 (s : State) (a1) (a2) : (cmtConfig s a1 a2).k4 = s.k4 := by
  (simp only [cmtConfig]; (repeat' split)) <;> simp [*]
@[simp] theorem cmtCtl_k4 (s : State) (a1) : (cmtCtl s a1).k4 = s.k4 := by
  (simp only [cmtCtl]; (repeat' split)) <;> simp [*]
@[simp] theorem agreement_k4 (s : State) (a1) (a2) : (agreement s a1 a2).k4 = s.k4 := by
  (simp only [agreement]; (repeat' split)) <;> simp [*]
@[simp] theorem State.sideDue_k4 (s : State) (a1) (a2) : (State.sideDue s a1 a2).k4 = s.k4 := by
  rfl
@[simp] theorem State.feedSide_k4 (s : State) (a1) : (State.feedSide s a1).k4 = s.k4 := by
  (simp only [State.feedSide]; (repeat' split)) <;> simp [*]
@[simp] theorem State.takeSide_k4 (s : State) (a1) (a2) : (State.takeSide s a1 a2).1.k4 = s.k4 := by
  (simp only [State.takeSide]; (repeat' split)) <;> simp [*]
@[simp] theorem State.noticeAll_k4 (s : State) : (State.noticeAll s).k4 = s.k4 := by
  simp only [State.noticeAll]
  repeat' first
    | (with_reducible refine (k4_foldl _ _ _ ?_).trans ?_)
    | (with_reducible refine (k4_foldl_fst _ _ _ ?_).trans ?_)
    | intro _
    | split
  all_goals first
    | (simp [*]; done)
    | (simp only [Prod.ext_iff] at *; repeat (rename _ ∧ _ => hh; obtain ⟨h1, h2⟩ := hh); subst_vars; simp [*]; done)
    | rfl

@[simp] theorem State.deliverSide_k4 (s : State) (a1) (a2) : (State.deliverSide s a1 a2).k4 = s.k4 := by
  simp only [State.deliverSide]
  repeat' first
    | (with_reducible refine (k4_foldl _ _ _ ?_).trans ?_)
    | (with_reducible refine (k4_foldl_fst _ _ _ ?_).trans ?_)
    | intro _
    | split
  all_goals first
    | (simp [*]; done)
    | (simp only [Prod.ext_iff] at *; repeat (rename _ ∧ _ => hh; obtain ⟨h1, h2⟩ := hh); subst_vars; simp [*]; done)
    | rfl

@[simp] theorem State.acceptSide_k4 (s : State) (a1) (a2) (a3) : (State.acceptSide s a1 a2 a3).k4 = s.k4 := by
  simp only [State.acceptSide]
  repeat' first
    | (with_reducible refine (k4_foldl _ _ _ ?_).trans ?_)
    | (with_reducible refine (k4_foldl_fst _ _ _ ?_).trans ?_)
    | intro _
    | split
  all_goals first
    | (simp [*]; done)
    | (simp only [Prod.ext_iff] at *; repeat (rename _ ∧ _ => hh; obtain ⟨h1, h2⟩ := hh); subst_vars; simp [*]; done)
    | rfl

@[simp] theorem sideResend_kept (k : K4) (s : State) (a1) (h : Kept k s.k4) : Kept k (sideResend s a1).k4 := by
  (simp only [sideResend]; (repeat' split)) <;> simp [*]
@[simp] theorem State.sendFlit_k4 (s : State) (a1) (a2) (a3) : (State.sendFlit s a1 a2 a3).1.k4 = s.k4 := by
  (simp only [State.sendFlit]; (repeat' split)) <;> simp [*]
@[simp] theorem State.forward_k4 (s : State) (a1) (a2) (a3) : (State.forward s a1 a2 a3).1.k4 = s.k4 := by
  (simp only [State.forward]; (repeat' split)) <;> simp [*]
@[simp] theorem State.retrySlot_k4 (s : State) (a1) (a2) : (State.retrySlot s a1 a2).1.k4 = s.k4 := by
  (simp only [State.retrySlot]; (repeat' split)) <;> simp [*]
@[simp] theorem State.slotFlit_k4 (s : State) (a1) (a2) : (State.slotFlit s a1 a2).1.k4 = s.k4 := by
  (simp only [State.slotFlit]; (repeat' split)) <;> simp [*]
@[simp] theorem slotSend_kept (k : K4) (s : State) (a1) (h : Kept k s.k4) : Kept k (slotSend s a1).k4 := by
  simp [slotSend, h]
@[simp] theorem State.retryLate_k4 (s : State) (a1) (a2) (a3) : (State.retryLate s a1 a2 a3).k4 = s.k4 := by
  simp [State.retryLate]
@[simp] theorem State.retryAsked_k4 (s : State) (a1) (a2) : (State.retryAsked s a1 a2).k4 = s.k4 := by
  (simp only [State.retryAsked]; (repeat' split)) <;> simp [*]
@[simp] theorem State.slotLost_k4 (s : State) (a1) (a2) : (State.slotLost s a1 a2).k4 = s.k4 := by
  simp [State.slotLost]
@[simp] theorem retryTimeout_kept (k : K4) (s : State) (a1) (h : Kept k s.k4) : Kept k (retryTimeout s a1).k4 := by
  (simp only [retryTimeout]; (repeat' split)) <;> simp [*]
@[simp] theorem State.passOn_k4 (s : State) (a1) (a2) (a3) (a4) : (State.passOn s a1 a2 a3 a4).k4 = s.k4 := by
  simp only [State.passOn]; (repeat' first
      | rfl
      | assumption
      | (with_reducible refine (k4_foldl _ _ _ ?_).trans ?_)
      | (with_reducible refine (k4_foldl_fst _ _ _ ?_).trans ?_)
      | (simp [*]; done)
      | intro _
      | split
      | (simp only [Prod.ext_iff] at *; repeat (rename _ ∧ _ => hh; obtain ⟨h1, h2⟩ := hh); subst_vars; simp [*]; done)
      | (simp_all; done)); done
@[simp] theorem State.dataFlit_k4 (s : State) (a1) (a2) : (State.dataFlit s a1 a2).k4 = s.k4 := by
  (simp only [State.dataFlit]; (repeat' split)) <;> simp [*]
@[simp] theorem State.scheduledFlit_k4 (s : State) (a1) (a2) (a3) (a4) : (State.scheduledFlit s a1 a2 a3 a4).k4 = s.k4 := by
  simp [State.scheduledFlit]
@[simp] theorem State.readControl_k4 (s : State) (a1) (a2) (a3) (a4) : (State.readControl s a1 a2 a3 a4).k4 = s.k4 := by
  simp [State.readControl]
@[simp] theorem slotReceive_kept (k : K4) (s : State) (a1) (a2) (a3) (a4) (a5) (a6) (h : Kept k s.k4) : Kept k (slotReceive s a1 a2 a3 a4 a5 a6).k4 := by
  (simp only [slotReceive]; (repeat' split)) <;> simp [*]
@[simp] theorem txCtlWrite_k4 (s : State) (a1) (a2) (a3) : (txCtlWrite s a1 a2 a3).k4 = s.k4 := by
  simp [txCtlWrite]
@[simp] theorem dmaGo_k4 (s : State) (a1) (a2) (a3) : (dmaGo s a1 a2 a3).k4 = s.k4 := by
  simp [dmaGo]
@[simp] theorem State.dmaEnd_k4 (s : State) (a1) (a2) (a3) : (State.dmaEnd s a1 a2 a3).k4 = s.k4 := by
  simp [State.dmaEnd]
@[simp] theorem State.dmaSource_kept (k : K4) (s : State) (a1) (a2) (a3) (h : Kept k s.k4) : Kept k (State.dmaSource s a1 a2 a3).1.k4 := by
  simp only [State.dmaSource]
  repeat' first
    | (with_reducible refine Kept.foldl _ _ _ _ ?_ ?_)
    | (with_reducible refine Kept.foldl_fst _ _ _ _ ?_ ?_)
    | intro _
    | split
  all_goals first
    | (simp [*]; done)
    | (simp only [Prod.ext_iff] at *; repeat (rename _ ∧ _ => hh; obtain ⟨h1, h2⟩ := hh); subst_vars; simp [*]; done)
    | rfl

@[simp] theorem dmaRow_kept (k : K4) (s : State) (a1) (a2) (h : Kept k s.k4) : Kept k (dmaRow s a1 a2).k4 := by
  simp only [dmaRow]
  repeat' first
    | (with_reducible refine Kept.foldl _ _ _ _ ?_ ?_)
    | (with_reducible refine Kept.foldl_fst _ _ _ _ ?_ ?_)
    | intro _
    | split
  all_goals first
    | (simp [*]; done)
    | (simp only [Prod.ext_iff] at *; repeat (rename _ ∧ _ => hh; obtain ⟨h1, h2⟩ := hh); subst_vars; simp [*]; done)
    | rfl

@[simp] theorem txWrite_k4 (s : State) (a1) (a2) (a3) (a4) : (txWrite s a1 a2 a3 a4).k4 = s.k4 := by
  simp [txWrite]
@[simp] theorem bankSwap_k4 (s : State) : (bankSwap s).k4 = s.k4 := by
  rfl
@[simp] theorem tableSwap_kept (k : K4) (s : State) (h : Kept k s.k4) : Kept k (tableSwap s).k4 := by
  (simp only [tableSwap]; (repeat' split)) <;> simp [*]
@[simp] theorem slotTableWrite_k4 (s : State) (a1) (a2) (a3) (a4) : (slotTableWrite s a1 a2 a3 a4).k4 = s.k4 := by
  simp [slotTableWrite]
@[simp] theorem modidWrite_k4 (s : State) (a1) : (modidWrite s a1).k4 = s.k4 := by
  simp [modidWrite]
@[simp] theorem State.degrade_k4 (s : State) (a1) : (State.degrade s a1).k4 = s.k4 := by
  simp [State.degrade]
@[simp] theorem laneFailure_k4 (s : State) (a1) (a2) : (laneFailure s a1 a2).k4 = s.k4 := by
  simp [laneFailure]
@[simp] theorem laneDegrade_kept (k : K4) (s : State) (a1) (h : Kept k s.k4) : Kept k (laneDegrade s a1).k4 := by
  (simp only [laneDegrade]; (repeat' split)) <;> simp [*]
@[simp] theorem schedEntry_kept (k : K4) (s : State) (a1) (h : Kept k s.k4) : Kept k (schedEntry s a1).k4 := by
  (simp only [schedEntry]; (repeat' split)) <;> simp [*]
@[simp] theorem canoCtlWrite_k4 (s : State) (a1) (a2) : (canoCtlWrite s a1 a2).k4 = s.k4 := by
  simp [canoCtlWrite]
@[simp] theorem recal_k4 (s : State) (a1) : (recal s a1).k4 = s.k4 := by
  rfl
@[simp] theorem fullRecal_kept (k : K4) (s : State) (a1) (a2) (a3) (a4) (a5) (h : Kept k s.k4) : Kept k (fullRecal s a1 a2 a3 a4 a5).k4 := by
  simp [fullRecal, h]
@[simp] theorem canopyTrain_k4 (s : State) (a1) (a2) : (canopyTrain s a1 a2).k4 = s.k4 := by
  simp [canopyTrain]
@[simp] theorem laneCodeSwitch_kept (k : K4) (s : State) (a1) (h : Kept k s.k4) : Kept k (laneCodeSwitch s a1).k4 := by
  simp [laneCodeSwitch, h]
@[simp] theorem orderedWrite_k4 (s : State) (a1) : (orderedWrite s a1).k4 = s.k4 := by
  simp [orderedWrite]
@[simp] theorem imageWrite_k4 (s : State) (a1) (a2) : (imageWrite s a1 a2).k4 = s.k4 := by
  simp [imageWrite]
@[simp] theorem State.recordFence_kept (k : K4) (s : State) (a1) (a2) (h : Kept k s.k4) : Kept k (State.recordFence s a1 a2).k4 := by
  exact h.trans ⟨rfl, id, id, id, fun x => ⟨x, Nat.le_refl _⟩, id⟩
@[simp] theorem State.gate_kept (k : K4) (s : State) (a1) (h : Kept k s.k4) : Kept k (State.gate s a1).k4 := by
  simp only [State.gate]
  repeat' first
    | (with_reducible refine Kept.foldl _ _ _ _ ?_ ?_)
    | (with_reducible refine Kept.foldl_fst _ _ _ _ ?_ ?_)
    | intro _
    | split
  all_goals first
    | (simp [*]; done)
    | (simp only [Prod.ext_iff] at *; repeat (rename _ ∧ _ => hh; obtain ⟨h1, h2⟩ := hh); subst_vars; simp [*]; done)
    | rfl

@[simp] theorem State.fenceRefused_k4 (s : State) (a1) : (State.fenceRefused s a1).k4 = s.k4 := by
  rfl
@[simp] theorem gateOp_kept (k : K4) (s : State) (a1) (h : Kept k s.k4) : Kept k (gateOp s a1).k4 := by
  simp [gateOp, h]
@[simp] theorem fenceDeep_kept (k : K4) (s : State) (a1) (h : Kept k s.k4) : Kept k (fenceDeep s a1).k4 := by
  (simp only [fenceDeep]; (repeat' split)) <;> simp [*]
@[simp] theorem probeOp_k4 (s : State) (a1) : (probeOp s a1).k4 = s.k4 := by
  simp [probeOp]
@[simp] theorem State.wipeSlice_kept (k : K4) (s : State) (a1) (h : Kept k s.k4) : Kept k (State.wipeSlice s a1).k4 := by
  exact h.trans ⟨rfl, fun x => eraseRange_wf _ _ _ _ x, id, id, fun x => ⟨x, Nat.le_refl _⟩, id⟩
@[simp] theorem returnOp_kept (k : K4) (s : State) (a1) (h : Kept k s.k4) : Kept k (returnOp s a1).k4 := by
  simp [returnOp, h]
@[simp] theorem returnDone_kept (k : K4) (s : State) (a1) (h : Kept k s.k4) : Kept k (returnDone s a1).k4 := by
  (simp only [returnDone]; (repeat' split)) <;> simp [*]
@[simp] theorem fenceWrite_kept (k : K4) (s : State) (a1) (a2) (a3) (h : Kept k s.k4) : Kept k (fenceWrite s a1 a2 a3).k4 := by
  simp only [fenceWrite]
  repeat' first
    | (with_reducible refine Kept.foldl _ _ _ _ ?_ ?_)
    | (with_reducible refine Kept.foldl_fst _ _ _ _ ?_ ?_)
    | intro _
    | split
  all_goals first
    | (simp [*]; done)
    | (simp only [Prod.ext_iff] at *; repeat (rename _ ∧ _ => hh; obtain ⟨h1, h2⟩ := hh); subst_vars; simp [*]; done)
    | rfl

@[simp] theorem mapWrite_k4 (s : State) (a1) (a2) (a3) : (mapWrite s a1 a2 a3).k4 = s.k4 := by
  simp [mapWrite]
@[simp] theorem remap_kept (k : K4) (s : State) (a1) (h : Kept k s.k4) : Kept k (remap s a1).k4 := by
  (simp only [remap]; (repeat' split)) <;> simp [*]
@[simp] theorem State.setLease_k4 (s : State) (a1) (a2) (a3) : (State.setLease s a1 a2 a3).k4 = s.k4 := by
  rfl
@[simp] theorem acquire_k4 (s : State) (a1) (a2) : (acquire s a1 a2).k4 = s.k4 := by
  (simp only [acquire]; (repeat' split)) <;> simp [*]
@[simp] theorem leaseRelease_k4 (s : State) (a1) : (leaseRelease s a1).k4 = s.k4 := by
  (simp only [leaseRelease]; (repeat' split)) <;> simp [*]
@[simp] theorem adopt_k4 (s : State) (a1) (a2) : (adopt s a1 a2).k4 = s.k4 := by
  simp [adopt]
@[simp] theorem State.orphanLeases_k4 (s : State) (a1) : (State.orphanLeases s a1).k4 = s.k4 := by
  simp only [State.orphanLeases]; (repeat' first
      | rfl
      | assumption
      | (with_reducible refine (k4_foldl _ _ _ ?_).trans ?_)
      | (with_reducible refine (k4_foldl_fst _ _ _ ?_).trans ?_)
      | (simp [*]; done)
      | intro _
      | split
      | (simp only [Prod.ext_iff] at *; repeat (rename _ ∧ _ => hh; obtain ⟨h1, h2⟩ := hh); subst_vars; simp [*]; done)
      | (simp_all; done)); done
@[simp] theorem leaseCtl_k4 (s : State) (a1) (a2) : (leaseCtl s a1 a2).k4 = s.k4 := by
  (simp only [leaseCtl]; (repeat' split)) <;> simp [*]
@[simp] theorem rollback_k4 (s : State) (a1) (a2) : (rollback s a1 a2).k4 = s.k4 := by
  simp [rollback]
@[simp] theorem State.claimSource_k4 (s : State) (a1) (a2) : (State.claimSource s a1 a2).k4 = s.k4 := by
  simp [State.claimSource]
@[simp] theorem State.claimRead_k4 (s : State) (a1) : (State.claimRead s a1).1.k4 = s.k4 := by
  (simp only [State.claimRead]; (repeat' split)) <;> simp [*]
@[simp] theorem claimOp_k4 (s : State) (a1) : (claimOp s a1).k4 = s.k4 := by
  simp [claimOp]
@[simp] theorem completeOp_k4 (s : State) (a1) (a2) : (completeOp s a1 a2).k4 = s.k4 := by
  (simp only [completeOp]; (repeat' split)) <;> simp [*]
@[simp] theorem eventRaise_k4 (s : State) (a1) (a2) : (eventRaise s a1 a2).k4 = s.k4 := by
  simp [eventRaise]
@[simp] theorem swraise_k4 (s : State) (a1) (a2) : (swraise s a1 a2).k4 = s.k4 := by
  simp [swraise]
@[simp] theorem pendingClear_k4 (s : State) (a1) (a2) : (pendingClear s a1 a2).k4 = s.k4 := by
  simp [pendingClear]
@[simp] theorem srcWrite_k4 (s : State) (a1) (a2) (a3) : (srcWrite s a1 a2 a3).k4 = s.k4 := by
  simp [srcWrite]
@[simp] theorem State.procEdge_kept (k : K4) (s : State) (a1) (a2) (h : Kept k s.k4) : Kept k (State.procEdge s a1 a2).k4 := by
  simp [State.procEdge, h]
@[simp] theorem State.exception_k4 (s : State) (a1) (a2) (a3) : (State.exception s a1 a2 a3).k4 = s.k4 := by
  simp [State.exception]
@[simp] theorem interruptEntry_kept (k : K4) (s : State) (a1) (h : Kept k s.k4) : Kept k (interruptEntry s a1).k4 := by
  simp [interruptEntry, h]
@[simp] theorem storeError_kept (k : K4) (s : State) (a1) (h : Kept k s.k4) : Kept k (storeError s a1).k4 := by
  (simp only [storeError]; (repeat' split)) <;> simp [*]
@[simp] theorem wfeWake_kept (k : K4) (s : State) (a1) (h : Kept k s.k4) : Kept k (wfeWake s a1).k4 := by
  simp [wfeWake, h]
@[simp] theorem State.setBusQueue_k4 (s : State) (a1) (a2) : (State.setBusQueue s a1 a2).k4 = s.k4 := by
  rfl
@[simp] theorem State.busPush_k4 (s : State) (a1) (a2) : (State.busPush s a1 a2).k4 = s.k4 := by
  simp [State.busPush]
@[simp] theorem State.procIssue_kept (k : K4) (s : State) (a1) (a2) (h : Kept k s.k4) : Kept k (State.procIssue s a1 a2).k4 := by
  simp [State.procIssue, h]
@[simp] theorem State.procDone_k4 (s : State) (a1) (a2) (a3) : (State.procDone s a1 a2 a3).k4 = s.k4 := by
  rfl
@[simp] theorem State.procWrite_k4 (s : State) (a1) (a2) (a3) (a4) : (State.procWrite s a1 a2 a3 a4).k4 = s.k4 := by
  rfl
@[simp] theorem State.csrRead_k4 (s : State) (a1) (a2) : (State.csrRead s a1 a2).1.k4 = s.k4 := by
  (simp only [State.csrRead]; (repeat' split)) <;> simp [*]
@[simp] theorem State.csrWrite_k4 (s : State) (a1) (a2) (a3) : (State.csrWrite s a1 a2 a3).k4 = s.k4 := by
  (simp only [State.csrWrite]; (repeat' split)) <;> simp [*]
@[simp] theorem State.cpRefused_k4 (s : State) (a1) : (State.cpRefused s a1).k4 = s.k4 := by
  rfl
@[simp] theorem State.cpRun_k4 (s : State) (a1) (a2) : (State.cpRun s a1 a2).k4 = s.k4 := by
  simp [State.cpRun]
@[simp] theorem cpRunOp_k4 (s : State) (a1) (a2) (a3) : (cpRunOp s a1 a2 a3).k4 = s.k4 := by
  simp [cpRunOp]
@[simp] theorem cpHaltOp_k4 (s : State) (a1) (a2) : (cpHaltOp s a1 a2).k4 = s.k4 := by
  simp [cpHaltOp]
@[simp] theorem cpResetOp_k4 (s : State) (a1) (a2) : (cpResetOp s a1 a2).k4 = s.k4 := by
  simp [cpResetOp]
@[simp] theorem cpCtl_k4 (s : State) (a1) (a2) (a3) : (cpCtl s a1 a2 a3).k4 = s.k4 := by
  (simp only [cpCtl]; (repeat' split)) <;> simp [*]
@[simp] theorem State.setRoleState_k4 (s : State) (a1) : (State.setRoleState s a1).k4 = s.k4 := by
  rfl
@[simp] theorem State.settleSwap_k4 (s : State) : (State.settleSwap s).k4 = s.k4 := by
  (simp only [State.settleSwap]; (repeat' split)) <;> simp [*]
@[simp] theorem beat_k4 (s : State) (a1) : (beat s a1).k4 = s.k4 := by
  simp [beat]
@[simp] theorem takeover_kept (k : K4) (s : State) (h : Kept k s.k4) : Kept k (takeover s).k4 := by
  simp [takeover, h]
@[simp] theorem standbyLost_kept (k : K4) (s : State) (h : Kept k s.k4) : Kept k (standbyLost s).k4 := by
  simp [standbyLost, h]
@[simp] theorem roleSwap_k4 (s : State) (a1) : (roleSwap s a1).k4 = s.k4 := by
  simp [roleSwap]
@[simp] theorem State.bootKeeper_k4 (s : State) (a1) (a2) : (State.bootKeeper s a1 a2).k4 = s.k4 := by
  rfl
@[simp] theorem restart_k4 (s : State) (a1) : (restart s a1).k4 = s.k4 := by
  simp [restart]
@[simp] theorem rctlWrite_k4 (s : State) (a1) (a2) : (rctlWrite s a1 a2).k4 = s.k4 := by
  (simp only [rctlWrite]; (repeat' split)) <;> simp [*]
@[simp] theorem noticeWrite_k4 (s : State) (a1) (a2) : (noticeWrite s a1 a2).k4 = s.k4 := by
  simp [noticeWrite]
@[simp] theorem sensorSet_kept (k : K4) (s : State) (a1) (h : Kept k s.k4) : Kept k (sensorSet s a1).k4 := by
  simp [sensorSet, h]
@[simp] theorem comparatorTrip_k4 (s : State) (a1) (a2) : (comparatorTrip s a1 a2).k4 = s.k4 := by
  simp [comparatorTrip]
@[simp] theorem comparatorClear_k4 (s : State) (a1) (a2) : (comparatorClear s a1 a2).k4 = s.k4 := by
  simp [comparatorClear]
@[simp] theorem cmpWrite_k4 (s : State) (a1) (a2) : (cmpWrite s a1 a2).k4 = s.k4 := by
  rfl
theorem State.setNv_kept (k : K4) (s : State) (f : Nv → Nv) (h : Kept k s.k4) (hf : Memory.wf 0xFF s.nv.flash = true → Memory.wf 0xFF (f s.nv).flash = true) (h2 : s.nv.f ≤ 64 → (f s.nv).f ≤ 64 ∧ s.nv.f ≤ (f s.nv).f) (h3 : s.nv.lc = 4 → (f s.nv).lc = 4) : Kept k (s.setNv f).k4 := by
  exact h.trans ⟨rfl, id, id, hf, h2, h3⟩
theorem Nv.write_f (v : Nv) (a n x : Nat) : (v.write a n x).f = v.f ∧ (v.write a n x).lc = v.lc := by
  induction n generalizing v a x with
  | zero => exact ⟨rfl, rfl⟩
  | succ n ih => exact ih _ _ _
theorem setNv_erase_kept (k : K4) (s : State) (a n : Nat) (h : Kept k s.k4) : Kept k (s.setNv (fun v => v.erase a n)).k4 :=
  State.setNv_kept k s _ h (fun x => flashErase_wf _ _ _ x) (fun x => ⟨x, Nat.le_refl _⟩) id
theorem setNv_write_kept (k : K4) (s : State) (a n x : Nat) (h : Kept k s.k4) : Kept k (s.setNv (fun v => v.write a n x)).k4 :=
  State.setNv_kept k s _ h (fun y => flashWrite_wf _ _ _ _ y)
    (fun y => by rw [(Nv.write_f s.nv a n x).1]; exact ⟨y, Nat.le_refl _⟩) (fun y => (Nv.write_f s.nv a n x).2.trans y)
theorem setNv_program_kept (k : K4) (s : State) (e : BitVec 512) (h : Kept k s.k4) : Kept k (s.setNv (fun v => v.program e)).k4 := by
  have hw := Nv.write_f s.nv (logBase + 64 * s.nv.logHead) 64 (setBits (setBits e 63 0 s.nv.logSeq) 511 480
    (Config.shake (bytesOf (setBits e 63 0 s.nv.logSeq).toNat 60) 32)).toNat
  exact State.setNv_kept k s _ h (fun y => flashWrite_wf _ _ _ _ y)
    (fun y => ⟨by simp [Nv.program, hw.1, y], by simp [Nv.program, hw.1]⟩) (fun y => by simp [Nv.program, hw.2, y])
@[simp] theorem State.programLog_kept (k : K4) (s : State) (h : Kept k s.k4) : Kept k (State.programLog s).k4 := by
  unfold State.programLog
  refine Kept.foldl _ _ _ _ (fun a e ha => ?_) h
  split
  · simp [setNv_program_kept, ha]
  · exact ha
@[simp] theorem logAppend_kept (k : K4) (s : State) (a1) (a2) (a3) (a4) (h : Kept k s.k4) : Kept k (logAppend s a1 a2 a3 a4).k4 := by
  simp only [logAppend]
  repeat' first
    | (with_reducible refine Kept.foldl _ _ _ _ ?_ ?_)
    | (with_reducible refine Kept.foldl_fst _ _ _ _ ?_ ?_)
    | intro _
    | split
  all_goals first
    | (simp [*]; done)
    | (simp only [Prod.ext_iff] at *; repeat (rename _ ∧ _ => hh; obtain ⟨h1, h2⟩ := hh); subst_vars; simp [*]; done)
    | rfl

@[simp] theorem State.log_kept (k : K4) (s : State) (a1) (a2) (a3) (h : Kept k s.k4) : Kept k (State.log s a1 a2 a3).k4 := by
  simp [State.log, h]
@[simp] theorem sectorErase_kept (k : K4) (s : State) (h : Kept k s.k4) : Kept k (sectorErase s).k4 := by
  unfold sectorErase
  exact State.programLog_kept _ _ (by simp [setNv_erase_kept, h])
@[simp] theorem State.setKstr_k4 (s : State) (a1) (a2) (a3) : (State.setKstr s a1 a2 a3).k4 = s.k4 := by
  rfl
@[simp] theorem State.movePiece_kept (k : K4) (s : State) (a1) (a2) (h : Kept k s.k4) : Kept k (State.movePiece s a1 a2).k4 := by
  unfold State.movePiece; simp only []
  split
  · split
    · split
      · simp [setNv_write_kept, h]
      · exact h
    · simp [h]
  · split
    · simp [h]
    · exact h
@[simp] theorem streamPiece_kept (k : K4) (s : State) (a1) (a2) (a3) (a4) (a5) (a6) (a7) (h : Kept k s.k4) : Kept k (streamPiece s a1 a2 a3 a4 a5 a6 a7).k4 := by
  simp [streamPiece, h]
@[simp] theorem State.pieceDone_k4 (s : State) (a1) (a2) (a3) (a4) : (State.pieceDone s a1 a2 a3 a4).k4 = s.k4 := by
  simp [State.pieceDone]
@[simp] theorem kstrResume_k4 (s : State) (a1) (a2) : (kstrResume s a1 a2).k4 = s.k4 := by
  simp [kstrResume]
@[simp] theorem kstrAbort_k4 (s : State) (a1) (a2) : (kstrAbort s a1 a2).k4 = s.k4 := by
  simp [kstrAbort]
@[simp] theorem kstrWrite_k4 (s : State) (a1) (a2) (a3) : (kstrWrite s a1 a2 a3).k4 = s.k4 := by
  (simp only [kstrWrite]; (repeat' split)) <;> simp [*]
@[simp] theorem fenceRequest_k4 (s : State) (a1) : (fenceRequest s a1).k4 = s.k4 := by
  rfl
theorem mapOne_k4 (acc : List Nat × State) (n : Nat) : (mapOne acc n).2.k4 = acc.2.k4 := by
  unfold mapOne; split
  · simp
  · simp
theorem k4_foldl_snd {α β : Type} (g : β × State → α → β × State) (l : List α) (p : β × State)
    (h : ∀ a x, (g a x).2.k4 = a.2.k4) : (l.foldl g p).2.k4 = p.2.k4 := by
  induction l generalizing p with
  | nil => rfl
  | cons x l ih => simp [ih, h]
@[simp] theorem State.loadMaps_k4 (s : State) : (State.loadMaps s).k4 = s.k4 := by
  unfold State.loadMaps
  split
  · rfl
  · simp only []
    rw [k4_foldl _ _ _ (fun a d => ?_), k4_foldl _ _ _ (fun a x => ?_)]
    · simp
    · exact k4_foldl_snd _ _ _ (fun a x => mapOne_k4 _ _)
@[simp] theorem State.resetModule_kept (k : K4) (s : State) (h : Kept k s.k4) : Kept k s.resetModule.k4 := by
  simp only [State.resetModule, State.loadMaps_k4]
  exact h.trans ⟨rfl, fun _ => rfl, fun _ => rfl, id, fun x => ⟨x, Nat.le_refl _⟩, id⟩
@[simp] theorem State.rstRefused_k4 (s : State) : (State.rstRefused s).k4 = s.k4 := by
  rfl
@[simp] theorem moduleReset_kept (k : K4) (s : State) (a1) (h : Kept k s.k4) : Kept k (moduleReset s a1).k4 := by
  simp [moduleReset, h]
@[simp] theorem v48Good_kept (k : K4) (s : State) (h : Kept k s.k4) : Kept k (v48Good s).k4 := by
  simp [v48Good, h]
@[simp] theorem inputLost_kept (k : K4) (s : State) (h : Kept k s.k4) : Kept k (inputLost s).k4 := by
  simp [inputLost, h]
@[simp] theorem failedPosition_kept (k : K4) (s : State) (a1) (h : Kept k s.k4) : Kept k (failedPosition s a1).k4 := by
  (simp only [failedPosition]; (repeat' split)) <;> simp [*]
@[simp] theorem State.buildMaps_kept (k : K4) (s : State) (a1) (h : Kept k s.k4) : Kept k (State.buildMaps s a1).1.k4 := by
  unfold State.buildMaps; simp only []
  refine Kept.foldl_fst _ _ _ _ (fun a x ha => ?_) ?_
  · split
    · simp [ha]
    · exact ha
  · exact h.trans ⟨rfl, id, id, id, fun x => ⟨x, Nat.le_refl _⟩, id⟩
@[simp] theorem selfTest_kept (k : K4) (s : State) (a1) (a2) (h : Kept k s.k4) : Kept k (selfTest s a1 a2).k4 := by
  simp only [selfTest]; (repeat' first
      | rfl
      | assumption
      | (with_reducible refine Kept.foldl _ _ _ _ ?_ ?_)
      | (with_reducible refine Kept.foldl_fst _ _ _ _ ?_ ?_)
      | (simp [*]; done)
      | intro _
      | split
      | (simp only [Prod.ext_iff] at *; repeat (rename _ ∧ _ => hh; obtain ⟨h1, h2⟩ := hh); subst_vars; simp [*]; done)
      | (simp_all; done)); done
@[simp] theorem State.runBoot_k4 (s : State) (a1) : (State.runBoot s a1).k4 = s.k4 := by
  rfl
@[simp] theorem State.loadKeepers_k4 (s : State) : (State.loadKeepers s).k4 = s.k4 := by
  rfl
@[simp] theorem State.startProcs_k4 (s : State) : (State.startProcs s).k4 = s.k4 := by
  simp only [State.startProcs]
  repeat' first
    | (with_reducible refine (k4_foldl _ _ _ ?_).trans ?_)
    | (with_reducible refine (k4_foldl_fst _ _ _ ?_).trans ?_)
    | intro _
    | split
  all_goals first
    | (simp [*]; done)
    | (simp only [Prod.ext_iff] at *; repeat (rename _ ∧ _ => hh; obtain ⟨h1, h2⟩ := hh); subst_vars; simp [*]; done)
    | rfl

@[simp] theorem stageComplete_kept (k : K4) (s : State) (a1) (a2) (h : Kept k s.k4) : Kept k (stageComplete s a1 a2).k4 := by
  have hset : ∀ (u : State) (n : Nat), Kept k u.k4 → Kept k (u.setFld rBoot 3 0 n).k4 := fun u n hu => by simp [hu]
  unfold stageComplete
  split
  · exact h
  · split
    · split
      · exact h
      · exact h
    · simp only []
      split
      · exact hset _ _ (by simp [h])
      · exact hset _ _ (by simp [h])
      · exact hset _ _ (by simp [h])
      · exact hset _ _ (by simp [h])
      · exact hset _ _ h
      · exact hset _ _ (by simp [h])
      · split
        · simp [h]
        · exact h
      · simp [h]
      · exact h
      · simp [h]
@[simp] theorem stageTimeout_kept (k : K4) (s : State) (a1) (h : Kept k s.k4) : Kept k (stageTimeout s a1).k4 := by
  simp [stageTimeout, h]
@[simp] theorem State.endNow_k4 (s : State) (a1) (a2) : (State.endNow s a1 a2).k4 = s.k4 := by
  (simp only [State.endNow]; (repeat' split)) <;> simp [*]
theorem k4_drawn (s : State) (n : Nat) : State.k4 { s with free := n } = s.k4 := rfl
@[simp] theorem coreResetOp_k4 (s : State) (a1) (a2) : (coreResetOp s a1 a2).k4 = s.k4 := by
  unfold coreResetOp
  apply State.byKeeper_k4
  · split
    · simp
    · simp only []
      have h1 : ∀ t : State, ([0, 1, 2, 3].foldl (fun a n => a.endNow a2 n) t).k4 = t.k4 := by
        intro t; exact k4_foldl _ _ _ (fun a n => State.endNow_k4 _ _ _)
      split
      · simp only [State.failCurrent_k4, State.modCore_k4, State.freeHalts_k4, k4_drawn, h1]
      · simp only [State.modCore_k4, State.freeHalts_k4, k4_drawn, h1]
  · simp
@[simp] theorem resetWrite_kept (k : K4) (s : State) (a1) (a2) (h : Kept k s.k4) : Kept k (resetWrite s a1 a2).k4 := by
  (simp only [resetWrite]; (repeat' split)) <;> simp [*]
@[simp] theorem thermalTrip_kept (k : K4) (s : State) (h : Kept k s.k4) : Kept k (thermalTrip s).k4 := by
  have h1 : Kept k ((s.failStep 12).log 4 4 3).k4 := by simp [*]
  exact h1.trans ⟨rfl, fun _ => rfl, id, id, fun x => ⟨x, Nat.le_refl _⟩, id⟩
@[simp] theorem testPort_k4 (s : State) (a1) : (testPort s a1).k4 = s.k4 := by
  rfl
@[simp] theorem State.modPort_k4 (s : State) (a1) : (State.modPort s a1).k4 = s.k4 := by
  rfl
@[simp] theorem linkTraining_k4 (s : State) (a1) (a2) (a3) (a4) : (linkTraining s a1 a2 a3 a4).k4 = s.k4 := by
  simp [linkTraining]
@[simp] theorem portReset_k4 (s : State) (a1) : (portReset s a1).k4 = s.k4 := by
  simp only [portReset]
  repeat' first
    | (with_reducible refine (k4_foldl _ _ _ ?_).trans ?_)
    | (with_reducible refine (k4_foldl_fst _ _ _ ?_).trans ?_)
    | intro _
    | split
  all_goals first
    | (simp [*]; done)
    | (simp only [Prod.ext_iff] at *; repeat (rename _ ∧ _ => hh; obtain ⟨h1, h2⟩ := hh); subst_vars; simp [*]; done)
    | rfl

@[simp] theorem State.aerLog_k4 (s : State) (a1) (a2) : (State.aerLog s a1 a2).k4 = s.k4 := by
  simp [State.aerLog]
@[simp] theorem State.ideLeave_k4 (s : State) (a1) : (State.ideLeave s a1).k4 = s.k4 := by
  simp only [State.ideLeave]
  repeat' first
    | (with_reducible refine (k4_foldl _ _ _ ?_).trans ?_)
    | (with_reducible refine (k4_foldl_fst _ _ _ ?_).trans ?_)
    | intro _
    | split
  all_goals first
    | (simp [*]; done)
    | (simp only [Prod.ext_iff] at *; repeat (rename _ ∧ _ => hh; obtain ⟨h1, h2⟩ := hh); subst_vars; simp [*]; done)
    | rfl

@[simp] theorem ideCheckFailed_k4 (s : State) (a1) : (ideCheckFailed s a1).k4 = s.k4 := by
  simp only [ideCheckFailed]
  repeat' first
    | (with_reducible refine (k4_foldl _ _ _ ?_).trans ?_)
    | (with_reducible refine (k4_foldl_fst _ _ _ ?_).trans ?_)
    | intro _
    | split
  all_goals first
    | (simp [*]; done)
    | (simp only [Prod.ext_iff] at *; repeat (rename _ ∧ _ => hh; obtain ⟨h1, h2⟩ := hh); subst_vars; simp [*]; done)
    | rfl

@[simp] theorem hostLineIn_k4 (s : State) (a1) (a2) (a3) (a4) : (hostLineIn s a1 a2 a3 a4).k4 = s.k4 := by
  simp [hostLineIn]
@[simp] theorem State.feedHost_k4 (s : State) : (State.feedHost s).k4 = s.k4 := by
  simp [State.feedHost]
@[simp] theorem hostRequest_k4 (s : State) (a1) (a2) (a3) (a4) (a5) : (hostRequest s a1 a2 a3 a4 a5).k4 = s.k4 := by
  simp [hostRequest]
@[simp] theorem State.hostPiece_k4 (s : State) (a1) (a2) (a3) (a4) : (State.hostPiece s a1 a2 a3 a4).k4 = s.k4 := by
  (simp only [State.hostPiece]; (repeat' split)) <;> simp [*]
@[simp] theorem configRequest_k4 (s : State) (a1) (a2) (a3) : (configRequest s a1 a2 a3).k4 = s.k4 := by
  simp [configRequest]
@[simp] theorem msixUnmask_k4 (s : State) (a1) : (msixUnmask s a1).k4 = s.k4 := by
  simp [msixUnmask]
@[simp] theorem snoop_k4 (s : State) : (snoop s).k4 = s.k4 := by
  simp [snoop]
@[simp] theorem doeDiscovery_k4 (s : State) (a1) (a2) : (doeDiscovery s a1 a2).k4 = s.k4 := by
  simp [doeDiscovery]
@[simp] theorem tableAccess_k4 (s : State) (a1) : (tableAccess s a1).k4 = s.k4 := by
  simp [tableAccess]
@[simp] theorem eventRecords_k4 (s : State) (a1) : (eventRecords s a1).k4 = s.k4 := by
  simp [eventRecords]
@[simp] theorem State.heard_k4 (s : State) : (State.heard s).k4 = s.k4 := by
  rfl
@[simp] theorem State.reply_k4 (s : State) (a1) : (State.reply s a1).k4 = s.k4 := by
  rfl
@[simp] theorem State.message_k4 (s : State) (f : State → State) (hf : (f s.heard).k4 = s.heard.k4) : (s.message f).k4 = s.k4 := by
  unfold State.message; split
  · rw [hf]; simp
  · rfl
@[simp] theorem State.message_kept (k : K4) (s : State) (f : State → State) (h : Kept k s.k4) (hf : Kept k (f s.heard).k4) : Kept k (s.message f).k4 := by
  unfold State.message; split
  · exact hf
  · exact h
@[simp] theorem State.pldm_k4 (s : State) (f : State → State) (hf : (f s.heard).k4 = s.heard.k4) : (s.pldm f).k4 = s.k4 := by
  unfold State.pldm; split
  · rw [hf]; simp
  · rfl
@[simp] theorem State.pldm_kept (k : K4) (s : State) (f : State → State) (h : Kept k s.k4) (hf : Kept k (f s.heard).k4) : Kept k (s.pldm f).k4 := by
  unfold State.pldm; split
  · exact hf
  · exact h
@[simp] theorem mailboxMctp_k4 (s : State) (a1) : (mailboxMctp s a1).k4 = s.k4 := by
  simp [mailboxMctp]
@[simp] theorem setEndpoint_k4 (s : State) (a1) : (setEndpoint s a1).k4 = s.k4 := by
  simp [setEndpoint]
@[simp] theorem pldmDiscovery_k4 (s : State) (a1) : (pldmDiscovery s a1).k4 = s.k4 := by
  simp [pldmDiscovery]
@[simp] theorem State.setSpdm_k4 (s : State) (a1) : (State.setSpdm s a1).k4 = s.k4 := by
  rfl
@[simp] theorem State.spdmAnswer_k4 (s : State) (a1) (a2) (a3) : (State.spdmAnswer s a1 a2 a3).k4 = s.k4 := by
  rfl
@[simp] theorem getVersion_k4 (s : State) (a1) : (getVersion s a1).k4 = s.k4 := by
  simp [getVersion]
@[simp] theorem getCapabilities_k4 (s : State) (a1) : (getCapabilities s a1).k4 = s.k4 := by
  simp [getCapabilities]
@[simp] theorem negotiateAlgorithms_k4 (s : State) (a1) : (negotiateAlgorithms s a1).k4 = s.k4 := by
  simp [negotiateAlgorithms]
@[simp] theorem getDigests_k4 (s : State) (a1) : (getDigests s a1).k4 = s.k4 := by
  simp [getDigests]
@[simp] theorem getCertificate_k4 (s : State) (a1) (a2) (a3) : (getCertificate s a1 a2 a3).k4 = s.k4 := by
  simp [getCertificate]
@[simp] theorem challenge_k4 (s : State) (a1) (a2) : (challenge s a1 a2).k4 = s.k4 := by
  simp [challenge]
@[simp] theorem getMeasurements_k4 (s : State) (a1) (a2) (a3) : (getMeasurements s a1 a2 a3).k4 = s.k4 := by
  simp [getMeasurements]
@[simp] theorem keyExchange_k4 (s : State) (a1) : (keyExchange s a1).k4 = s.k4 := by
  simp [keyExchange]
@[simp] theorem finish_k4 (s : State) (a1) : (finish s a1).k4 = s.k4 := by
  simp [finish]
@[simp] theorem keyUpdate_k4 (s : State) (a1) : (keyUpdate s a1).k4 = s.k4 := by
  simp [keyUpdate]
@[simp] theorem heartbeat_k4 (s : State) : (heartbeat s).k4 = s.k4 := by
  simp [heartbeat]
@[simp] theorem endSession_k4 (s : State) : (endSession s).k4 = s.k4 := by
  simp [endSession]
@[simp] theorem ideKm_k4 (s : State) (a1) (a2) (a3) (a4) : (ideKm s a1 a2 a3 a4).k4 = s.k4 := by
  (simp only [ideKm]; (repeat' split)) <;> simp [*]
@[simp] theorem State.setUpdate_k4 (s : State) (a1) : (State.setUpdate s a1).k4 = s.k4 := by
  rfl
@[simp] theorem requestUpdate_kept (k : K4) (s : State) (a1) (h : Kept k s.k4) : Kept k (requestUpdate s a1).k4 := by
  unfold requestUpdate
  refine State.pldm_kept _ _ _ h ?_
  split
  · simp only [State.reply_k4, State.setUpdate_k4, State.raiseKeep_k4]
    refine Kept.foldl _ _ _ _ (fun a e ha => setNv_erase_kept _ _ _ _ ha) (by simp [h])
  · simp [h]
@[simp] theorem firmwareData_kept (k : K4) (s : State) (a1) (a2) (a3) (h : Kept k s.k4) : Kept k (firmwareData s a1 a2 a3).k4 := by
  unfold firmwareData
  refine State.pldm_kept _ _ _ h ?_
  split
  · split
    · simp [setNv_write_kept, h]
    · simp [h]
  · simp [h]
@[simp] theorem verifyComplete_k4 (s : State) (a1) : (verifyComplete s a1).k4 = s.k4 := by
  unfold verifyComplete
  apply State.pldm_k4
  split
  · split <;> simp
  · simp
@[simp] theorem State.runs_k4 (s : State) (a1) (a2) : (State.runs s a1 a2).k4 = s.k4 := by
  rfl
@[simp] theorem State.markActive_kept (k : K4) (s : State) (a1) (h : Kept k s.k4) : Kept k (State.markActive s a1).k4 := by
  unfold State.markActive
  simp only []
  have hd : ∀ (d : Tab DirEntry) (u : State), Kept k u.k4 → Kept k (u.setNv (fun n => { n with dir := d })).k4 :=
    fun d u hu => State.setNv_kept k u _ hu id (fun y => ⟨y, Nat.le_refl _⟩) id
  have hs := hd (Tab.put s.nv.dir (2 * a1 + s.spareHalf a1)
    { active := true, seq := (Tab.get {} s.nv.dir (2 * a1 + (1 - s.spareHalf a1))).seq + 1 }) s h
  split
  · split
    · exact State.log_kept _ _ _ _ _ hs
    · split
      · rename_i hlt
        refine State.setNv_kept k _ _ hs id (fun y => ⟨Nat.min_le_left _ _, ?_⟩) id
        exact Nat.le_min.mpr ⟨y, Nat.le_of_lt hlt⟩
      · exact hs
  · exact hs
@[simp] theorem State.rebootStandby_kept (k : K4) (s : State) (h : Kept k s.k4) : Kept k (State.rebootStandby s).k4 := by
  simp [State.rebootStandby, h]
@[simp] theorem State.activate_kept (k : K4) (s : State) (a1) (h : Kept k s.k4) : Kept k (State.activate s a1).k4 := by
  simp only [State.activate]
  repeat' first
    | (with_reducible refine Kept.foldl _ _ _ _ ?_ ?_)
    | (with_reducible refine Kept.foldl_fst _ _ _ _ ?_ ?_)
    | intro _
    | split
  all_goals first
    | (simp [*]; done)
    | (simp only [Prod.ext_iff] at *; repeat (rename _ ∧ _ => hh; obtain ⟨h1, h2⟩ := hh); subst_vars; simp [*]; done)
    | rfl

@[simp] theorem activateFirmware_kept (k : K4) (s : State) (h : Kept k s.k4) : Kept k (activateFirmware s).k4 := by
  unfold activateFirmware
  refine State.pldm_kept _ _ _ h ?_
  split
  · simp only [State.reply_k4, State.setUpdate_k4]
    refine Kept.foldl _ _ _ _ (fun a e ha => ?_) (by simp [h])
    split
    · exact State.activate_kept _ _ _ ha
    · exact State.log_kept _ _ _ _ _ ha
  · simp [h]
@[simp] theorem beatOp_kept (k : K4) (s : State) (a1) (h : Kept k s.k4) : Kept k (beatOp s a1).k4 := by
  simp [beatOp, h]
@[simp] theorem hbwWrite_kept (k : K4) (s : State) (a1) (a2) (h : Kept k s.k4) : Kept k (hbwWrite s a1 a2).k4 := by
  simp [hbwWrite, h]
@[simp] theorem laneSwitch_kept (k : K4) (s : State) (a1) (h : Kept k s.k4) : Kept k (laneSwitch s a1).k4 := by
  simp [laneSwitch, h]
@[simp] theorem cpActivation_kept (k : K4) (s : State) (h : Kept k s.k4) : Kept k (cpActivation s).k4 := by
  simp [cpActivation, h]
@[simp] theorem lifeCycle_kept (k : K4) (s : State) (a1) (a2) (h : Kept k s.k4) : Kept k (lifeCycle s a1 a2).k4 := by
  unfold lifeCycle
  refine State.message_kept _ _ _ h ?_
  simp only []
  split
  · rename_i hc
    refine State.resetModule_kept _ _ ?_
    simp only [State.reply_k4]
    refine State.setNv_kept k _ _ (by simp [h]) ?_ ?_ ?_
    · intro y; simp only [Nv.transition]; split
      · exact y
      · split
        · exact flashErase_wf _ _ _ y
        · exact y
    · intro y; simp only [Nv.transition]; split
      · exact ⟨y, Nat.le_refl _⟩
      · split
        · exact ⟨y, Nat.le_refl _⟩
        · exact ⟨y, Nat.le_refl _⟩
    · intro y
      rw [y] at hc
      exact absurd hc.1 (by simp [transitionKeys])
  · generalize hu : State.reply _ _ = u
    have h' : Kept k u.k4 := by rw [← hu]; simp [h]
    exact h'
@[simp] theorem transitionNonce_k4 (s : State) : (transitionNonce s).k4 = s.k4 := by
  simp [transitionNonce]
@[simp] theorem unlock_k4 (s : State) (a1) : (unlock s a1).k4 = s.k4 := by
  simp [unlock]
@[simp] theorem State.corePlain_k4 (s : State) (a1) (a2) (a3) (a4) (a5) : (State.corePlain s a1 a2 a3 a4 a5).k4 = s.k4 := by
  rfl
@[simp] theorem State.plain_k4 (s : State) (a1) (a2) (a3) (a4) : (State.plain s a1 a2 a3 a4).k4 = s.k4 := by
  rfl
@[simp] theorem coreWrite_kept (k : K4) (s : State) (a1) (a2) (a3) (a4) (a5) (h : Kept k s.k4) : Kept k (coreWrite s a1 a2 a3 a4 a5).k4 := by
  unfold coreWrite
  simp only [k4_ite, kept_ite]
  repeat' (first | apply And.intro | intro _ | split)
  all_goals first | exact h | (simp [h]; done) | exact fenceWrite_kept _ _ _ _ _ h
@[simp] theorem keepWrite_kept (k : K4) (s : State) (a1) (a2) (a3) (a4) (h : Kept k s.k4) : Kept k (keepWrite s a1 a2 a3 a4).k4 := by
  simp [keepWrite, h]
@[simp] theorem keepBlockWrite_kept (k : K4) (s : State) (a1) (a2) (a3) (a4) (h : Kept k s.k4) : Kept k (keepBlockWrite s a1 a2 a3 a4).k4 := by
  simp [keepBlockWrite, h]
@[simp] theorem cxlpWrite_k4 (s : State) (a1) (a2) (a3) (a4) : (cxlpWrite s a1 a2 a3 a4).k4 = s.k4 := by
  simp [cxlpWrite]
@[simp] theorem canoWrite_k4 (s : State) (a1) (a2) (a3) (a4) : (canoWrite s a1 a2 a3 a4).k4 = s.k4 := by
  simp [canoWrite]
@[simp] theorem cruWrite_k4 (s : State) (a1) (a2) (a3) (a4) : (cruWrite s a1 a2 a3 a4).k4 = s.k4 := by
  simp [cruWrite]
@[simp] theorem blockWrite_kept (k : K4) (s : State) (a1) (a2) (a3) (a4) (a5) (h : Kept k s.k4) : Kept k (blockWrite s a1 a2 a3 a4 a5).k4 := by
  simp [blockWrite, h]
@[simp] theorem State.idleWrite_k4 (s : State) (a1) (a2) (a3) (a4) (a5) (a6) : (State.idleWrite s a1 a2 a3 a4 a5 a6).k4 = s.k4 := by
  simp [State.idleWrite]
@[simp] theorem regPutHalf_kept (k : K4) (s : State) (a1) (a2) (a3) (a4) (h : Kept k s.k4) : Kept k (regPutHalf s a1 a2 a3 a4).k4 := by
  (simp only [regPutHalf]; (repeat' split)) <;> simp [*]
@[simp] theorem regPut_kept (k : K4) (s : State) (a1) (a2) (a3) (h : Kept k s.k4) : Kept k (regPut s a1 a2 a3).k4 := by
  (simp only [regPut]; (repeat' split)) <;> simp [*]
@[simp] theorem regStore_kept (k : K4) (s : State) (a1) (a2) (a3) (a4) (h : Kept k s.k4) : Kept k (regStore s a1 a2 a3 a4).k4 := by
  simp [regStore, h]
@[simp] theorem State.setFlight_k4 (s : State) (a1) (a2) : (State.setFlight s a1 a2).k4 = s.k4 := by
  rfl
@[simp] theorem State.busResult_k4 (s : State) (a1) (a2) (a3) (a4) : (State.busResult s a1 a2 a3 a4).k4 = s.k4 := by
  rfl
@[simp] theorem State.applyNow_kept (k : K4) (s : State) (a1) (a2) (a3) (h : Kept k s.k4) : Kept k (State.applyNow s a1 a2 a3).k4 := by
  (simp only [State.applyNow]; (repeat' split)) <;> simp [*]
@[simp] theorem busGrant_kept (k : K4) (s : State) (h : Kept k s.k4) : Kept k (busGrant s).k4 := by
  (simp only [busGrant]; (repeat' split)) <;> simp [*]
@[simp] theorem combAccess_kept (k : K4) (s : State) (a1) (h : Kept k s.k4) : Kept k (combAccess s a1).k4 := by
  (simp only [combAccess]; (repeat' split)) <;> simp [*]
@[simp] theorem cellarAccess_kept (k : K4) (s : State) (a1) (h : Kept k s.k4) : Kept k (cellarAccess s a1).k4 := by
  (simp only [cellarAccess]; (repeat' split)) <;> simp [*]
@[simp] theorem State.loadDone_k4 (s : State) (a1) (a2) (a3) (a4) : (State.loadDone s a1 a2 a3 a4).k4 = s.k4 := by
  (simp only [State.loadDone]; (repeat' split)) <;> simp [*]
@[simp] theorem State.storeDone_k4 (s : State) (a1) (a2) (a3) (a4) : (State.storeDone s a1 a2 a3 a4).k4 = s.k4 := by
  simp [State.storeDone]
@[simp] theorem serviceCompletion_k4 (s : State) (a1) : (serviceCompletion s a1).k4 = s.k4 := by
  (simp only [serviceCompletion]; (repeat' split)) <;> simp [*]
@[simp] theorem State.withFetchWord_k4 (s : State) (a1) (a2) : (State.withFetchWord s a1 a2).k4 = s.k4 := by
  rfl

/-! ### Slot instructions, and the issue of a bundle -/

/-- A slot's meaning changes none of the four parts. -/
def Sem.keeps (m : Sem) : Prop := ∀ (b : BC) (s : State), (m.eff b s).k4 = s.k4 ∧ (m.onStall b s).k4 = s.k4

theorem semNop_keeps : semNop.keeps := fun b s => ⟨rfl, rfl⟩
theorem semSAdd_keeps : semSAdd.keeps := fun b s => ⟨rfl, rfl⟩
theorem semSSub_keeps : semSSub.keeps := fun b s => ⟨rfl, rfl⟩
theorem semSAnd_keeps : semSAnd.keeps := fun b s => ⟨rfl, rfl⟩
theorem semSOr_keeps : semSOr.keeps := fun b s => ⟨rfl, rfl⟩
theorem semSXor_keeps : semSXor.keeps := fun b s => ⟨rfl, rfl⟩
theorem semSShl_keeps : semSShl.keeps := fun b s => ⟨rfl, rfl⟩
theorem semSShr_keeps : semSShr.keeps := fun b s => ⟨rfl, rfl⟩
theorem semSSra_keeps : semSSra.keeps := fun b s => ⟨rfl, rfl⟩
theorem semSMul_keeps : semSMul.keeps := fun b s => ⟨rfl, rfl⟩
theorem semSMulh_keeps : semSMulh.keeps := fun b s => ⟨rfl, rfl⟩
theorem semSMin_keeps : semSMin.keeps := fun b s => ⟨rfl, rfl⟩
theorem semSMax_keeps : semSMax.keeps := fun b s => ⟨rfl, rfl⟩
theorem semSMinu_keeps : semSMinu.keeps := fun b s => ⟨rfl, rfl⟩
theorem semSMaxu_keeps : semSMaxu.keeps := fun b s => ⟨rfl, rfl⟩
theorem semSAddi_keeps : semSAddi.keeps := fun b s => ⟨rfl, rfl⟩
theorem semSAndi_keeps : semSAndi.keeps := fun b s => ⟨rfl, rfl⟩
theorem semSOri_keeps : semSOri.keeps := fun b s => ⟨rfl, rfl⟩
theorem semSXori_keeps : semSXori.keeps := fun b s => ⟨rfl, rfl⟩
theorem semSShli_keeps : semSShli.keeps := fun b s => ⟨rfl, rfl⟩
theorem semSShri_keeps : semSShri.keeps := fun b s => ⟨rfl, rfl⟩
theorem semSSrai_keeps : semSSrai.keeps := fun b s => ⟨rfl, rfl⟩
theorem semSMuli_keeps : semSMuli.keeps := fun b s => ⟨rfl, rfl⟩
theorem semSLi_keeps : semSLi.keeps := fun b s => ⟨rfl, rfl⟩
theorem semSLix_keeps : semSLix.keeps := fun b s => ⟨rfl, rfl⟩
theorem semSRdct_keeps : semSRdct.keeps := fun b s => ⟨rfl, rfl⟩
theorem semSRdjt_keeps : semSRdjt.keeps := fun b s => ⟨rfl, rfl⟩
theorem semSRdcyc_keeps : semSRdcyc.keeps := fun b s => ⟨rfl, rfl⟩
theorem semSRdrep_keeps : semSRdrep.keeps := fun b s => ⟨rfl, rfl⟩
theorem semSRdns_keeps : semSRdns.keeps := fun b s => ⟨rfl, rfl⟩
theorem semSClrns_keeps : semSClrns.keeps := fun b s => ⟨rfl, rfl⟩
theorem semSRdctx_keeps : semSRdctx.keeps := fun b s => ⟨rfl, rfl⟩
theorem semCSet_keeps : semCSet.keeps := fun b s => ⟨rfl, rfl⟩
theorem semCSeti_keeps : semCSeti.keeps := fun b s => ⟨rfl, rfl⟩
theorem semCStep_keeps : semCStep.keeps := fun b s => ⟨rfl, rfl⟩
theorem semCRd_keeps : semCRd.keeps := fun b s => ⟨rfl, rfl⟩
theorem semBr_keeps : semBr.keeps := fun b s => ⟨rfl, rfl⟩
theorem semBrC_keeps : semBrC.keeps := fun b s => ⟨rfl, rfl⟩
theorem semBrNc_keeps : semBrNc.keeps := fun b s => ⟨rfl, rfl⟩
theorem semBrR_keeps : semBrR.keeps := fun b s => ⟨rfl, rfl⟩
theorem semCall_keeps : semCall.keeps := fun b s => ⟨rfl, rfl⟩
theorem semLoop_keeps : semLoop.keeps := fun b s => ⟨rfl, rfl⟩
theorem semWaitAt_keeps : semWaitAt.keeps := fun b s => ⟨by simp [semWaitAt], rfl⟩
theorem semWaitQ_keeps : semWaitQ.keeps := fun b s => ⟨by simp [semWaitQ], rfl⟩
theorem semWaitF_keeps : semWaitF.keeps := fun b s => ⟨by simp [semWaitF], rfl⟩
theorem semWaitSb_keeps : semWaitSb.keeps := fun b s => ⟨by simp [semWaitSb], rfl⟩
theorem semTaskStart_keeps : semTaskStart.keeps := fun b s => ⟨rfl, rfl⟩
theorem semTaskEnd_keeps : semTaskEnd.keeps := fun b s => ⟨rfl, rfl⟩
theorem semReplayWait_keeps : semReplayWait.keeps := fun b s => ⟨by simp [semReplayWait], rfl⟩
theorem semIcachePreload_keeps : semIcachePreload.keeps := fun b s => ⟨by simp [semIcachePreload], rfl⟩
theorem semIcacheLock_keeps : semIcacheLock.keeps := fun b s => ⟨by simp [semIcacheLock], rfl⟩
theorem semIcacheUnlock_keeps : semIcacheUnlock.keeps := fun b s => ⟨rfl, rfl⟩
theorem semMGang_keeps : semMGang.keeps := fun b s => ⟨rfl, rfl⟩
theorem semMMask_keeps : semMMask.keeps := fun b s => ⟨rfl, rfl⟩
theorem semMPass_keeps : semMPass.keeps := fun b s => ⟨rfl, by first | rfl | simp [semMPass]⟩
theorem semMPassr_keeps : semMPassr.keeps := fun b s => ⟨rfl, by first | rfl | simp [semMPassr]⟩
theorem semMFree_keeps : semMFree.keeps := fun b s => ⟨rfl, rfl⟩
theorem semTmLd_keeps : semTmLd.keeps := fun b s => ⟨rfl, by first | rfl | simp [semTmLd]⟩
theorem semTmSt_keeps : semTmSt.keeps := fun b s => ⟨rfl, by first | rfl | simp [semTmSt]⟩
theorem semMvCfg_keeps : semMvCfg.keeps := fun b s => ⟨rfl, rfl⟩
theorem semMvLdv_keeps : semMvLdv.keeps := fun b s => ⟨rfl, rfl⟩
theorem semMvPass_keeps : semMvPass.keeps := fun b s => ⟨rfl, rfl⟩
theorem semMvFree_keeps : semMvFree.keeps := fun b s => ⟨rfl, rfl⟩
theorem semVOp_keeps : semVOp.keeps := by
  intro b s
  refine ⟨rfl, ?_⟩
  simp only [semVOp]
  cases svuDstTiles (svuOf b) <;> cases svuSrcTiles (svuOf b) <;> simp
theorem semVBld_keeps : semVBld.keeps := fun b s => ⟨rfl, by first | rfl | simp [semVBld]⟩
theorem semVExt_keeps : semVExt.keeps := fun b s => ⟨by (simp only [semVExt]; (repeat' split)) <;> simp [*], rfl⟩
theorem semVSeed_keeps : semVSeed.keeps := fun b s => ⟨rfl, rfl⟩
theorem semEpRun_keeps : semEpRun.keeps := fun b s => ⟨rfl, by first | rfl | simp [semEpRun]⟩
theorem semWOpen_keeps : semWOpen.keeps := fun b s => ⟨by simp [semWOpen], rfl⟩
theorem semWClose_keeps : semWClose.keeps := fun b s => ⟨by simp [semWClose], rfl⟩
theorem semFStart_keeps : semFStart.keeps := fun b s => ⟨rfl, rfl⟩
theorem semFStop_keeps : semFStop.keeps := fun b s => ⟨rfl, rfl⟩
theorem semFTake_keeps : semFTake.keeps := fun b s => ⟨rfl, rfl⟩
theorem semSpOpen_keeps : semSpOpen.keeps := fun b s => ⟨by simp [semSpOpen], rfl⟩
theorem semConfirm_keeps : semConfirm.keeps := fun b s => ⟨by simp [semConfirm], rfl⟩
theorem semSquash_keeps : semSquash.keeps := fun b s => ⟨by simp [semSquash], rfl⟩
theorem semSpTrain_keeps : semSpTrain.keeps := fun b s => ⟨rfl, rfl⟩
theorem putSem_keeps (k n) : (putSem k n).keeps := by
  intro b s
  refine ⟨?_, rfl⟩
  show (putIssue k n b s).k4 = _
  unfold putIssue; simp
theorem semPut_keeps : semPut.keeps := putSem_keeps _ _
theorem semPutAdd_keeps : semPutAdd.keeps := putSem_keeps _ _
theorem semGet_keeps : semGet.keeps := fun b s => ⟨rfl, rfl⟩
theorem semXSig_keeps : semXSig.keeps := fun b s => ⟨by simp [semXSig], rfl⟩
theorem semXSigr_keeps : semXSigr.keeps := fun b s => ⟨by simp [semXSigr], rfl⟩
theorem semQSend_keeps : semQSend.keeps := fun b s => ⟨by simp [semQSend], rfl⟩
theorem semQPop_keeps : semQPop.keeps := fun b s => ⟨by (simp only [semQPop]; (repeat' split)) <;> simp [*], rfl⟩
theorem semQSkip_keeps : semQSkip.keeps := fun b s => ⟨rfl, rfl⟩
theorem semQStat_keeps : semQStat.keeps := fun b s => ⟨rfl, rfl⟩
theorem semQSstat_keeps : semQSstat.keeps := fun b s => ⟨rfl, rfl⟩
theorem semCmtArrive_keeps : semCmtArrive.keeps := fun b s => ⟨rfl, rfl⟩
theorem semAbsent_keeps : semAbsent.keeps := fun b s => ⟨rfl, rfl⟩

theorem slotInstr_keeps {ins : Instr} {w : Iss} {op : W32} {m : Sem} (h : slotInstr ins = some (w, op, m)) : m.keeps := by
  cases ins
  case nop => cases h; exact semNop_keeps
  case sAdd => cases h; exact semSAdd_keeps
  case sSub => cases h; exact semSSub_keeps
  case sAnd => cases h; exact semSAnd_keeps
  case sOr => cases h; exact semSOr_keeps
  case sXor => cases h; exact semSXor_keeps
  case sShl => cases h; exact semSShl_keeps
  case sShr => cases h; exact semSShr_keeps
  case sSra => cases h; exact semSSra_keeps
  case sMul => cases h; exact semSMul_keeps
  case sMulh => cases h; exact semSMulh_keeps
  case sMin => cases h; exact semSMin_keeps
  case sMax => cases h; exact semSMax_keeps
  case sMinu => cases h; exact semSMinu_keeps
  case sMaxu => cases h; exact semSMaxu_keeps
  case sAddi => cases h; exact semSAddi_keeps
  case sAndi => cases h; exact semSAndi_keeps
  case sOri => cases h; exact semSOri_keeps
  case sXori => cases h; exact semSXori_keeps
  case sShli => cases h; exact semSShli_keeps
  case sShri => cases h; exact semSShri_keeps
  case sSrai => cases h; exact semSSrai_keeps
  case sMuli => cases h; exact semSMuli_keeps
  case sLi => cases h; exact semSLi_keeps
  case sLix => cases h; exact semSLix_keeps
  case sRdct => cases h; exact semSRdct_keeps
  case sRdjt => cases h; exact semSRdjt_keeps
  case sRdcyc => cases h; exact semSRdcyc_keeps
  case sRdrep => cases h; exact semSRdrep_keeps
  case sRdns => cases h; exact semSRdns_keeps
  case sClrns => cases h; exact semSClrns_keeps
  case sRdctx => cases h; exact semSRdctx_keeps
  case cSet => cases h; exact semCSet_keeps
  case cSeti => cases h; exact semCSeti_keeps
  case cStep => cases h; exact semCStep_keeps
  case cRd => cases h; exact semCRd_keeps
  case br => cases h; exact semBr_keeps
  case brC => cases h; exact semBrC_keeps
  case brNc => cases h; exact semBrNc_keeps
  case brR => cases h; exact semBrR_keeps
  case call => cases h; exact semCall_keeps
  case loop => cases h; exact semLoop_keeps
  case waitAt => cases h; exact semWaitAt_keeps
  case waitQ => cases h; exact semWaitQ_keeps
  case waitF => cases h; exact semWaitF_keeps
  case waitSb => cases h; exact semWaitSb_keeps
  case taskStart => cases h; exact semTaskStart_keeps
  case taskEnd => cases h; exact semTaskEnd_keeps
  case replayWait => cases h; exact semReplayWait_keeps
  case icachePreload => cases h; exact semIcachePreload_keeps
  case icacheLock => cases h; exact semIcacheLock_keeps
  case icacheUnlock => cases h; exact semIcacheUnlock_keeps
  case mGang => cases h; exact semMGang_keeps
  case mMask => cases h; exact semMMask_keeps
  case mPass => cases h; exact semMPass_keeps
  case mPassr => cases h; exact semMPassr_keeps
  case mFree => cases h; exact semMFree_keeps
  case tmLd => cases h; exact semTmLd_keeps
  case tmSt => cases h; exact semTmSt_keeps
  case mvCfg => cases h; exact semMvCfg_keeps
  case mvLdv => cases h; exact semMvLdv_keeps
  case mvPass => cases h; exact semMvPass_keeps
  case mvFree => cases h; exact semMvFree_keeps
  case vOp => cases h; exact semVOp_keeps
  case vBld => cases h; exact semVBld_keeps
  case vExt => cases h; exact semVExt_keeps
  case vSeed => cases h; exact semVSeed_keeps
  case epRun => cases h; exact semEpRun_keeps
  case wOpen => cases h; exact semWOpen_keeps
  case wClose => cases h; exact semWClose_keeps
  case fStart => cases h; exact semFStart_keeps
  case fStop => cases h; exact semFStop_keeps
  case fTake => cases h; exact semFTake_keeps
  case spOpen => cases h; exact semSpOpen_keeps
  case confirm => cases h; exact semConfirm_keeps
  case squash => cases h; exact semSquash_keeps
  case spTrain => cases h; exact semSpTrain_keeps
  case put => cases h; exact semPut_keeps
  case putAdd => cases h; exact semPutAdd_keeps
  case get => cases h; exact semGet_keeps
  case xSig => cases h; exact semXSig_keeps
  case xSigr => cases h; exact semXSigr_keeps
  case qSend => cases h; exact semQSend_keeps
  case qPop => cases h; exact semQPop_keeps
  case qSkip => cases h; exact semQSkip_keeps
  case qStat => cases h; exact semQStat_keeps
  case qSstat => cases h; exact semQSstat_keeps
  case cmtArrive => cases h; exact semCmtArrive_keeps
  case sLd8 => cases h; exact semAbsent_keeps
  case sLd16 => cases h; exact semAbsent_keeps
  case sLd32 => cases h; exact semAbsent_keeps
  case sLd64 => cases h; exact semAbsent_keeps
  case sSt8 => cases h; exact semAbsent_keeps
  case sSt16 => cases h; exact semAbsent_keeps
  case sSt32 => cases h; exact semAbsent_keeps
  case sSt64 => cases h; exact semAbsent_keeps
  case sWfe => cases h; exact semAbsent_keeps
  case sRdcsr => cases h; exact semAbsent_keeps
  case sWrcsr => cases h; exact semAbsent_keeps
  case sEret => cases h; exact semAbsent_keeps
  all_goals cases h

theorem parts_keeps {l : List Instr} {p : Part} (h : p ∈ parts l) : p.sem.keeps := by
  simp only [parts, List.mem_filterMap] at h
  obtain ⟨sl, -, h⟩ := h
  have h1 := List.mem_of_getLast? h
  simp only [List.mem_filter, List.mem_filterMap] at h1
  obtain ⟨⟨i, -, hi⟩, -⟩ := h1
  split at hi
  · rename_i hs; cases hi; exact slotInstr_keeps hs
  · cases hi

theorem k4_foldl_mem {α : Type} (g : State → α → State) (l : List α) (s : State) (h : ∀ a x, x ∈ l → (g a x).k4 = a.k4) :
    (l.foldl g s).k4 = s.k4 := by
  induction l generalizing s with
  | nil => rfl
  | cons x l ih =>
    simp only [List.foldl_cons]
    rw [ih _ (fun a y hy => h a y (List.mem_cons_of_mem _ hy)), h s x (List.mem_cons_self ..)]

theorem issueBundle_k4 (s : State) (i n : Nat) (hdr : W16) (ps : List Part) (h : ∀ p ∈ ps, p.sem.keeps) :
    (s.issueBundle i n hdr ps).k4 = s.k4 := by
  simp only [State.issueBundle, State.bundleEnd_k4]
  rw [k4_foldl_mem _ _ _ (fun a p hp => (h p hp _ _).1)]
  simp

theorem goAhead_k4 (s : State) (i n : Nat) (hdr : W16) (ps : List Part) (a : State) (done : List Slot) (h : ∀ p ∈ ps, p.sem.keeps)
    {t : State} {d : List Slot} (hg : goAhead s i n hdr ps a done = some (t, d)) : t.k4 = a.k4 := by
  induction ps generalizing a done with
  | nil => simp [goAhead] at hg
  | cons p r ih =>
    unfold goAhead at hg
    split at hg
    · simp only [Option.some.injEq, Prod.mk.injEq] at hg; rw [← hg.1]
    · rw [ih _ _ (fun q hq => h q (List.mem_cons_of_mem _ hq)) hg, (h p (List.mem_cons_self ..) _ _).1]

theorem presentPower_k4 (s : State) (i n : Nat) (hdr : W16) (ps : List Part) (h : ∀ p ∈ ps, p.sem.keeps) :
    (s.presentPower i n hdr ps).k4 = s.k4 := by
  unfold State.presentPower
  simp only []
  split
  · simp
  · split
    · simp
    · split
      · rename_i hg
        have hu : ∀ p ∈ ps.filter Part.unit, p.sem.keeps := fun p hp => h p (List.mem_filter.mp hp).1
        simp [goAhead_k4 _ _ _ _ _ _ _ hu hg]
      · exact issueBundle_k4 _ _ _ _ _ h

theorem present_k4 (s : State) (i n : Nat) (hdr : W16) (ps : List Part) (h : ∀ p ∈ ps, p.sem.keeps) :
    (s.present i n hdr ps).k4 = s.k4 := by
  have h' : ∀ p ∈ (s.ctx i n).left ps, p.sem.keeps := fun p hp => h p (List.mem_filter.mp hp).1
  unfold State.present
  simp only []
  have hst : (List.foldl (fun a (p : Part) => p.sem.onStall (p.at s i n hdr) a) (s.stallOn i)
      (((s.ctx i n).left ps).filter (fun p => p.sem.stall (p.at s i n hdr)))).k4 = (s.stallOn i).k4 :=
    k4_foldl_mem _ _ _ (fun a p hp => (h' p (List.mem_filter.mp hp).1 _ _).2)
  split
  · split
    · simp
    · simp [issueBundle_k4 _ _ _ _ _ h']
  · split
    · rw [hst]; simp
    · exact presentPower_k4 _ _ _ _ _ h'

theorem issueSlot_kept (k : K4) (s : State) (i n : Nat) (hdr : W16) (more : Bool) (ins : Instr) (h : Kept k s.k4) :
    Kept k (s.issueSlot i n hdr more ins).k4 := by
  unfold State.issueSlot
  split
  · simp [h]
  · split
    · simp only []
      rw [present_k4 _ _ _ _ _ (fun p hp => parts_keeps hp)]
      simp [h]
    · exact h

/-! ### Processor instructions -/

/-- An instruction of the Adsiem-S processors changes none of the four parts. -/
def PIn.keeps (m : PIn) : Prop := ∀ (s : State) (p : Nat) (op : W32), (m.eff s p op).k4 = s.k4

theorem pNone_keeps : pNone.keeps := fun s p op => by first | rfl | (simp [pNone]; done) | ((simp only [pNone]; (repeat' split)) <;> simp [*])
theorem pR_keeps (f lat) : (pR f lat).keeps := fun s p op => by first | rfl | (simp [pR]; done) | ((simp only [pR]; (repeat' split)) <;> simp [*])
theorem pI_keeps (f lat) : (pI f lat).keeps := fun s p op => by first | rfl | (simp [pI]; done) | ((simp only [pI]; (repeat' split)) <;> simp [*])
theorem pRd_keeps (v) : (pRd v).keeps := fun s p op => by first | rfl | (simp [pRd]; done) | ((simp only [pRd]; (repeat' split)) <;> simp [*])
theorem pLi_keeps : pLi.keeps := fun s p op => by first | rfl | (simp [pLi]; done) | ((simp only [pLi]; (repeat' split)) <;> simp [*])
theorem pLix_keeps : pLix.keeps := fun s p op => by first | rfl | (simp [pLix]; done) | ((simp only [pLix]; (repeat' split)) <;> simp [*])
theorem pNop_keeps : pNop.keeps := fun s p op => by first | rfl | (simp [pNop]; done) | ((simp only [pNop]; (repeat' split)) <;> simp [*])
theorem pCSet_keeps : pCSet.keeps := fun s p op => by first | rfl | (simp [pCSet]; done) | ((simp only [pCSet]; (repeat' split)) <;> simp [*])
theorem pCSeti_keeps : pCSeti.keeps := fun s p op => by first | rfl | (simp [pCSeti]; done) | ((simp only [pCSeti]; (repeat' split)) <;> simp [*])
theorem pCStep_keeps : pCStep.keeps := fun s p op => by first | rfl | (simp [pCStep]; done) | ((simp only [pCStep]; (repeat' split)) <;> simp [*])
theorem pCRd_keeps : pCRd.keeps := fun s p op => by first | rfl | (simp [pCRd]; done) | ((simp only [pCRd]; (repeat' split)) <;> simp [*])
theorem pBr_keeps : pBr.keeps := fun s p op => by first | rfl | (simp [pBr]; done) | ((simp only [pBr]; (repeat' split)) <;> simp [*])
theorem pBrC_keeps : pBrC.keeps := fun s p op => by first | rfl | (simp [pBrC]; done) | ((simp only [pBrC]; (repeat' split)) <;> simp [*])
theorem pBrNc_keeps : pBrNc.keeps := fun s p op => by first | rfl | (simp [pBrNc]; done) | ((simp only [pBrNc]; (repeat' split)) <;> simp [*])
theorem pBrR_keeps : pBrR.keeps := fun s p op => by first | rfl | (simp [pBrR]; done) | ((simp only [pBrR]; (repeat' split)) <;> simp [*])
theorem pCall_keeps : pCall.keeps := fun s p op => by first | rfl | (simp [pCall]; done) | ((simp only [pCall]; (repeat' split)) <;> simp [*])
theorem pLoop_keeps : pLoop.keeps := fun s p op => by first | rfl | (simp [pLoop]; done) | ((simp only [pLoop]; (repeat' split)) <;> simp [*])
theorem pLoad_keeps (n) : (pLoad n).keeps := fun s p op => by first | rfl | (simp [pLoad]; done) | ((simp only [pLoad]; (repeat' split)) <;> simp [*])
theorem pStore_keeps (n) : (pStore n).keeps := fun s p op => by first | rfl | (simp [pStore]; done) | ((simp only [pStore]; (repeat' split)) <;> simp [*])
theorem pRdcsr_keeps : pRdcsr.keeps := fun s p op => by first | rfl | (simp [pRdcsr]; done) | ((simp only [pRdcsr]; (repeat' split)) <;> simp [*])
theorem pWrcsr_keeps : pWrcsr.keeps := fun s p op => by first | rfl | (simp [pWrcsr]; done) | ((simp only [pWrcsr]; (repeat' split)) <;> simp [*])
theorem pWfe_keeps : pWfe.keeps := fun s p op => by first | rfl | (simp [pWfe]; done) | ((simp only [pWfe]; (repeat' split)) <;> simp [*])
theorem pEret_keeps : pEret.keeps := fun s p op => by first | rfl | (simp [pEret]; done) | ((simp only [pEret]; (repeat' split)) <;> simp [*])
theorem pRdct_keeps : pRdct.keeps := fun s p op => by first | rfl | (simp [pRdct]; done) | ((simp only [pRdct]; (repeat' split)) <;> simp [*])
theorem pRdjt_keeps : pRdjt.keeps := fun s p op => by first | rfl | (simp [pRdjt]; done) | ((simp only [pRdjt]; (repeat' split)) <;> simp [*])
theorem pRdcyc_keeps : pRdcyc.keeps := fun s p op => by first | rfl | (simp [pRdcyc]; done) | ((simp only [pRdcyc]; (repeat' split)) <;> simp [*])

theorem procRun_kept (k : K4) (s : State) (p code : Nat) (m : PIn) (op : W32) (h : m.keeps) (h0 : Kept k s.k4) :
    Kept k (s.procRun p code m op).k4 := by
  unfold State.procRun
  simp only []
  split
  · exact h0
  · split
    · simp [h0]
    · split
      · simp [h0]
      · split
        · simp [h0]
        · split
          · exact h0
          · split <;> simp [h _ _ _, h0]

theorem issueAt_kept (k : K4) (w : Iss) (ins : Instr) (code : Nat) (m : PIn) (op : W32) (s : State) (h : m.keeps) (h0 : Kept k s.k4) :
    Kept k (issueAt w ins code m op s).k4 := by
  unfold issueAt
  split
  · exact issueSlot_kept _ _ _ _ _ _ _ h0
  · exact procRun_kept _ _ _ _ _ _ h h0

end Sys2Proof.Machine
end

