-- ==== Sys2Proof/Laws/Frame.lean ====
section
/-! SUPPORT.
What the issue of a bundle whose one slot writes a scalar register, and a write of a Comb row, leave unchanged. -/

namespace Sys2Proof.Machine

/-- A row write changes the Comb by that row alone. -/
theorem writeComb_comb (s : State) (i r : Nat) (v : Row) :
    (s.writeComb i r v).comb = writeRow s.comb (combAddr i ((s.core i).phys r)) v := by
  have h : ∀ u : State, (u.watchWrite i r).comb = u.comb := fun u => congrArg K4.comb (State.watchWrite_k4 u i r)
  rw [State.writeComb, h, State.putPhys]
  generalize writeRow s.comb (combAddr i ((s.core i).phys r)) v = m
  rfl

/-- The cache line's use touches the instruction cache alone. -/
theorem Core.useLine_form (k : Core) (l : Nat) : ∃ ic st, k.useLine l = { k with icache := ic, stamp := st } := by
  unfold Core.useLine
  split
  · exact ⟨_, _, rfl⟩
  · split
    · exact ⟨_, _, rfl⟩
    · exact ⟨_, _, rfl⟩

/-- The start of an issue: charges, the line's use, the context's own marks. -/
theorem bundleBegin_form (s : State) (i n : Nat) (hdr : W16) : ∃ ch ic st,
    s.bundleBegin i n hdr = ({ s with charges := ch }).setCore i { s.core i with
      icache := ic, stamp := st, nextIssue := s.cycOf i + 1,
      ctx := Tab.put (s.core i).ctx n { s.ctx i n with
        last := (s.ctx i n).pc, timed := bit hdr 14, fresh := false, gather := [], gone := [] } } := by
  unfold State.bundleBegin
  obtain ⟨ic, st, h⟩ := Core.useLine_form (s.core i) ((s.ctx i n).pc.toNat / 8)
  simp only []
  split
  · refine ⟨s.charges, ic, st, ?_⟩
    simp only [State.modCore, h]
    rfl
  · refine ⟨Tab.put s.charges (4 * (s.cycOf i / 256) + dieOf i) (s.charged (dieOf i) (s.cycOf i / 256) + tokensOf hdr), ic, st, ?_⟩
    have hk : ∀ ch : Tab Nat, State.core { s with charges := ch } i = s.core i := fun _ => rfl
    simp only [State.modCore, hk, h]
    rfl

/-- A counted event of a core touches its counter and, on saturation, one event source. -/
theorem count48_form (s : State) (i off n : Nat) : ∃ rg mk,
    s.count48 i off n = ({ s with regs := rg, marks := mk }).setCore i ((s.core i).setReg off (satCount 48 63 n ((s.core i).reg off)).1) ∧
    ∀ o : Nat, o ≠ blkEVC (dieOf i) + 0x1000 + 8 * (8 * posOf i + 7) → (State.reg { s with regs := rg, marks := mk } o) = s.reg o := by
  unfold State.count48
  simp only
  split
  · unfold State.raiseCore
    split
    · exact ⟨s.regs, _, rfl, fun _ _ => rfl⟩
    · refine ⟨_, _, rfl, ?_⟩
      intro o ho
      exact (Tab.get_put _ _ _ _ _).trans (if_neg ho)
  · exact ⟨s.regs, _, rfl, fun _ _ => rfl⟩

theorem setCore_regs_twice (s : State) (i : Nat) (rg : Tab W64) (mk : List (Nat × Nat)) (k k' : Core) :
    ({ s.setCore i k with regs := rg, marks := mk }).setCore i k' = ({ s with regs := rg, marks := mk }).setCore i k' := by
  simp [State.setCore, Tab.put_put]

/-- A fill request touches the fills and the counter of credits. -/
theorem startFill_form (s : State) (i l c : Nat) (lk : Bool) : ∃ rg mk cr fl,
    s.startFill i l c lk = ({ s with regs := rg, marks := mk }).setCore i { s.core i with fills := fl, regs := cr } ∧
    (∀ o : Nat, o ≠ 0x710 → (Core.reg { s.core i with regs := cr } o) = (s.core i).reg o) ∧
    ∀ o : Nat, o ≠ blkEVC (dieOf i) + 0x1000 + 8 * (8 * posOf i + 7) → (State.reg { s with regs := rg, marks := mk } o) = s.reg o := by
  unfold State.startFill
  simp only
  split
  · generalize hf : (s.core i).fills ++ [⟨l, s.cycOf i, lk, c, decide ((s.core i).creditsUsed < 16)⟩] = fl
    obtain ⟨rg, mk, h, h'⟩ := count48_form (s.setCore i { s.core i with fills := fl }) i 0x710 1
    refine ⟨rg, mk, Tab.put (s.core i).regs 0x710 (satCount 48 63 1 ((s.core i).reg 0x710)).1, fl, ?_, ?_, h'⟩
    · have hm : s.modCore i (fun k => { k with
          fills := k.fills ++ [⟨l, s.cycOf i, lk, c, decide ((s.core i).creditsUsed < 16)⟩] }) =
          s.setCore i { s.core i with fills := fl } := by rw [← hf]; rfl
      rw [hm, h]
      simp only [State.core_setCore_self]
      exact setCore_regs_twice s i rg mk _ _
    · intro o ho
      simp [Core.reg, Tab.get_put, ho]
  · exact ⟨s.regs, s.marks, (s.core i).regs, _, rfl, fun _ _ => rfl, fun _ _ => rfl⟩

/-- The context after the end action of its loops. -/
theorem follow_form (x : Ctx) (pc : W32) (jump : Option (W32 × Nat)) : ∃ c pc', x.follow pc jump = { x with c := c, pc := pc' } ∧
    (c = x.c ∨ ∃ j, x.loopAt pc = some j ∧ c = Tab.put x.c j (if x.creg j = 1 then 0 else x.creg j - 1)) := by
  unfold Ctx.follow
  split
  · exact ⟨_, _, rfl, Or.inl rfl⟩
  · split
    · exact ⟨_, _, rfl, Or.inl rfl⟩
    · split
      · rename_i h; exact ⟨_, _, rfl, Or.inr ⟨_, ‹_›, by simp [Ctx.setCreg, h]⟩⟩
      · rename_i h; exact ⟨_, _, rfl, Or.inr ⟨_, ‹_›, by rw [if_neg h]; rfl⟩⟩

/-- The end of an issue: the context goes on, the next line may be prefetched. -/
theorem bundleEnd_form (s : State) (i n : Nat) (hdr : W16) (c : Nat) (pc : W32) (jump : Option (W32 × Nat)) : ∃ ni,
    let t := s.setCore i { (s.core i).modCtx n (fun x => x.follow pc jump) with nextIssue := ni }
    s.bundleEnd i n hdr c pc jump = t ∨ s.bundleEnd i n hdr c pc jump = t.startFill i (pc.toNat / 8 + 1) 4 false := by
  unfold State.bundleEnd
  rcases jump with _ | ⟨a, b⟩
  · simp only
    split
    · exact ⟨_, Or.inl rfl⟩
    · exact ⟨_, Or.inr rfl⟩
  · simp only
    split
    · exact ⟨_, Or.inl rfl⟩
    · exact ⟨_, Or.inr rfl⟩

/-- The whole form of the state after a bundle that writes one scalar register. -/
theorem issued_writeReg_form (s : State) (i n : Nat) (hdr : W16) (jump : Option (W32 × Nat)) (rd : Nat) (v : W64) (lat : Nat) :
    ∃ ch ic st ni cr fl rg mk lt c pc,
      s.issued i n hdr jump (fun u => u.writeReg i n rd v lat) = ({ s with charges := ch, regs := rg, marks := mk }).setCore i { s.core i with
        icache := ic, stamp := st, nextIssue := ni, regs := cr, fills := fl,
        ctx := Tab.put (s.core i).ctx n { s.ctx i n with
          s := Tab.put (s.ctx i n).s rd v, c := c, pc := pc, late := lt,
          last := (s.ctx i n).pc, timed := bit hdr 14, fresh := false, gather := [], gone := [] } } ∧
      (c = (s.ctx i n).c ∨ ∃ j, (s.ctx i n).loopAt (s.ctx i n).pc = some j ∧
        c = Tab.put (s.ctx i n).c j (if (s.ctx i n).creg j = 1 then 0 else (s.ctx i n).creg j - 1)) ∧
      (∀ o : Nat, o ≠ 0x710 → (Core.reg { s.core i with regs := cr } o) = (s.core i).reg o) ∧
      ∀ o : Nat, o ≠ blkEVC (dieOf i) + 0x1000 + 8 * (8 * posOf i + 7) → (State.reg { s with regs := rg, marks := mk } o) = s.reg o := by
  obtain ⟨ch, ic, st, h⟩ := bundleBegin_form s i n hdr
  unfold State.issued
  rw [h]
  simp only [State.writeReg, State.modCtx, State.modCore, State.core_setCore_self, setCore_twice, Core.modCtx, Core.setCtx,
    Core.getCtx, Tab.get_put_self, Tab.put_put]
  have hcyc : ∀ k, State.cycOf (State.setCore { s with charges := ch } i k) i = s.cycOf i := fun _ => rfl
  simp only [hcyc]
  obtain ⟨c, pc, hf, hc⟩ := follow_form { Ctx.setSreg { s.ctx i n with
        last := (s.ctx i n).pc, timed := bit hdr 14, fresh := false, gather := [], gone := [] } rd v with
        late := if lat = 1 then Tab.erase (s.ctx i n).late rd else Tab.put (s.ctx i n).late rd (s.cycOf i + lat) } (s.ctx i n).pc jump
  simp only [Ctx.setSreg] at hf ⊢
  obtain ⟨ni, he⟩ := bundleEnd_form (State.setCore { s with charges := ch } i { s.core i with
      icache := ic, stamp := st, nextIssue := s.cycOf i + 1,
      ctx := Tab.put (s.core i).ctx n { s.ctx i n with
        s := Tab.put (s.ctx i n).s rd v,
        late := if lat = 1 then Tab.erase (s.ctx i n).late rd else Tab.put (s.ctx i n).late rd (s.cycOf i + lat),
        last := (s.ctx i n).pc, timed := bit hdr 14, fresh := false, gather := [], gone := [] } }) i n hdr (s.cycOf i)
      (s.ctx i n).pc jump
  simp only [State.core_setCore_self, setCore_twice, Core.modCtx, Core.setCtx, Core.getCtx, Tab.get_put_self, Tab.put_put, hf] at he
  rcases he with he | he <;> rw [he]
  · exact ⟨ch, ic, st, ni, (s.core i).regs, (s.core i).fills, s.regs, s.marks,
      if lat = 1 then Tab.erase (s.ctx i n).late rd else Tab.put (s.ctx i n).late rd (s.cycOf i + lat), c, pc,
      rfl, hc, fun _ _ => rfl, fun _ _ => rfl⟩
  · generalize hk : (State.setCore { s with charges := ch } i _) = u
    obtain ⟨rg, mk, cr, fl, hs, h1, h2⟩ := startFill_form u i ((s.ctx i n).pc.toNat / 8 + 1) 4 false
    subst hk
    refine ⟨ch, ic, st, ni, cr, fl, rg, mk,
      if lat = 1 then Tab.erase (s.ctx i n).late rd else Tab.put (s.ctx i n).late rd (s.cycOf i + lat), c, pc,
      hs.trans ?_, hc, ?_, ?_⟩
    · simp only [State.core_setCore_self]
      exact setCore_regs_twice { s with charges := ch } i rg mk _ _
    · intro o ho
      have := h1 o ho
      simp only [State.core_setCore_self] at this
      exact this
    · exact h2

section
variable (s : State) (i n : Nat) (hdr : W16) (jump : Option (W32 × Nat)) (rd : Nat) (v : W64) (lat : Nat)

theorem issued_writeReg_rd : ((s.issued i n hdr jump (fun u => u.writeReg i n rd v lat)).ctx i n).sreg rd = v := by
  obtain ⟨ch, ic, st, ni, cr, fl, rg, mk, lt, c, pc, h, -⟩ := issued_writeReg_form s i n hdr jump rd v lat
  rw [h]; simp [State.ctx, Core.getCtx, Ctx.sreg]

theorem issued_writeReg_other {r : Nat} (hr : r ≠ rd) :
    ((s.issued i n hdr jump (fun u => u.writeReg i n rd v lat)).ctx i n).sreg r = (s.ctx i n).sreg r := by
  obtain ⟨ch, ic, st, ni, cr, fl, rg, mk, lt, c, pc, h, -⟩ := issued_writeReg_form s i n hdr jump rd v lat
  rw [h]; simp [State.ctx, Core.getCtx, Ctx.sreg, Tab.get_put, hr]

theorem issued_writeReg_ctx {m : Nat} (hm : m ≠ n) :
    (s.issued i n hdr jump (fun u => u.writeReg i n rd v lat)).ctx i m = s.ctx i m := by
  obtain ⟨ch, ic, st, ni, cr, fl, rg, mk, lt, c, pc, h, -⟩ := issued_writeReg_form s i n hdr jump rd v lat
  rw [h]; simp [State.ctx, Core.getCtx, Tab.get_put, hm]

theorem issued_writeReg_core {j : Nat} (hj : j ≠ i) :
    (s.issued i n hdr jump (fun u => u.writeReg i n rd v lat)).core j = s.core j := by
  obtain ⟨ch, ic, st, ni, cr, fl, rg, mk, lt, c, pc, h, -⟩ := issued_writeReg_form s i n hdr jump rd v lat
  rw [h, State.core_setCore]; simp only [hj, if_false]; rfl

theorem issued_writeReg_own :
    let t := s.issued i n hdr jump (fun u => u.writeReg i n rd v lat)
    (t.ctx i n).cmp = (s.ctx i n).cmp ∧ (t.ctx i n).tags = (s.ctx i n).tags ∧ (t.ctx i n).loops = (s.ctx i n).loops ∧
    (t.ctx i n).mode = (s.ctx i n).mode ∧ (t.ctx i n).faulted = (s.ctx i n).faulted ∧ (t.ctx i n).arrived = (s.ctx i n).arrived ∧
    ((t.ctx i n).c = (s.ctx i n).c ∨ ∃ j, (s.ctx i n).loopAt (s.ctx i n).pc = some j ∧
      (∀ r : Nat, r ≠ j → (t.ctx i n).creg r = (s.ctx i n).creg r) ∧
      (t.ctx i n).creg j = (if (s.ctx i n).creg j = 1 then 0 else (s.ctx i n).creg j - 1)) := by
  obtain ⟨ch, ic, st, ni, cr, fl, rg, mk, lt, c, pc, h, hc, -⟩ := issued_writeReg_form s i n hdr jump rd v lat
  simp only [h, State.ctx, State.core_setCore_self, Core.getCtx, Tab.get_put_self, true_and]
  rcases hc with hc | ⟨j, hj, hc⟩
  · exact Or.inl hc
  · refine Or.inr ⟨j, hj, ?_, ?_⟩
    · intro r hr; simp [Ctx.creg, hc, Tab.get_put, hr, State.ctx, Core.getCtx]
    · simp [Ctx.creg, hc, State.ctx, Core.getCtx]

theorem issued_writeReg_rest :
    let t := s.issued i n hdr jump (fun u => u.writeReg i n rd v lat)
    (∃ rg cx ic st fl ni, t.core i =
      { s.core i with regs := rg, ctx := cx, icache := ic, stamp := st, fills := fl, nextIssue := ni }) ∧
    (∀ off : Nat, off ≠ 0x710 → (t.core i).reg off = (s.core i).reg off) ∧
    (∃ cs ch rg mk, t = { s with cores := cs, charges := ch, regs := rg, marks := mk }) ∧
    (∀ off : Nat, off ≠ blkEVC (dieOf i) + 0x1000 + 8 * (8 * posOf i + 7) → t.reg off = s.reg off) := by
  obtain ⟨ch, ic, st, ni, cr, fl, rg, mk, lt, c, pc, h, -, h1, h2⟩ := issued_writeReg_form s i n hdr jump rd v lat
  simp only [h, State.core_setCore_self]
  exact ⟨⟨_, _, _, _, _, _, rfl⟩, h1, ⟨_, _, _, _, rfl⟩, h2⟩

end

end Sys2Proof.Machine
end

