-- ==== Sys2Proof/Laws/Passing.lean ====
section
/-! SUPPORT.
What passing time alone leaves as it is: every function of the passing of time, one lemma each, keeps the processors, the
outside links, the members, the waiting map and the table swap. -/

namespace Sys2Proof.Machine

/-- The parts of the state that time alone leaves: the processors, the outside links, the members and the table swaps to come. -/
structure Aside where
  procs : Tab Proc
  bus : Bus
  port : Port
  members : Tab Member
  mapPend : Tab W64
  swapAt : Option Nat

def State.aside (s : State) : Aside := ⟨s.procs, s.bus, s.port, s.members, s.mapPend, s.swapAt⟩

theorem fst_aside {α : Type} {p : State × α} {a : State} {b : α} (h : p = (a, b)) : a.aside = p.1.aside := by rw [h]
theorem snd_aside {α : Type} {p : α × State} {a : State} {b : α} (h : p = (b, a)) : a.aside = p.2.aside := by rw [h]
@[simp] theorem aside_mk (x0) (x1) (x2) (x3) (x4) (x5) (x6) (x7) (x8) (x9) (x10) (x11) (x12) (x13) (x14) (x15) (x16) (x17) (x18) (x19) (x20) (x21) (x22) (x23) (x24) (x25) (x26) (x27) (x28) (x29) (x30) (x31) (x32) (x33) (x34) (x35) (x36) (x37) (x38) (x39) (x40) (x41) (x42) (x43) (x44) (x45) (x46) (x47) (x48) (x49) (x50) (x51) (x52) (x53) (x54) (x55) (x56) (x57) (x58) (x59) (x60) (x61) (x62) (x63) (x64) (x65) (x66) (x67) (x68) (x69) (x70) (x71) (x72) (x73) (x74) (x75) :
    State.aside (State.mk x0 x1 x2 x3 x4 x5 x6 x7 x8 x9 x10 x11 x12 x13 x14 x15 x16 x17 x18 x19 x20 x21 x22 x23 x24 x25 x26 x27 x28 x29 x30 x31 x32 x33 x34 x35 x36 x37 x38 x39 x40 x41 x42 x43 x44 x45 x46 x47 x48 x49 x50 x51 x52 x53 x54 x55 x56 x57 x58 x59 x60 x61 x62 x63 x64 x65 x66 x67 x68 x69 x70 x71 x72 x73 x74 x75) = ⟨x61, x62, x63, x64, x59, x65⟩ := rfl
@[simp] theorem aside_eta (s : State) : Aside.mk s.procs s.bus s.port s.members s.mapPend s.swapAt = s.aside := rfl
@[simp] theorem aside_ite (c : Prop) [Decidable c] (a b : State) : (if c then a else b).aside = if c then a.aside else b.aside := by split <;> rfl
@[simp] theorem aside_foldl {α : Type} (g : State → α → State) (l : List α) (s : State) (h : ∀ a x, (g a x).aside = a.aside) :
    (l.foldl g s).aside = s.aside := by
  induction l generalizing s with
  | nil => rfl
  | cons x l ih => simp [ih, h]
theorem aside_foldl_fst {α β : Type} (g : State × β → α → State × β) (l : List α) (p : State × β) (h : ∀ a x, (g a x).1.aside = a.1.aside) :
    (l.foldl g p).1.aside = p.1.aside := by
  induction l generalizing p with
  | nil => rfl
  | cons x l ih => simp [ih, h]

@[simp] theorem State.setCore_aside (s : State) (a1) (a2) : (State.setCore s a1 a2).aside = s.aside := by
  rfl
@[simp] theorem State.modCore_aside (s : State) (a1) (a2) : (State.modCore s a1 a2).aside = s.aside := by
  rfl
@[simp] theorem State.modCtx_aside (s : State) (a1) (a2) (a3) : (State.modCtx s a1 a2 a3).aside = s.aside := by
  rfl
@[simp] theorem State.setReg_aside (s : State) (a1) (a2) : (State.setReg s a1 a2).aside = s.aside := by
  rfl
@[simp] theorem State.setFld_aside (s : State) (a1) (a2) (a3) (a4) : (State.setFld s a1 a2 a3 a4).aside = s.aside := by
  rfl
@[simp] theorem State.setFlag_aside (s : State) (a1) (a2) : (State.setFlag s a1 a2).aside = s.aside := by
  rfl
@[simp] theorem State.mark_aside (s : State) (a1) (a2) : (State.mark s a1 a2).aside = s.aside := by
  rfl
@[simp] theorem State.event_aside (s : State) (a1) (a2) : (State.event s a1 a2).aside = s.aside := by
  rfl
@[simp] theorem State.coreEvent_aside (s : State) (a1) (a2) (a3) : (State.coreEvent s a1 a2 a3).aside = s.aside := by
  rfl
@[simp] theorem State.raise_aside (s : State) (a1) (a2) : (State.raise s a1 a2).aside = s.aside := by
  rfl
@[simp] theorem State.raiseCore_aside (s : State) (a1) (a2) : (State.raiseCore s a1 a2).aside = s.aside := by
  simp [State.raiseCore]
@[simp] theorem State.raiseKeep_aside (s : State) (a1) : (State.raiseKeep s a1).aside = s.aside := by
  rfl
@[simp] theorem State.count48_aside (s : State) (a1) (a2) (a3) : (State.count48 s a1 a2 a3).aside = s.aside := by
  simp [State.count48]
@[simp] theorem State.count16_aside (s : State) (a1) (a2) (a3) : (State.count16 s a1 a2 a3).aside = s.aside := by
  simp [State.count16]
@[simp] theorem State.count32Core_aside (s : State) (a1) (a2) (a3) : (State.count32Core s a1 a2 a3).aside = s.aside := by
  simp [State.count32Core]
@[simp] theorem State.countMod_aside (s : State) (a1) (a2) (a3) (a4) : (State.countMod s a1 a2 a3 a4).aside = s.aside := by
  simp [State.countMod]
@[simp] theorem State.clockTo_aside (s : State) (a1) : (State.clockTo s a1).aside = s.aside := by
  simp [State.clockTo]
@[simp] theorem State.setLink_aside (s : State) (a1) (a2) : (State.setLink s a1 a2).aside = s.aside := by
  rfl
@[simp] theorem State.modLink_aside (s : State) (a1) (a2) : (State.modLink s a1 a2).aside = s.aside := by
  rfl
@[simp] theorem State.joinSide_aside (s : State) (a1) (a2) : (State.joinSide s a1 a2).aside = s.aside := by
  simp [State.joinSide]
@[simp] theorem State.queueSide_aside (s : State) (a1) (a2) (a3) : (State.queueSide s a1 a2 a3).aside = s.aside := by
  simp [State.queueSide]
@[simp] theorem State.seeFlood_aside (s : State) (a1) (a2) : (State.seeFlood s a1 a2).aside = s.aside := by
  rfl
@[simp] theorem State.queueUp_aside (s : State) (a1) (a2) (a3) : (State.queueUp s a1 a2 a3).aside = s.aside := by
  simp only [State.queueUp]
  repeat' first
    | (with_reducible refine (aside_foldl _ _ _ ?_).trans ?_)
    | (with_reducible refine (aside_foldl_fst _ _ _ ?_).trans ?_)
    | intro _
    | split
  all_goals first
    | (simp [*]; done)
    | (simp only [Prod.ext_iff] at *; repeat (rename _ ∧ _ => hh; obtain ⟨h1, h2⟩ := hh); subst_vars; simp [*]; done)
    | rfl

@[simp] theorem State.flood_aside (s : State) (a1) (a2) (a3) : (State.flood s a1 a2 a3).aside = s.aside := by
  simp only [State.flood]
  repeat' first
    | (with_reducible refine (aside_foldl _ _ _ ?_).trans ?_)
    | (with_reducible refine (aside_foldl_fst _ _ _ ?_).trans ?_)
    | intro _
    | split
  all_goals first
    | (simp [*]; done)
    | (simp only [Prod.ext_iff] at *; repeat (rename _ ∧ _ => hh; obtain ⟨h1, h2⟩ := hh); subst_vars; simp [*]; done)
    | rfl

@[simp] theorem State.recordFail_aside (s : State) (a1) (a2) : (State.recordFail s a1 a2).aside = s.aside := by
  simp [State.recordFail]
@[simp] theorem State.failRel_aside (s : State) (a1) (a2) : (State.failRel s a1 a2).aside = s.aside := by
  simp [State.failRel]
@[simp] theorem State.failStep_aside (s : State) (a1) : (State.failStep s a1).aside = s.aside := by
  simp [State.failStep]
@[simp] theorem State.failCurrent_aside (s : State) : (State.failCurrent s).aside = s.aside := by
  simp [State.failCurrent]
@[simp] theorem State.failCanopy_aside (s : State) (a1) (a2) (a3) : (State.failCanopy s a1 a2 a3).aside = s.aside := by
  simp [State.failCanopy]
@[simp] theorem State.reportErrors_aside (s : State) (a1) (a2) (a3) (a4) : (State.reportErrors s a1 a2 a3 a4).aside = s.aside := by
  (simp only [State.reportErrors]; (repeat' split)) <;> simp [*]
@[simp] theorem State.readComb_aside (s : State) (a1) (a2) : (State.readComb s a1 a2).1.aside = s.aside := by
  (simp only [State.readComb]; (repeat' split)) <;> simp [*]
@[simp] theorem State.putPhys_aside (s : State) (a1) (a2) (a3) : (State.putPhys s a1 a2 a3).aside = s.aside := by
  rfl
@[simp] theorem State.watchWrite_aside (s : State) (a1) (a2) : (State.watchWrite s a1 a2).aside = s.aside := by
  (simp only [State.watchWrite]; (repeat' split)) <;> simp [*]
@[simp] theorem State.mergeComb_aside (s : State) (a1) (a2) (a3) : (State.mergeComb s a1 a2 a3).aside = s.aside := by
  rfl
@[simp] theorem State.writeComb_aside (s : State) (a1) (a2) (a3) : (State.writeComb s a1 a2 a3).aside = s.aside := by
  simp [State.writeComb]
@[simp] theorem State.deschedule_aside (s : State) (a1) (a2) (a3) (a4) : (State.deschedule s a1 a2 a3 a4).aside = s.aside := by
  rfl
@[simp] theorem State.stopTask_aside (s : State) (a1) (a2) (a3) : (State.stopTask s a1 a2 a3).aside = s.aside := by
  rfl
@[simp] theorem State.faultCtx_aside (s : State) (a1) (a2) (a3) (a4) : (State.faultCtx s a1 a2 a3 a4).aside = s.aside := by
  (simp only [State.faultCtx]; (repeat' split)) <;> simp [*]
@[simp] theorem State.faultAsync_aside (s : State) (a1) (a2) (a3) (a4) : (State.faultAsync s a1 a2 a3 a4).aside = s.aside := by
  simp [State.faultAsync]
@[simp] theorem State.raiseFlags_aside (s : State) (a1) (a2) (a3) (a4) : (State.raiseFlags s a1 a2 a3 a4).aside = s.aside := by
  rfl
@[simp] theorem passCycle_aside (s : State) (a1) (a2) (a3) : (passCycle s a1 a2 a3).aside = s.aside := by
  (simp only [passCycle]; (repeat' split)) <;> simp [*]
@[simp] theorem drainCycle_aside (a0) (a1) (a2) (s : State) (a4) : (drainCycle a0 a1 a2 s a4).aside = s.aside := by
  (simp only [drainCycle]; (repeat' split)) <;> simp [*]
@[simp] theorem gangEnd_aside (s : State) (a1) (a2) (a3) : (gangEnd s a1 a2 a3).aside = s.aside := by
  (simp only [gangEnd]; (repeat' split)) <;> simp [*]
@[simp] theorem State.writeOwn_aside (s : State) (a1) (a2) (a3) (a4) (a5) : (State.writeOwn s a1 a2 a3 a4 a5).aside = s.aside := by
  simp [State.writeOwn]
@[simp] theorem State.readLocal_aside (s : State) (a1) (a2) (a3) (a4) (a5) : (State.readLocal s a1 a2 a3 a4 a5).1.aside = s.aside := by
  simp only [State.readLocal]; (repeat' first
      | rfl
      | assumption
      | (with_reducible refine (aside_foldl _ _ _ ?_).trans ?_)
      | (with_reducible refine (aside_foldl_fst _ _ _ ?_).trans ?_)
      | (simp [*]; done)
      | intro _
      | split
      | (simp only [Prod.ext_iff] at *; repeat (rename _ ∧ _ => hh; obtain ⟨h1, h2⟩ := hh); subst_vars; simp [*]; done)
      | (simp_all; done)); done
@[simp] theorem moveRead_aside (s : State) (a1) (a2) : (moveRead s a1 a2).aside = s.aside := by
  simp only [moveRead]; (repeat' first
      | rfl
      | assumption
      | (with_reducible refine (aside_foldl _ _ _ ?_).trans ?_)
      | (with_reducible refine (aside_foldl_fst _ _ _ ?_).trans ?_)
      | (simp [*]; done)
      | intro _
      | split
      | (simp only [Prod.ext_iff] at *; repeat (rename _ ∧ _ => hh; obtain ⟨h1, h2⟩ := hh); subst_vars; simp [*]; done)
      | (simp_all; done)); done
@[simp] theorem moveWrite_aside (s : State) (a1) (a2) : (moveWrite s a1 a2).aside = s.aside := by
  (simp only [moveWrite]; (repeat' split)) <;> simp [*]
@[simp] theorem loadCycle_aside (s : State) (a1) (a2) : (loadCycle s a1 a2).aside = s.aside := by
  (simp only [loadCycle]; (repeat' split)) <;> simp [*]
@[simp] theorem passOver_aside (s : State) (a1) (a2) : (passOver s a1 a2).aside = s.aside := by
  rfl
@[simp] theorem passRead_aside (a0) (a1) (s : State) (a3) : (passRead a0 a1 s a3).aside = s.aside := by
  simp only [passRead]; (repeat' first
      | rfl
      | assumption
      | (with_reducible refine (aside_foldl _ _ _ ?_).trans ?_)
      | (with_reducible refine (aside_foldl_fst _ _ _ ?_).trans ?_)
      | (simp [*]; done)
      | intro _
      | split
      | (simp only [Prod.ext_iff] at *; repeat (rename _ ∧ _ => hh; obtain ⟨h1, h2⟩ := hh); subst_vars; simp [*]; done)
      | (simp_all; done)); done
@[simp] theorem passWrite_aside (a0) (a1) (s : State) (a3) : (passWrite a0 a1 s a3).aside = s.aside := by
  simp [passWrite]
@[simp] theorem mvpEnd_aside (s : State) (a1) (a2) : (mvpEnd s a1 a2).aside = s.aside := by
  simp [mvpEnd]
@[simp] theorem svuCycle_aside (s : State) (a1) (a2) : (svuCycle s a1 a2).aside = s.aside := by
  (simp only [svuCycle]; (repeat' split)) <;> simp [*]
@[simp] theorem svuWrite_aside (a0) (a1) (s : State) (a3) : (svuWrite a0 a1 s a3).aside = s.aside := by
  simp [svuWrite]
@[simp] theorem svuEndOne_aside (a0) (a1) (s : State) (a3) : (svuEndOne a0 a1 s a3).aside = s.aside := by
  simp [svuEndOne]
@[simp] theorem svuEnd_aside (s : State) (a1) (a2) : (svuEnd s a1 a2).aside = s.aside := by
  unfold svuEnd; simp only [State.modCore_aside]
  exact aside_foldl _ _ _ (fun a x => svuEndOne_aside _ _ _ _)
@[simp] theorem bldCycle_aside (s : State) (a1) (a2) : (bldCycle s a1 a2).aside = s.aside := by
  (simp only [bldCycle]; (repeat' split)) <;> simp [*]
@[simp] theorem epCycle_aside (s : State) (a1) (a2) : (epCycle s a1 a2).aside = s.aside := by
  (simp only [epCycle]; (repeat' split)) <;> simp [*]
@[simp] theorem epEndOne_aside (a0) (a1) (s : State) (a3) : (epEndOne a0 a1 s a3).aside = s.aside := by
  unfold epEndOne; simp only []
  have hw : (List.foldl (fun s r => s.writeOwn a0 a3.ctx a3.tag (a3.drow + r) ((epCompute a3 (epResid a3)).1.getD r 0)) s (a3.writes a1)).aside = s.aside :=
    aside_foldl _ _ _ (fun a x => by simp)
  split
  · exact hw
  · simp only [State.raiseFlags_aside, State.modCore_aside]; exact hw
@[simp] theorem epEnd_aside (s : State) (a1) (a2) : (epEnd s a1 a2).aside = s.aside := by
  unfold epEnd; simp only [State.modCore_aside]
  exact aside_foldl _ _ _ (fun a x => epEndOne_aside _ _ _ _)
@[simp] theorem State.launch_aside (s : State) (a1) (a2) (a3) (a4) : (State.launch s a1 a2 a3 a4).aside = s.aside := by
  rfl
@[simp] theorem State.sendCtl_aside (s : State) (a1) (a2) (a3) : (State.sendCtl s a1 a2 a3).aside = s.aside := by
  rfl
@[simp] theorem State.sendStatus_aside (s : State) (a1) (a2) (a3) (a4) : (State.sendStatus s a1 a2 a3 a4).aside = s.aside := by
  (simp only [State.sendStatus]; (repeat' split)) <;> simp [*]
@[simp] theorem State.copyStop_aside (s : State) (a1) (a2) : (State.copyStop s a1 a2).aside = s.aside := by
  rfl
@[simp] theorem State.collided_aside (s : State) (a1) (a2) : (State.collided s a1 a2).aside = s.aside := by
  (simp only [State.collided]; (repeat' split)) <;> simp [*]
@[simp] theorem State.rowCycle_aside (s : State) (a1) (a2) : (State.rowCycle s a1 a2).aside = s.aside := by
  simp only [State.rowCycle]; (repeat' first
      | rfl
      | assumption
      | (with_reducible refine (aside_foldl _ _ _ ?_).trans ?_)
      | (with_reducible refine (aside_foldl_fst _ _ _ ?_).trans ?_)
      | (simp [*]; done)
      | intro _
      | split
      | (simp only [Prod.ext_iff] at *; repeat (rename _ ∧ _ => hh; obtain ⟨h1, h2⟩ := hh); subst_vars; simp [*]; done)
      | (simp_all; done)); done
@[simp] theorem State.ctlCycle_aside (s : State) (a1) (a2) : (State.ctlCycle s a1 a2).aside = s.aside := by
  simp only [State.ctlCycle]; (repeat' first
      | rfl
      | assumption
      | (with_reducible refine (aside_foldl _ _ _ ?_).trans ?_)
      | (with_reducible refine (aside_foldl_fst _ _ _ ?_).trans ?_)
      | (simp [*]; done)
      | intro _
      | split
      | (simp only [Prod.ext_iff] at *; repeat (rename _ ∧ _ => hh; obtain ⟨h1, h2⟩ := hh); subst_vars; simp [*]; done)
      | (simp_all; done)); done
@[simp] theorem State.landSides_aside (s : State) (a1) : (State.landSides s a1).aside = s.aside := by
  simp only [State.landSides]; (repeat' first
      | rfl
      | assumption
      | (with_reducible refine (aside_foldl _ _ _ ?_).trans ?_)
      | (with_reducible refine (aside_foldl_fst _ _ _ ?_).trans ?_)
      | (simp [*]; done)
      | intro _
      | split
      | (simp only [Prod.ext_iff] at *; repeat (rename _ ∧ _ => hh; obtain ⟨h1, h2⟩ := hh); subst_vars; simp [*]; done)
      | (simp_all; done)); done
@[simp] theorem State.crossSide_aside (s : State) (a1) (a2) : (State.crossSide s a1 a2).aside = s.aside := by
  (simp only [State.crossSide]; (repeat' split)) <;> simp [*]
@[simp] theorem State.fabricCycle_aside (s : State) (a1) (a2) : (State.fabricCycle s a1 a2).aside = s.aside := by
  simp [State.fabricCycle]
@[simp] theorem State.refuse_aside (s : State) (a1) (a2) (a3) : (State.refuse s a1 a2 a3).aside = s.aside := by
  simp [State.refuse]
@[simp] theorem State.resolve_aside (s : State) (a1) (a2) (a3) (a4) : (State.resolve s a1 a2 a3 a4).aside = s.aside := by
  (simp only [State.resolve]; (repeat' split)) <;> simp [*]
@[simp] theorem State.returnRow_aside (s : State) (a1) (a2) (a3) (a4) : (State.returnRow s a1 a2 a3 a4).aside = s.aside := by
  (simp only [State.returnRow]; (repeat' split)) <;> simp [*]
@[simp] theorem State.admitOrdered_aside (s : State) (a1) (a2) (a3) (a4) : (State.admitOrdered s a1 a2 a3 a4).aside = s.aside := by
  (simp only [State.admitOrdered]; (repeat' split)) <;> simp [*]
@[simp] theorem State.takeAccess_aside (s : State) (a1) (a2) (a3) : (State.takeAccess s a1 a2 a3).aside = s.aside := by
  simp only [State.takeAccess]; (repeat' first
      | rfl
      | assumption
      | (with_reducible refine (aside_foldl _ _ _ ?_).trans ?_)
      | (with_reducible refine (aside_foldl_fst _ _ _ ?_).trans ?_)
      | (simp [*]; done)
      | intro _
      | split
      | (simp only [Prod.ext_iff] at *; repeat (rename _ ∧ _ => hh; obtain ⟨h1, h2⟩ := hh); subst_vars; simp [*]; done)
      | (simp_all; done)); done
@[simp] theorem State.tryAccess_aside (s : State) (a1) (a2) (a3) : (State.tryAccess s a1 a2 a3).1.aside = s.aside := by
  (simp only [State.tryAccess]; (repeat' split)) <;> simp [*]
@[simp] theorem State.portHead_aside (s : State) (a1) (a2) : (State.portHead s a1 a2).aside = s.aside := by
  simp only [State.portHead]; (repeat' first
      | rfl
      | assumption
      | (with_reducible refine (aside_foldl _ _ _ ?_).trans ?_)
      | (with_reducible refine (aside_foldl_fst _ _ _ ?_).trans ?_)
      | (simp [*]; done)
      | intro _
      | split
      | (simp only [Prod.ext_iff] at *; repeat (rename _ ∧ _ => hh; obtain ⟨h1, h2⟩ := hh); subst_vars; simp [*]; done)
      | (simp_all; done)); done
@[simp] theorem State.wakeArray_aside (s : State) (a1) : (State.wakeArray s a1).aside = s.aside := by
  simp [State.wakeArray]
@[simp] theorem State.passTurn_aside (s : State) (a1) (a2) : (State.passTurn s a1 a2).aside = s.aside := by
  (simp only [State.passTurn]; (repeat' split)) <;> simp [*]
@[simp] theorem seqCycle_aside (s : State) (a1) (a2) : (seqCycle s a1 a2).aside = s.aside := by
  simp only [seqCycle]; (repeat' first
      | rfl
      | assumption
      | (with_reducible refine (aside_foldl _ _ _ ?_).trans ?_)
      | (with_reducible refine (aside_foldl_fst _ _ _ ?_).trans ?_)
      | (simp [*]; done)
      | intro _
      | split
      | (simp only [Prod.ext_iff] at *; repeat (rename _ ∧ _ => hh; obtain ⟨h1, h2⟩ := hh); subst_vars; simp [*]; done)
      | (simp_all; done)); done
@[simp] theorem State.scrubRow_aside (s : State) (a1) (a2) : (State.scrubRow s a1 a2).aside = s.aside := by
  simp [State.scrubRow]
@[simp] theorem State.recordRepair_aside (s : State) (a1) (a2) : (State.recordRepair s a1 a2).aside = s.aside := by
  rfl
@[simp] theorem State.repairRow_aside (s : State) (a1) (a2) : (State.repairRow s a1 a2).aside = s.aside := by
  (simp only [State.repairRow]; (repeat' split)) <;> simp [*]
@[simp] theorem maintEnd_aside (s : State) (a1) (a2) : (maintEnd s a1 a2).aside = s.aside := by
  (simp only [maintEnd]; (repeat' split)) <;> simp [*]
@[simp] theorem copyEnd_aside (s : State) (a1) (a2) : (copyEnd s a1 a2).aside = s.aside := by
  simp only [copyEnd]; (repeat' first
      | rfl
      | assumption
      | (with_reducible refine (aside_foldl _ _ _ ?_).trans ?_)
      | (with_reducible refine (aside_foldl_fst _ _ _ ?_).trans ?_)
      | (simp [*]; done)
      | intro _
      | split
      | (simp only [Prod.ext_iff] at *; repeat (rename _ ∧ _ => hh; obtain ⟨h1, h2⟩ := hh); subst_vars; simp [*]; done)
      | (simp_all; done)); done
@[simp] theorem State.send_aside (s : State) (a1) : (State.send s a1).aside = s.aside := by
  rfl
@[simp] theorem State.setHrows_aside (s : State) (a1) (a2) : (State.setHrows s a1 a2).aside = s.aside := by
  rfl
@[simp] theorem State.issueHost_aside (s : State) (a1) (a2) : (State.issueHost s a1 a2).aside = s.aside := by
  simp only [State.issueHost]
  repeat' first
    | (with_reducible refine (aside_foldl _ _ _ ?_).trans ?_)
    | (with_reducible refine (aside_foldl_fst _ _ _ ?_).trans ?_)
    | intro _
    | split
  all_goals first
    | (simp [*]; done)
    | (simp only [Prod.ext_iff] at *; repeat (rename _ ∧ _ => hh; obtain ⟨h1, h2⟩ := hh); subst_vars; simp [*]; done)
    | rfl

@[simp] theorem foragerEnd_aside (s : State) (a1) (a2) : (foragerEnd s a1 a2).aside = s.aside := by
  simp [foragerEnd]
@[simp] theorem hostEnd_aside (s : State) (a1) (a2) : (hostEnd s a1 a2).aside = s.aside := by
  simp [hostEnd]
@[simp] theorem renameEnd_aside (a0) (a1) (a2) (a3) (s : State) : (renameEnd a0 a1 a2 a3 s).aside = s.aside := by
  (simp only [renameEnd]; (repeat' split)) <;> simp [*]
@[simp] theorem renamesEnd_aside (s : State) (a1) (a2) : (renamesEnd s a1 a2).aside = s.aside := by
  unfold renamesEnd
  exact aside_foldl _ _ _ (fun a n => aside_foldl _ _ _ (fun b t => renameEnd_aside _ _ _ _ _))
@[simp] theorem sendRead_aside (a0) (a1) (s : State) (a3) : (sendRead a0 a1 s a3).aside = s.aside := by
  simp only [sendRead]; (repeat' first
      | rfl
      | assumption
      | (with_reducible refine (aside_foldl _ _ _ ?_).trans ?_)
      | (with_reducible refine (aside_foldl_fst _ _ _ ?_).trans ?_)
      | (simp [*]; done)
      | intro _
      | split
      | (simp only [Prod.ext_iff] at *; repeat (rename _ ∧ _ => hh; obtain ⟨h1, h2⟩ := hh); subst_vars; simp [*]; done)
      | (simp_all; done)); done
@[simp] theorem budgetEnd_aside (s : State) (a1) (a2) : (budgetEnd s a1 a2).aside = s.aside := by
  (simp only [budgetEnd]; (repeat' split)) <;> simp [*]
@[simp] theorem State.endCycle_aside (s : State) (a1) (a2) : (State.endCycle s a1 a2).aside = s.aside := by
  unfold State.endCycle
  simp only [State.modCore_aside, renamesEnd_aside, epEnd_aside, svuEnd_aside, mvpEnd_aside, moveWrite_aside]
  rw [aside_foldl _ _ _ (fun a x => gangEnd_aside _ _ _ _)]
  simp
@[simp] theorem lossCycle_aside (s : State) (a1) : (lossCycle s a1).aside = s.aside := by
  unfold lossCycle
  refine aside_foldl _ _ _ (fun a n => ?_)
  simp only []
  split
  · split
    · simp
    · rfl
  · split
    · simp
    · rfl
  · rfl
@[simp] theorem State.startCycle_aside (s : State) (a1) (a2) : (State.startCycle s a1 a2).aside = s.aside := by
  simp [State.startCycle]
@[simp] theorem State.unitCycle_aside (s : State) (a1) (a2) : (State.unitCycle s a1 a2).aside = s.aside := by
  simp [State.unitCycle]
@[simp] theorem State.runCore_aside (old s : State) (a2) : (State.runCore old s a2).aside = s.aside := by
  unfold State.runCore
  exact aside_foldl _ _ _ (fun a x => State.unitCycle_aside _ _ _)
@[simp] theorem State.runFabric_aside (old s : State) (a2) : (State.runFabric old s a2).aside = s.aside := by
  unfold State.runFabric
  exact aside_foldl _ _ _ (fun a x => State.fabricCycle_aside _ _ _)
@[simp] theorem State.runEdges_aside (old s : State) : (State.runEdges old s).aside = s.aside := by
  unfold State.runEdges
  rw [aside_foldl _ _ _ (fun a x => State.runFabric_aside _ _ _)]
  exact aside_foldl _ _ _ (fun a x => State.runCore_aside _ _ _)
@[simp] theorem State.runTo_aside (a0) (a1) (s : State) : (State.runTo a0 a1 s).aside = s.aside := by
  induction a1 generalizing s with
  | zero => simp [State.runTo]
  | succ n ih =>
    unfold State.runTo; split
    · rfl
    · exact (ih _).trans ((State.runEdges_aside _ _).trans (by simp))
@[simp] theorem State.toCt_aside (s : State) (a1) : (State.toCt s a1).aside = s.aside := by
  simp [State.toCt]
@[simp] theorem State.tickTo_aside (a0) (a1) (a2) (s : State) : (State.tickTo a0 a1 a2 s).aside = s.aside := by
  induction a2 generalizing s with
  | zero => rfl
  | succ n ih =>
    unfold State.tickTo; split
    · rfl
    · exact (ih _).trans (by simp)
@[simp] theorem State.toCyc_aside (s : State) (a1) (a2) : (State.toCyc s a1 a2).aside = s.aside := by
  simp [State.toCyc]
@[simp] theorem State.toRoot_aside (s : State) (a1) : (State.toRoot s a1).aside = s.aside := by
  simp [State.toRoot]
@[simp] theorem State.await_aside (a0) (a1) (a2) (s : State) : (State.await a0 a1 a2 s).aside = s.aside := by
  induction a2 generalizing s with
  | zero => rfl
  | succ n ih =>
    unfold State.await; split
    · rfl
    · exact (ih _).trans (by simp)
@[simp] theorem State.procEdge_aside (s : State) (a1) (a2) : (State.procEdge s a1 a2).aside = s.aside := by
  simp [State.procEdge]
@[simp] theorem State.procIssue_aside (s : State) (a1) (a2) : (State.procIssue s a1 a2).aside = s.aside := by
  simp [State.procIssue]

theorem State.proc_of_aside {s t : State} (h : s.aside = t.aside) (p : Nat) : s.proc p = t.proc p := by
  have h' := congrArg Aside.procs h
  simp only [State.aside] at h'
  simp [State.proc, h']

/-- Waiting for a processor's clock changes no processor. -/
@[simp] theorem State.procIssue_proc (s : State) (p : Nat) (l : List Nat) (q : Nat) : (s.procIssue p l).proc q = s.proc q :=
  State.proc_of_aside (by simp) q
@[simp] theorem State.procIssue_bus (s : State) (p : Nat) (l : List Nat) : (s.procIssue p l).bus = s.bus :=
  congrArg Aside.bus (State.procIssue_aside s p l)
@[simp] theorem State.toCt_proc (s : State) (t q : Nat) : (s.toCt t).proc q = s.proc q :=
  State.proc_of_aside (by simp) q

end Sys2Proof.Machine
end

