-- ==== Sys2Proof/Laws/Issue.lean ====
section
/-! SUPPORT.
What the issue of a bundle of one slot does: a bundle with no cause, no stall and no token shortage takes its slot's effect. -/

namespace Sys2Proof.Machine

theorem Tab.get_le {t : Tab Nat} {c : Nat} (h : t.all (fun p => decide (p.2 ≤ c)) = true) (r : Nat) : Tab.get 0 t r ≤ c := by
  induction t with
  | nil => simp [Tab.get]
  | cons p l ih =>
    simp only [List.all_cons, Bool.and_eq_true, decide_eq_true_eq] at h
    by_cases hp : p.1 = r
    · simp [Tab.get, hp, h.1]
    · simp [Tab.get, hp, ih h.2]

theorem foldl_max_le {c : Nat} (f : Nat → Nat) (hf : ∀ r, f r ≤ c) (l : List Nat) (a : Nat) (ha : a ≤ c) :
    l.foldl (fun m r => Nat.max m (f r)) a ≤ c := by
  induction l generalizing a with
  | nil => exact ha
  | cons r l ih => exact ih _ (Nat.max_le.mpr ⟨ha, hf r⟩)

/-- The one slot of a bundle, gathered. -/
theorem parts_single {ins : Instr} {i : CoreIx} {n : CtxIx} {sl : Slot} {hdr : W16} {more : Bool} {op : W32} {m : Sem}
    (h : slotInstr ins = some (.slot i n sl hdr more, op, m)) : parts [ins] = [⟨ins, sl, op, m⟩] := by
  cases sl <;> simp [parts, h] <;> decide

/-- A waiting context that may issue, with a slot that has no cause and does not stall: the bundle takes effect. -/
theorem issueSlot_ready {s : State} {i : CoreIx} {n : CtxIx} {hdr : W16} {ins : Instr} {sl : Slot} {op : W32} {m : Sem}
    (hr : s.readyFor i n hdr = true) (hi : slotInstr ins = some (.slot i n sl hdr false, op, m))
    (hsl : m.slots.contains sl = true) (hj : m.judge ⟨s, i, n, sl, hdr, op⟩ = []) (hv : m.judgeV ⟨s, i, n, sl, hdr, op⟩ = [])
    (ht : bits hdr 12 10 = 0 ∨ (sl ≠ .x ∨ isNop ins = true) ∧ specClosed ins = false)
    (hst : m.stall ⟨s, i, n, sl, hdr, op⟩ = false) :
    s.issueSlot i n hdr false ins =
      s.issued i n hdr (if sl = .s0 then m.jump ⟨s, i, n, sl, hdr, op⟩ else none) (m.eff ⟨s, i, n, sl, hdr, op⟩) := by
  simp only [State.readyFor, Bool.and_eq_true, Bool.or_eq_true, Bool.not_eq_true', beq_iff_eq, decide_eq_true_eq] at hr
  obtain ⟨⟨⟨⟨⟨⟨⟨⟨hc, hg⟩, h0⟩, hn⟩, hl⟩, h13⟩, h14⟩, hs⟩, hb⟩ := hr
  have hg' : (s.ctx i n).gather = [] := by simpa using hg
  have hcyc : s.toCyc i (s.core i).nextIssue = s := by simp [State.toCyc, hn]
  have h0' : (s.ctx i n).gone = [] := by simpa using h0
  have hlate : ∀ r, Tab.get 0 (s.ctx i n).late r ≤ s.cycOf i := Tab.get_le hl
  have hcau : allCauses s i n hdr [⟨ins, sl, op, m⟩] = [] := by
    have hsd : ∀ a b : Slot, a ≠ b → sameDest [⟨ins, sl, op, m⟩] a b = false := by
      intro a b hab
      simp only [sameDest, List.find?_cons, List.find?_nil]
      by_cases h1 : sl = a
      · subst h1
        have : (sl == b) = false := by simpa using hab
        simp [this]
      · have : (sl == a) = false := by simpa using h1
        simp [this]
    have hrw : (isReplayWait ins && (sl == .x && isWait ins)) = false := by
      cases ins <;> simp [isReplayWait, isWait]
    have hpc : Part.causes ⟨ins, sl, op, m⟩ (Part.at ⟨ins, sl, op, m⟩ s i n hdr) = [] := by
      simp only [Part.causes, Part.at, hsl]
      rw [hj]
      simp only [hv, ite_self, Bool.true_eq_false, if_false, List.append_nil, List.nil_append]
      rcases ht with ht | ⟨ht1, ht2⟩
      · simp [BC.tag, ht, cause]
      · rcases ht1 with ht1 | ht1
        · have : (sl == Slot.x) = false := by simpa using ht1
          simp [this, ht2, cause]
        · simp [ht1, ht2, cause]
    simp only [allCauses, bundleCauses, List.flatMap_cons, List.flatMap_nil, hpc]
    simp only [hsd _ _ (by decide : Slot.s0 ≠ Slot.s1), hsd _ _ (by decide : Slot.s0 ≠ Slot.x),
      hsd _ _ (by decide : Slot.s1 ≠ Slot.x), List.any_cons, List.any_nil, Bool.or_false, Bool.false_or, h13]
    rcases h14 with h14 | ⟨⟨hf, htm⟩, htg⟩
    · have hst' : (bits hdr 12 10 != 0 && (((s.ctx i n).getTag (bits hdr 12 10)).st != 1)) = false := by
        rcases hs with hs | hs <;> simp [hs]
      simp [h14, cause, hrw, hst']
    · have hf' : (s.ctx i n).fresh = false := hf
      have htm' : (s.ctx i n).timed = true := htm
      simp [htg, hf', htm', cause, hrw]
  have hlu : lateUntil (s.ctx i n) [⟨ins, sl, op, m⟩] ≤ s.cycOf i := by
    exact foldl_max_le _ hlate _ _ (Nat.zero_le _)
  have hleft : (s.ctx i n).left [⟨ins, sl, op, m⟩] = [⟨ins, sl, op, m⟩] := by simp [Ctx.left, h0']
  have hw : s.waits i n hdr [⟨ins, sl, op, m⟩] = false := by
    simp only [State.waits, List.any_cons, List.any_nil, Part.at, hst, Bool.or_false, decide_eq_false_iff_not]
    exact Nat.not_lt.mpr hlu
  have h1 : ¬ (tokensOf hdr ≠ 0 ∧ (s.core i).budgetWaits (s.cycOf i) = true) := by
    rintro ⟨h, h'⟩; rcases hb with hb | hb
    · exact h hb
    · simp [hb.1] at h'
  have h2 : ¬ (tokensOf hdr ≠ 0 ∧ s.charges_ i (tokensOf hdr) = false) := by
    rintro ⟨h, h'⟩; rcases hb with hb | hb
    · exact h hb
    · simp [hb.2] at h'
  have hga : goAhead s i n hdr ([(⟨ins, sl, op, m⟩ : Part)].filter Part.unit) s [] = none := by
    by_cases hu : Part.unit ⟨ins, sl, op, m⟩ = true
    · simp [hu, goAhead, Part.at, hst]
    · simp [hu, goAhead]
  simp only [State.issueSlot, Bool.false_eq_true, if_false, hc, if_true, hcyc, hg', List.nil_append, parts_single hi]
  simp only [State.present, hleft, hcau, recorded, List.foldl_nil, hw, Bool.false_eq_true, if_false, State.presentPower, h1, h2, hga]
  simp only [State.issueBundle, State.issued, List.foldl_cons, List.foldl_nil, List.findSome?_cons, List.findSome?_nil, Part.at]
  by_cases h0'' : sl = .s0
  · simp only [h0'', if_true]; cases m.jump ⟨s, i, n, .s0, hdr, op⟩ <;> rfl
  · simp only [h0'', if_false]

/-- imm18 and imm27 are sign-extended fields. -/
theorem fImm18_eq (op : W32) : fImm18 op = imm18 op := by
  simp [imm18, fImm18, signed, BitVec.signExtend, BitVec.toInt]
theorem fImm27_eq (op : W32) : fImm27 op = (BitVec.ofNat 27 (bits op 26 0)).signExtend 64 := by
  simp [fImm27, signed, BitVec.signExtend, BitVec.toInt]

theorem State.proc_modProc (s : State) (p : Nat) (f : Proc → Proc) : (s.modProc p f).proc p = f (s.proc p) := by
  simp [State.modProc, State.proc_setProc]

/-- A running processor's legal instruction that raises nothing and does not wait takes effect. -/
theorem procRun_ready {s : State} {p code : Nat} {m : PIn} {op : W32} {named : List Nat}
    (h1 : (s.proc p).st = 1) (h2 : (s.proc p).load = none) (hl : m.legal (s.proc p) op = true)
    (hn : (m.reads op).filter (· < 32) ++ (m.dest op).toList = named) (hi : (s.procIssue p named).interrupts p = false)
    (hf : m.fault (s.procIssue p named) p op = none) (hs : m.stall (s.procIssue p named) p op = false)
    (he : ((m.eff (s.procIssue p named) p op).proc p).load = none) :
    s.procRun p code m op =
      (m.eff (s.procIssue p named) p op).procDone p (s.procIssue p named).rootNow (m.jump (s.procIssue p named) p op) := by
  subst hn
  simp [State.procRun, h1, h2, hi, hl, hf, hs, he]

/-- A load from the service space: its access is pushed and the processor waits. -/
theorem procRun_load {s : State} {p code : Nat} {m : PIn} {op : W32} {named : List Nat}
    (h1 : (s.proc p).st = 1) (h2 : (s.proc p).load = none) (hl : m.legal (s.proc p) op = true)
    (hn : (m.reads op).filter (· < 32) ++ (m.dest op).toList = named) (hi : (s.procIssue p named).interrupts p = false)
    (hf : m.fault (s.procIssue p named) p op = none) (hs : m.stall (s.procIssue p named) p op = false)
    (he : ((m.eff (s.procIssue p named) p op).proc p).load.isSome = true) :
    s.procRun p code m op = m.eff (s.procIssue p named) p op := by
  subst hn
  simp [State.procRun, h1, h2, hi, hl, hf, hs, he]

/-- An access that raises an exception takes it. -/
theorem procRun_fault {s : State} {p code : Nat} {m : PIn} {op : W32} {named : List Nat} {c : Nat} {v : W64}
    (h1 : (s.proc p).st = 1) (h2 : (s.proc p).load = none) (hl : m.legal (s.proc p) op = true)
    (hn : (m.reads op).filter (· < 32) ++ (m.dest op).toList = named) (hi : (s.procIssue p named).interrupts p = false)
    (hf : m.fault (s.procIssue p named) p op = some (c, v)) :
    s.procRun p code m op = (s.procIssue p named).exception p c v := by
  subst hn
  simp [State.procRun, h1, h2, hi, hl, hf]

@[simp] theorem State.proc_busPush (s : State) (i : Nat) (a : BusAcc) (q : Nat) : (s.busPush i a).proc q = s.proc q := by
  simp only [State.busPush]; split <;> rfl

@[simp] theorem State.claimSource_proc (s : State) (p i q : Nat) : (s.claimSource p i).proc q = s.proc q := by
  have h : (s.clear (rSrc (p / 4) i) 8).procs = s.procs := by
    unfold State.clear; split <;> rfl
  exact congrArg (fun l => Tab.get _ l q) h

/-- A claim, with those of lower processors in the same cycle, changes no processor. -/
@[simp] theorem State.proc_claimRead (s : State) (p q : Nat) : (s.claimRead p).1.proc q = s.proc q := by
  unfold State.claimRead; simp only []
  split
  · rfl
  · exact s.claimSource_proc p _ q
@[simp] theorem State.proc_completeOp (s : State) (p i q : Nat) : (completeOp s p i).proc q = s.proc q := by
  simp only [completeOp]; split
  · rfl
  · split
    · split <;> rfl
    · rfl

/-- Reads and writes of processor control registers start no load. -/
theorem State.csrRead_load (s : State) (p n : Nat) : ((s.csrRead p n).1.proc p) = s.proc p := by
  unfold State.csrRead; split <;> (try split) <;> simp
theorem State.csrWrite_load (s : State) (p n : Nat) (v : W64) : ((s.csrWrite p n v).proc p).load = (s.proc p).load := by
  unfold State.csrWrite; split <;> (try split) <;> simp [State.proc_modProc]

/-- A store to the SRAM starts no load. -/
theorem Proc.writeMem_load (k : Proc) (a n v : Nat) : (k.writeMem a n v).load = k.load := by
  induction n generalizing k a v with
  | zero => rfl
  | succ n ih => simp only [Proc.writeMem, ih]; rfl

theorem Proc.portWrite_load (k : Proc) (bus : Bool) (c a n v : Nat) : (k.portWrite bus c a n v).load = k.load := by
  simp only [Proc.portWrite]
  split
  · split
    · rfl
    · split <;> simp [Proc.writeMem_load]
  · simp [Proc.writeMem_load]

end Sys2Proof.Machine
end

