-- ==== Sys2Proof/WellFormed.lean ====
section
/-! DEFINITION.
Well-formed commands: the ranges that the rules set on a command's operands and that the operand types do not already
set.  The machine gives every command a meaning, well formed or not; an ill-formed one is one that its sender never makes. -/

namespace Sys2Proof

/-- Bytes of BAR0, BAR2 and BAR4 (18 R510). -/
def barBytes (bar : B2) : Nat := match bar.toNat with | 0 => 2 ^ 28 | 1 => 2 ^ 33 | _ => 2 ^ 40

/-- The two Keeper inputs of the service bus (19 R541). -/
def Inp.isKeeper (inp : Inp) : Bool := decide (17 ≤ inp.val)

/-- Whether a command is one that its sender can make. -/
def Instr.wf : Instr → Bool
  | .icacheFillComplete _ line => decide (line < 2 ^ 29)
  | .hostMemoryRequest wr bar off data len =>
    let n := if wr then data.length else len
    decide (bar.toNat < 3) && decide (1 ≤ n) && decide (n ≤ if wr then 512 else 4096) && decide (off + n ≤ barBytes bar)
  | .configurationRequest _ off _ => decide (off.toNat < 4096) && off.toNat % 4 == 0
  | .linkTraining agreed width rate _ => !agreed || ([4, 8, 16].contains width.toNat && decide (rate.toNat ≤ 2))
  | .registerWrite _ off size _ => decide (off < 2 ^ 28) && (size == 4 || size == 8) && off % size == 0
  | .beat inp => inp.isKeeper
  | .sensorSampleSet samples => samples.all (fun x => decide (x.1 < 480))
  | .keeperStreamPiece _ _ _ _ _ _ len => decide (1 ≤ len.toNat) && decide (len.toNat ≤ 65536)
  | .logAppend severity _ _ data => decide (severity.toNat ≤ 4) && decide (data.length ≤ 36)
  | .requestUpdate comps => comps != 0
  | .requestFirmwareData _ off data => decide (off + data.length ≤ 2 ^ 24)
  | .linkEccReread _ burst _ => decide (burst < 123046875)
  | .cmtConfigWrite _ off _ => [0x40028, 0x40030, 0x40038, 0x40040].contains off
  | .lifeCycleTransition target _ => decide (target.toNat ≤ 4)
  | .coreWake _ source => decide (1 ≤ source.toNat) && decide (source.toNat ≤ 5)
  | _ => true

end Sys2Proof
end

