-- ==== Sys2Proof/Tests/Slice0.lean ====
section
/-! SUPPORT.
Tests on fixed values: the checks of well-formedness, the spec's own worked examples, and for every hypothesis of a
statement a state that meets it. -/

namespace Sys2Proof.Tests
open Sys2Proof Sys2Proof.Machine
set_option Elab.async false

/-! The checks of `Instr.wf`: for each, a command that it refuses, and for a few the nearest one that it accepts. -/

theorem smoke_fill_line : (Instr.icacheFillComplete 0 536870912).wf = false := by decide
theorem smoke_host_bar : (Instr.hostMemoryRequest false 3 0 [] 4).wf = false := by decide
theorem smoke_host_empty : (Instr.hostMemoryRequest true 0 0 [] 4).wf = false := by decide
theorem smoke_host_long : (Instr.hostMemoryRequest false 0 0 [] 4097).wf = false := by decide
theorem smoke_host_end : (Instr.hostMemoryRequest false 0 268435452 [] 8).wf = false := by decide
theorem smoke_host_fits : (Instr.hostMemoryRequest false 0 268435452 [] 4).wf = true := by decide
theorem smoke_config_range : (Instr.configurationRequest false 4096 0).wf = false := by decide
theorem smoke_config_aligned : (Instr.configurationRequest false 2 0).wf = false := by decide
theorem smoke_training_width : (Instr.linkTraining true 2 0 false).wf = false := by decide
theorem smoke_training_rate : (Instr.linkTraining true 16 3 false).wf = false := by decide
theorem smoke_training_none : (Instr.linkTraining false 0 0 false).wf = true := by decide
theorem smoke_register_range : (Instr.registerWrite 18 268435456 8 0).wf = false := by decide
theorem smoke_register_size : (Instr.registerWrite 18 16 2 0).wf = false := by decide
theorem smoke_register_aligned : (Instr.registerWrite 18 4 8 0).wf = false := by decide
theorem smoke_beat_input : (Instr.beat 16).wf = false := by decide
theorem smoke_sensor_number : (Instr.sensorSampleSet [(480, 0, true)]).wf = false := by decide
theorem smoke_stream_empty : (Instr.keeperStreamPiece 0 0 true true 0 0 0).wf = false := by decide
theorem smoke_stream_long : (Instr.keeperStreamPiece 0 0 true true 0 0 65537).wf = false := by decide
theorem smoke_log_severity : (Instr.logAppend 5 0 0 []).wf = false := by decide
theorem smoke_log_data : (Instr.logAppend 1 0 0 (List.replicate 37 0)).wf = false := by decide
theorem smoke_update_none : (Instr.requestUpdate 0).wf = false := by decide
theorem smoke_firmware_end : (Instr.requestFirmwareData 0 16777216 [0]).wf = false := by decide
theorem smoke_ecc_burst : (Instr.linkEccReread 0 123046875 true).wf = false := by decide
theorem smoke_cmt_offset : (Instr.cmtConfigWrite 18 0x40020 0).wf = false := by decide
theorem smoke_life_cycle_target : (Instr.lifeCycleTransition 5 []).wf = false := by decide
theorem smoke_wake_source_0 : (Instr.coreWake 3 0).wf = false := by decide
theorem smoke_wake_source_5 : (Instr.coreWake 3 5).wf = true := by decide
theorem smoke_wake_source_6 : (Instr.coreWake 3 6).wf = false := by decide

/-- The table gives no row bits, so no word spells a command. -/
theorem test_no_word_decodes : decodeTableWord 32 0 = none ∧ decodeTableWord 64 12345 = none := by decide


/-! The worked examples of the spec: each expected value stands in the file named. -/

theorem test_service_address : targetOf 0x13787D000 = .comb (80 * 2 + 37) 1000 0 := by decide -- 01, after R23
theorem test_address_hole : targetOf 0x78000000 = .none := by decide -- 01 R24
theorem test_cellar_last : targetOf 0x10B0051C87FF = .cellar 0xB0051C87FF := by decide -- 01 R26
theorem test_addi_fields :
    (fRd 0x1C440005, fSrc1 0x1C440005, fImm18 0x1C440005) = (3, 273, 5) := by decide -- 03, after R79
theorem test_imm18_sign : fImm18 0x3FFFF = -1 := by decide -- 03 R79
theorem test_e4m3_tie : e4m3.encode .rne 0 (fp32.decode 0x43E80000) = (0x7E, 0) := by decide -- 06: 464.0
theorem test_e4m3_saturates : e4m3.encode .rne 0 (fp32.decode 0x43EB0000) = (0x7E, flagSAT) := by decide -- 06: 470.0
theorem test_e2m1_half :
    ((e2m1.encode (NC.ofField 2) 0x800000 (.fin false 5 2)).1, (e2m1.encode (NC.ofField 2) 0x7FFFFF (.fin false 5 2)).1) =
      (5, 4) := by decide -- 06: 2.5 becomes 3 or 2
theorem test_e2m1_three_quarters :
    ((e2m1.encode (NC.ofField 2) 0x400000 (.fin false 11 4)).1, (e2m1.encode (NC.ofField 2) 0x3FFFFF (.fin false 11 4)).1) =
      (5, 4) := by decide -- 06: 2.75
theorem test_block_register :
    blockSum (.flt e2m1) (.flt e2m1) [7, 9] [7, 1] = 143 ∧ blockL (.flt e2m1) (.flt e2m1) = -2 := by decide -- 06
theorem test_block_rounds :
    (cellBlock .block false (.flt e2m1) (.flt e2m1) 0x82 0x7E 0x4B800000 [7, 9] [7, 1]).1 = 0x4B800048 := by decide -- 06
def tZ5 : Core := ({} : Core).setReg (offTiles 0) (BitVec.ofNat 64 (100 + 63 * 2 ^ 16 + 2 ^ 32))
theorem test_z5_tiles :
    (firstTile tZ5 0 4 3 0, firstTile tZ5 0 4 3 (1 <<< 9), firstTile tZ5 0 1 0 0) = (108, 112, 102) := by decide -- 05
theorem test_mvp_example : (vecSpan 9 8192, mvD 0 8192) = (17, 256) := by decide -- 05, after R166
theorem test_chain_word :
    chainStages 0x0000007060372010 = some [(1, 0), (2, 0), (3, 7), (6, 0)] := by decide -- 07, after R227
theorem test_window_descriptor :
    let w : Win := { owner := 0, desc := 0x02109249001F4E28 }
    (w.base, w.len, w.sfirst, w.slast, w.scores, w.wr) = (20008, 32, 73, 73, true, true) ∧ winIllegal w.desc = false := by
  decide -- 08, after R268
theorem test_stream_words :
    programWords (0xF000000000000000 <<< 448 ||| 0x4001E00000000000 <<< 384 ||| 0x3100000000000003 <<< 320 |||
      0x3080000000000001 <<< 256 ||| 0x3000000000000020 <<< 192 ||| 0x2100000000000210 <<< 128 |||
      0x2000000000000010 <<< 64 ||| 0x1008000000000000) false =
    ([0x1008000000000000, 0x2000000000000010, 0x2100000000000210, 0x3000000000000020, 0x3080000000000001,
      0x3100000000000003, 0x4001E00000000000], false) := by decide +kernel -- 09, after R277
def tPanel : Stream := { st := 2, ctx := 0, tag := 0, prow := 0, half := false, a0 := 0, a1 := 0, from_ := 0, words :=
  [0x1008000000000000, 0x2000000000000010, 0x2100000000000210, 0x3000000000000020, 0x3080000000000001,
   0x3100000000000003, 0x4001E00000000000] }
theorem test_stream_move : mvN 0x4001E00000000000 = 16 ∧ tPanel.words.all (fun w => !(badWord tPanel w)) = true := by decide
theorem test_stream_counts : ([0, 1, 2].map tPanel.count) = [33, 2, 4] := by decide -- 09: 33 chunks, 2 repeats, 4 row blocks
theorem test_stream_row : ({ tPanel with idx := [3, 1, 2, 0, 0] }).regAt 0 = 3 * 16 + 2 * 528 := by decide -- 09
theorem test_eht_entry : offEht 0x12C05 = 0x3000 + 8 * 5 := by decide -- 10, after R314
def tEht (l : List Nat) : W64 := (l.foldl (fun (k : Core) a => k.resolve 0x12C05 a) {}).reg (offEht 0x12C05)
theorem test_eht_predicts : ehtPredicts (tEht [17, 17, 17]) 0x12C05 = true ∧ ehtPredicts (tEht [17, 17]) 0x12C05 = false := by
  decide +kernel
theorem test_eht_squash : tEht [17, 17, 17, 17, 4] = ehtWord 0x4B 0 4 := by decide +kernel
theorem test_extent :
    let k := { ({} : Core) with regs := [] }
    (exSB 0x08006000A000, exTB 0x08006000A000, exNR 0x08006000A000) = (40960, 24576, 2048) ∧
      extentBad k 0x08006000A000 = true := by decide -- 10: the extent lies outside an empty shadow area
def tWq : WaggleQ := { tail := 60, msgs := [⟨20, 40, 0, false, 0⟩] }
theorem test_waggle_pad :
    (tWq.place 6 0 500).2 = 0 ∧ (tWq.place 6 0 500).1.tail = 6 ∧ ((tWq.place 6 0 500).1.place 16 0 510).2 = 10 ∧
      ((tWq.place 6 0 500).1.place 14 0 520).1.tail = 20 := by decide -- 11, after R351
theorem test_waggle_noroom :
    (({ tail := 56, msgs := [⟨10, 46, 0, false, 0⟩] } : WaggleQ).place 12 0 0).2 = 11 := by decide -- 11: NOROOM
theorem test_cellar_place :
    ((List.range 8).map (fun j => chanOf (8 * 1000000 + j)), localOf 8000000, groupOf 8000000, localOf 8000000 % 7) =
      ([32, 33, 34, 35, 36, 37, 38, 39], 83333, 11904, 5) := by decide -- 17, after R495
theorem test_cellar_bank : (bankOf 8000000, rankOf 8000000, devOf 32) = (0, 0, 4) := by decide -- 17
theorem test_residues :
    (rho 1 100000, rho 1 0xFFFFFFFFFFFD) = (34465, 65532) ∧
      (residues 1 [100000, 0xFFFFFFFFFFFD, 0, 0, 0, 0, 0, 0]).head? = some 34462 ∧
      (residues 1 [170000, 2, 0, 0, 0, 0, 0, 0]).head? = some 38932 := by decide -- 16, after R472
theorem test_align :
    alignInt false (0x1000 + 153) (.fin false 25 2) = 838860800 ∧ alignInt false (0x1000 + 153) (.fin false 3 2048) = 98304 ∧
      alignInt false (0x1000 + 153) (scaled false 8388609 (-33)) = 65536 ∧
      alignInt true (0x1000 + 153) (scaled false 8388609 (-33)) = 4294967808 := by decide +kernel -- 16, after R468
theorem test_htt :
    ((State.reset.setReg (rHtt 0x123) 0xA000012345600000).translate 0x123456 false) = .inl 0x1234568AC00 ∧
      State.reset.translate 0x123456 false = .inr 1 := by decide +kernel -- 18, after R521
theorem test_htt_offset : rHtt 0x123 = 0x7C80918 := by decide +kernel -- 18
theorem test_evc_claims :
    let s1 := claimOp ((State.reset.setReg (rSrc 1 112) 0x136).setReg (rSrc 1 650) 0x01C) 4
    (s1.stack 4, (s1.claimRead 5).2) = ([(112, 6)], 1023) ∧
      (claimOp (s1.setFlag (rSrc 1 650) 8) 4).stack 4 = [(650, 12), (112, 6)] := by decide +kernel -- 19, after R540
theorem test_evc_order :
    let s2 := ((State.reset.setReg (rSrc 1 112) 0x236).setReg (rSrc 1 650) 0x21C)
    let s3 := { s2 with evStacks := [(4, [(650, 12), (112, 6)])] }
    (completeOp s3 4 112).stack 4 = [(650, 12), (112, 6)] ∧ (completeOp s3 4 112).flag (rCpEvc 4) 63 = true ∧
      (completeOp (completeOp s3 4 650) 4 112).stack 4 = [] := by decide +kernel -- 19
theorem test_refresh_interval : ([0, 1, 2].map refInterval) = [1792, 896, 448] := by decide -- 17 R501
/-! Instruction words written out from the spec's tables: the opcode stands in bits [39:32] of the slot word (R74). -/

/-- The slot of a first bundle of core 0, context 0. -/
def tIss (p : Slot) : Iss := .slot 0 0 p 0 false
theorem test_slot_nop : decodeSlot (tIss .v) 0 = some (.nop (tIss .v) 0) := by decide -- 03 R74
theorem test_slot_addi : decodeSlot (tIss .s1) 0x101C440005 = some (.sAddi (tIss .s1) 0x1C440005) := by decide -- 03 R79
theorem test_slot_call : decodeSlot (tIss .s0) 0x440003FFFF = some (.call (tIss .s0) 0x3FFFF) := by decide -- 03 R83
theorem test_slot_control_s1 : decodeSlot (tIss .s1) 0x440003FFFF = none := by decide -- 03 R83: S0 only
theorem test_slot_task_end : decodeSlot (tIss .s0) 0x7100000000 = some (.taskEnd (tIss .s0) 0) := by decide -- 03 R98
theorem test_slot_waitsb : decodeSlot (tIss .x) 0x6300000000 = some (.waitSb (tIss .x) 0) := by decide -- 03 R88
theorem test_slot_mpass : decodeSlot (tIss .m) 0x0300000000 = some (.mPass (tIss .m) 0) := by decide -- 04 R141
theorem test_slot_mvpass : decodeSlot (tIss .m) 0x1200000000 = some (.mvPass (tIss .m) 0) := by decide -- 05 R168
theorem test_slot_vector :
    [0x01, 0x02, 0x03, 0x04, 0x08, 0x05].map (fun o => decodeSlot (tIss .v) (BitVec.ofNat 40 (o * 2 ^ 32 + 7))) =
      [some (.vOp (tIss .v) 7), some (.vBld (tIss .v) 7), some (.vExt (tIss .v) 7), some (.vSeed (tIss .v) 7),
       some (.epRun (tIss .v) 7), none] := by decide -- 07 R229
theorem test_slot_forager : decodeSlot (tIss .f) 0x0280000000 = some (.fStop (tIss .f) 0x80000000) := by decide -- 09 R306
theorem test_slot_confirm : decodeSlot (tIss .s0) 0x7900000000 = some (.confirm (tIss .s0) 0) := by decide -- 10 R328
theorem test_slot_transfer :
    [0, 1, 2, 3].map (fun o => decodeSlot (tIss .x) (BitVec.ofNat 40 (0x52 * 2 ^ 32 + o * 2 ^ 30))) =
      [some (.put (tIss .x) 0), some (.putAdd (tIss .x) 0x40000000), some (.get (tIss .x) 0x80000000), none] := by
  decide -- 11 R361
theorem test_slot_window : decodeSlot (tIss .x) 0x5000000000 = some (.wOpen (tIss .x) 0) := by decide -- 08 R250
theorem test_slot_processor : decodeSlot (.proc 0) 0x8B00000000 = some (.sEret (.proc 0) 0) := by decide -- 03 R103
theorem test_slot_processor_lacks : decodeSlot (.proc 0) 0x6000000000 = none := by decide -- 03 R102
/-! Small states for the tests below. -/

def tAcc : Access := ⟨.read, 5, 0, 3, .core 1 0 7, 0, 1, none⟩
def tFlight : State := { State.reset.setCore 0 { rbuf := [tAcc] } with flights := [⟨1, 0, .core 1 0 7, .access tAcc, [], 5⟩] }
def tWinDesc : W64 := 159888781888913408
def tWin : State := State.reset.setCore 0 { wins := [(2, { owner := 0, desc := tWinDesc })] }
def tSeq : State := State.reset.setCore 0 { wins := [(2, { owner := 0, desc := tWinDesc ||| 72057594037927936, apply := [tAcc] })] }
def tGet : State := { State.reset.setCore 0 { xfers := [⟨7, 0, 2, 2, 0, 64, 0, 5000, some 3, 1, true⟩] } with flights := [⟨1, 0, .core 0 0 7, .ret 0 9 0, [], 5⟩] }
def tSt (kind : Nat) : State :=
  { State.reset.setCore 0 { xfers := [⟨7, 0, kind, 2, 0, 64, 0, 5000, some 3, 1, true⟩] } with ctls := [⟨4, 0, .status 7 0, [], 0, 0⟩] }
def tOp (op : Nat) : Stream :=
  { st := 2, ctx := 0, tag := 0, prow := 0, half := false, a0 := 0, a1 := 0, from_ := 0, words := [BitVec.ofNat 64 (op * 2 ^ 60)] }
def tStr (mv sp : Nat) : Stream :=
  { tOp 0 with words := [BitVec.ofNat 64 (2 ^ 60 + sp * 2 ^ 56), BitVec.ofNat 64 (4 * 2 ^ 60 + mv)], action := 1 }
def tFar (mv sp : Nat) : Stream :=
  { tOp 0 with words := [BitVec.ofNat 64 (2 ^ 60 + sp * 2 ^ 56 + 2 ^ 31), BitVec.ofNat 64 (4 * 2 ^ 60 + mv)], action := 1 }
def tProg : Stream := { tOp 0 with st := 1, words := [] }
def tEnt (landed : Bool) : RqEntry :=
  { id := 3, src := .cellar 9, dest := .fq 2, tok := false, stream := 1, ctx := 0, tag := 0, since := 0, row := if landed then some 7 else none }
def tHost : State := (State.reset.setReg rLstat 2).setReg (rHtt 0) (BitVec.ofNat 64 (2 ^ 63 + 2 ^ 61))
def tLink (st : Nat) : State := State.reset.setFld (rCanoStat 0) 2 0 st
def tEntry (st e : Nat) : State := (tLink st).setReg (blkCANO 0 + 0x8000) (BitVec.ofNat 64 e)
def tSched : State :=
  ((((tLink 2).setFld (rCanoStat 0) 12 9 15).setFlag (rCanoStat 0) 14).setFlag rTstat 3).setReg rClrEnd 0x1000000 |>.setLink 0 { calibrated := true }
def tStep : State := State.reset.setFld rCmtStat 1 0 2
def tBucket : State := ((tStep.setReg (rBkt 0 0) 0x8000000000000000).setReg rCmtRelno 1).setCore 0 { wcount := [(0, 1)] }
def tStage : W64 := BitVec.ofNat 64 (2 ^ 63)
def tRedFlit : Flit := ⟨2, 0⟩
def tRed : State := { tStep.setReg (rStg 0 0 0) tStage with redIn := [(0, tRedFlit)] }
def tForm : State := tStep.setReg (rStg 0 0 0) (BitVec.ofNat 64 (2 ^ 63 + 31 * 2 ^ 56 + 2 ^ 52))
def tFill : State := (tStep.setReg (rStg 0 0 0) tStage).setReg (blkCANO 0 + 0x8000) (BitVec.ofNat 64 (8192 * 2 ^ 16))
def tUp : State := State.reset.setFld rLstat 2 0 2
def tHrow (l : List Nat) : HRow := ⟨1, 0, 0, 0, false, 0, 0, 0, 0, [], 0, 0, 0, l, 0⟩
def tIrq : State := (State.reset.setProc 0 { st := 1, status := 1 }).setReg (rSrc 0 3) (BitVec.ofNat 64 (2 ^ 8 + 2 ^ 4 + 5))
def tAccess : BusAcc := ⟨true, 0x200000000, 8, 0, .store 0 0⟩
def tBus : State := State.reset.setBusQueue 3 [tAccess]
def tComb (a : Nat) (w : Bool) : State := State.reset.setFlight 3 [⟨0, ⟨w, a, 8, 7, .store 0 0⟩, none⟩]
def tRun : State := State.reset.setCore 0 { phase := .running 0, ctx := [(0, { mode := .running })], icache := [(0, ⟨0, false, 0⟩)] }
def tRunK (f : Core → Core) : State := tRun.modCore 0 f
def tWake : State := tIrq.setProc 0 { st := 1 }
def tProc : State := State.reset.setProc 0 { st := 1 }
def tIdle (m : CtxMode) (p : Phase) : State := State.reset.setCore 0 { phase := p, ctx := [(0, { mode := m })] }
def tGang : Gang := { shape := 0, fmtA := 5, fmtB := 5, sat := false, rows := 32, cols := 32, ctx := 0 }
def tPass : Pass :=
  { tiles := [0], k := 32, qa := 0, qb := 1, add := false, rows := 32, cols := 32, tag := 0, issued := 0, bundle := 0, entry := 0 }
def tOwns (k : Core) : Core := k.setReg (offTiles 0) (BitVec.ofNat 64 (511 * 2 ^ 16))
def tGangs (g : Gang) : State := tRunK (fun k => { tOwns k with gangs := [(7, g)] })
def tMvp : Mvp := { claim := some 0, fmtW := 14, fmtV := 14, k := 64, v0 := 0, nv := 1, ports := 1 }
def tLoad : VLoad := { q := 0, s := 7, c := 1, ctx := 0, tag := 0, issued := 0, bundle := 0 }
def tVPass : VPass := { wrow := 0, tile := 0, nb := 1, add := false, ctx := 0, tag := 0, issued := 0, entry := 0, bundle := 0 }
def tSvu (f : Nat) : SvuOp :=
  { func := f, desc := BitVec.ofNat 64 (8 * 2 ^ 18 + 8 * 2 ^ 22), scalar := 0, len := 32, seed := 0, ctx := 0, tag := 0, issued := 0, entry := none, bundle := 0 }
def tEp : EpOp := { chain := 0, desc := 0, aux := 0, seed := 0, ctx := 0, tag := 0, issued := 0, entry := 0, bundle := 0 }
def tMove (ld : Bool) : TileMove := { ld := ld, row := 0, tile := 0, nt := 1, ctx := 0, tag := 0, issued := 0, entry := 0 }
def tMem (v : Nat) : State := State.reset.setProc 0 { st := 1, s := [(5, BitVec.ofNat 64 v)] }
def tMemOp : W32 := BitVec.ofNat 32 (31 * 2 ^ 27 + 5 * 2 ^ 18)
def tSvuQ : SvuOp := { tSvu 0 with desc := 0 }
def tProgRow : Row := BitVec.ofNat 4096 (2 ^ 60 + 4 * 2 ^ 124 + 2 ^ 188 * 15)
def tLoadable : State := (State.reset.setCore 0 { streams := [(0, tProg)] }).writeComb 0 0 tProgRow

/-! A state and operands that meet the hypotheses of each clause of each statement. -/

theorem witness_StepRunsFrontCommand_1 :
  let s : State := { State.reset with pending := [.v48Good, .v48Good] }
  s.pending = .v48Good :: [.v48Good] := by decide +kernel
theorem witness_StepRunsFrontCommand_2 :
  State.reset.pending = [] := by decide +kernel
theorem witness_CombRowWrites_1 :
  let a : Nat := 512
  a < combAddr 0 ((State.reset.core 0).phys 0) ∨ combAddr 0 ((State.reset.core 0).phys 0) + 512 ≤ a := by decide +kernel
theorem witness_CombRowWrites_2 :
  (State.reset.core 0).badWords ((State.reset.core 0).phys 5) = [] := by decide +kernel
theorem witness_ResetState_1 :
  (0x400 ≠ 0x8048) ∧ (0x400 ≠ 0x0B28) := by decide +kernel
theorem witness_ResetState_2 :
  fuseOf 71 = .active := by decide +kernel
theorem witness_StepInvariant_1 :
  let s : State := { State.reset with pending := [.commitArrival] }
  (∃ t, step s = .next t) ∧ s.memoryWf = true := by exact ⟨⟨_, rfl⟩, by decide +kernel⟩
theorem witness_StepInvariant_2 :
  let s : State := { State.reset with pending := [.commitArrival] }
  (∃ t, step s = .next t) ∧ s.nv.f ≤ 64 := by exact ⟨⟨_, rfl⟩, by decide +kernel⟩
theorem witness_StepInvariant_3 :
  let s : State := { State.reset with nv := { State.reset.nv with lc := 4 } }
  (∃ t, step s = .next t) ∧ s.nv.lc = 4 := by exact ⟨⟨_, rfl⟩, by decide +kernel⟩
theorem witness_StepInvariant_4 :
  let s : State := { State.reset with pending := [.v48Good] }
  let t : State := State.reset
  step s = .next t ∧ s.memoryWf = true ∧ s.nv.f ≤ 64 := by exact ⟨rfl, by decide, by decide⟩
theorem witness_StepInvariant_5 :
  let s : State := { State.reset with nv := { lc := 4 }, pending := [.v48Good] }
  let t : State := { State.reset with nv := { lc := 4 } }
  step s = .next t ∧ s.nv.lc = 4 := by exact ⟨rfl, rfl⟩
theorem witness_FuseCounter_1 :
  let s : State := { State.reset with nv := { State.reset.nv with f := 64 } }
  (∃ t, step s = .next t) ∧ s.nv.f ≤ 64 := by exact ⟨⟨_, rfl⟩, by decide +kernel⟩
theorem witness_FuseCounter_2 :
  let s : State := { State.reset with nv := { flash := [(0x9000006, 5), (0x9000007, 1)] } }
  slotByte (s.newSlot 1) 7 % 2 = 1 ∧ s.nv.f < slotByte (s.newSlot 1) 6 ∧ slotByte (s.newSlot 1) 6 ≤ 64 := by decide +kernel
theorem witness_FuseCounter_3 :
  let s : State := { State.reset with nv := { flash := [(0x9000006, 0), (0x9000007, 1)] } }
  s.nv.f ≠ 64 ∧ (slotByte (s.newSlot 1) 7 % 2 = 0 ∨ slotByte (s.newSlot 1) 6 ≤ s.nv.f) := by decide +kernel
theorem witness_FuseCounter_4 :
  let s : State := { State.reset with nv := { f := 64, flash := [(0x9000006, 64), (0x9000007, 1)] } }
  s.nv.f = 64 ∧ slotByte (s.newSlot 1) 7 % 2 = 1 := by decide +kernel
theorem witness_FuseCounter_5 :
  let s : State := { State.reset with nv := { f := 64, flash := [(0x9000006, 64)] } }
  s.nv.f = 64 ∧ slotByte (s.newSlot 1) 6 = 64 := by decide +kernel
theorem witness_ContextScheduling_1 :
  let s : State := State.reset.setCore 0 { phase := .switching 3 5, ctx := [(0, { mode := .ready 5 })] }
  let i : CoreIx := 0
  let r : Nat := 3
  let c : Nat := 5
  let m : Nat := 0
  ((s.core i).phase = .switching r c) ∧
  ([(r + 1) % 4, (r + 2) % 4, (r + 3) % 4, r % 4].find? (fun m => ((s.toCyc i c).core i).readyIn m c) = some m) := by decide +kernel
theorem witness_ContextScheduling_2 :
  let s : State := State.reset.setCore 0 { phase := .switching 3 5 }
  let i : CoreIx := 0
  let r : Nat := 3
  let c : Nat := 5
  ((s.core i).phase = .switching r c) ∧
  ([(r + 1) % 4, (r + 2) % 4, (r + 3) % 4, r % 4].find? (fun m => ((s.toCyc i c).core i).readyIn m c) = none) ∧
  ([0, 1, 2, 3].filterMap ((s.toCyc i c).core i).readyFrom = []) := by decide +kernel
theorem witness_ContextScheduling_3 :
  let s : State := State.reset.setCore 0 { phase := .switching 3 5, ctx := [(0, { mode := .ready 6 })] }
  ((s.core 0).phase = .switching 3 5) ∧
  ([(3 + 1) % 4, (3 + 2) % 4, (3 + 3) % 4, 3 % 4].find? (fun m => ((s.toCyc 0 5).core 0).readyIn m 5) = none) ∧
  ([0, 1, 2, 3].filterMap ((s.toCyc 0 5).core 0).readyFrom = [6]) := by decide +kernel
theorem witness_ContextScheduling_4 :
  let s : State := State.reset.setCore 0 { phase := .waking 5, ctx := [(0, { mode := .ready 5 })] }
  let i : CoreIx := 0
  let c : Nat := 5
  let m : Nat := 0
  ((s.core i).phase = .waking c) ∧
  ([(((s.toCyc i c).core i).lastRun + 1) % 4, (((s.toCyc i c).core i).lastRun + 2) % 4, (((s.toCyc i c).core i).lastRun + 3) % 4, ((s.toCyc i c).core i).lastRun % 4].find? (fun m => ((s.toCyc i c).core i).readyIn m c) = some m) := by decide +kernel
theorem witness_ContextScheduling_5 :
  let s : State := State.reset.setCore 0 { phase := .waking 5 }
  let i : CoreIx := 0
  let c : Nat := 5
  ((s.core i).phase = .waking c) ∧
  ([(((s.toCyc i c).core i).lastRun + 1) % 4, (((s.toCyc i c).core i).lastRun + 2) % 4, (((s.toCyc i c).core i).lastRun + 3) % 4, ((s.toCyc i c).core i).lastRun % 4].find? (fun m => ((s.toCyc i c).core i).readyIn m c) = none) ∧
  ([0, 1, 2, 3].filterMap ((s.toCyc i c).core i).readyFrom = []) := by decide +kernel
theorem witness_ContextScheduling_6 :
  let s : State := tIdle (.waiting (.at 8)) .gated
  let i : CoreIx := 0
  let n : CtxIx := 0
  let target : Nat := 8
  ((s.ctx i n).mode = .waiting (.at target)) ∧
  (((s.atTarget i target).ctx i n).mode = .waiting (.at target)) ∧
  (((s.atTarget i target).core i).power = .run) ∧
  (((s.atTarget i target).core i).phase = .gated ∨ ((s.atTarget i target).core i).phase = .idle) := by decide +kernel
theorem witness_ContextScheduling_7 :
  let s : State := (tIdle (.waiting (.at 16)) .gated).modCore 0 (fun k => { k with mvp := { tMvp with load := some tLoad }, fq := [(0, { rows := [⟨5, 1, 0, false⟩] })] })
  let i : CoreIx := 0
  let n : CtxIx := 0
  let target : Nat := 16
  ((s.ctx i n).mode = .waiting (.at target)) ∧
  (((s.atTarget i target).ctx i n).mode ≠ .waiting (.at target)) := by decide +kernel
theorem witness_ContextScheduling_8 :
  let s : State := tIdle (.waiting (.at 8)) (.switching 0 1)
  ((s.ctx 0 0).mode = .waiting (.at 8)) ∧
  (((s.atTarget 0 8).ctx 0 0).mode = .waiting (.at 8)) ∧
  (((s.atTarget 0 8).core 0).power = .run) ∧
  (((s.atTarget 0 8).core 0).phase = .switching 0 1) ∧
  (1 ≤ s.targetCyc 0 8) ∧
  ([(0 + 1) % 4, (0 + 2) % 4, (0 + 3) % 4, 0 % 4].find? (fun m => ((s.atTarget 0 8).core 0).readyIn m 1) = none) ∧
  ([0, 1, 2, 3].filterMap ((s.atTarget 0 8).core 0).readyFrom = []) := by decide +kernel
theorem witness_ContextScheduling_9 :
  let s : State := (tIdle (.waiting (.at 8)) (.running 1)).modCtx 0 1 (fun x => { x with mode := .running })
  let i : CoreIx := 0
  let n : CtxIx := 0
  let target : Nat := 8
  let r : Nat := 1
  ((s.ctx i n).mode = .waiting (.at target)) ∧
  (((s.atTarget i target).ctx i n).mode = .waiting (.at target)) ∧
  (((s.atTarget i target).core i).phase = .running r ∨ (∃ c, ((s.atTarget i target).core i).phase = .switching r c ∧ s.targetCyc i target < c)) := by exact ⟨by decide +kernel, by decide +kernel, .inl (by decide +kernel)⟩
theorem witness_ContextScheduling_10 :
  let s : State := { (tIdle (.waiting (.at 2000)) .gated).setTu (fun u => { u with qualNo := 1 }) with ct := 1000, prevEdge := 1000, cyc := 125 }
  let i : CoreIx := 0
  let n : CtxIx := 0
  let target : Nat := 2000
  ((s.ctx i n).mode = .waiting (.at target)) ∧
  ((s.ctx i n).after = none) ∧
  (s.tu.qualNo ≠ 0) ∧
  (s.flag rTstat 3 = false) ∧
  (s.tu.qualAt + 1000 < target) ∧
  (s.tu.qualAt + 1000 ≤ s.edgeCt i) ∧
  ((∀ m : CtxIx, m ≠ n → (s.ctx i m).mode = .noTask)) := by decide +kernel
theorem witness_ContextScheduling_11 :
  let s : State := (tIdle (.waiting (.flag true 63)) .gated).modCore 0 (fun k => k.setFlag 63 true)
  let i : CoreIx := 0
  let n : CtxIx := 0
  let w : Wait := .flag true 63
  ((s.ctx i n).mode = .waiting w) ∧
  ((s.core i).waitMet n (s.cycOf i) w = true) := by decide +kernel
theorem witness_ContextScheduling_12 :
  let s : State := tIdle (.waiting .replay) .gated
  let i : Nat := 0
  let n : Nat := 0
  ((s.ctx i n).after = none) := by decide +kernel
theorem witness_ContextScheduling_13 :
  let s : State := State.reset.setCore 0 { phase := .gated, ctx := [(0, { mode := .waiting (.lock []), after := some (.flag true 63) })] }
  ((s.ctx 0 0).after = some (.flag true 63)) ∧
  (∀ target, (Wait.flag true 63) ≠ .at target) := by refine ⟨by decide +kernel, fun t h => nomatch h⟩
theorem witness_ReplayGate_1 :
  let s : State := tIdle (.waiting .replay) .gated
  let i : CoreIx := 0
  let n : CtxIx := 0
  ((s.core i).off = false) ∧
  ((s.ctx i n).mode = .waiting .replay) := by decide +kernel
theorem witness_ReplayGate_2 :
  let s : State := State.reset
  let i : CoreIx := 0
  let n : CtxIx := 0
  ((s.core i).off = false) ∧
  ((s.ctx i n).mode ≠ .waiting .replay) := by decide +kernel
theorem witness_TaskCommands_1 :
  let s : State := (State.reset.setFld rBoot 3 0 15).setFlag rBoot 8
  let i : CoreIx := 0
  let n : CtxIx := 3
  (s.bootReady = true) ∧
  (s.lcOpen = true) ∧
  ((s.core i).power = .run) ∧
  ((s.ctx i n).mode = .noTask) ∧
  ((s.core i).resetEnd ≤ s.ct) := by decide +kernel
theorem witness_TaskCommands_2 :
  let s : State := ((State.reset.setFld rBoot 3 0 15).setFlag rBoot 8).setCore 0 { ctx := [(0, { mode := .running })] }
  let i : CoreIx := 0
  let n : CtxIx := 0
  (s.bootReady = true) ∧
  (s.lcOpen = true) ∧
  ((s.core i).power = .run) ∧
  ((s.core i).holdsTask n = true) := by decide +kernel
theorem witness_TaskCommands_3 :
  let s : State := tRun
  let i : CoreIx := 0
  let n : CtxIx := 0
  ((s.core i).off = false) ∧
  ((s.ctx i n).mode = .running ∨ (∃ w, (s.ctx i n).mode = .waiting w) ∨ (∃ c, (s.ctx i n).mode = .ready c)) := by exact ⟨by decide +kernel, .inl (by decide +kernel)⟩
theorem witness_TaskCommands_4 :
  let s : State := State.reset
  let i : CoreIx := 0
  let n : CtxIx := 0
  ((s.ctx i n).mode = .noTask) := by decide +kernel
theorem witness_TaskCommands_5 :
  let s : State := State.reset
  let i : CoreIx := 0
  let n : CtxIx := 0
  ((s.core i).off = false) ∧
  ((s.ctx i n).mode = .noTask ∨ (s.ctx i n).mode = .waiting .replay) := by decide +kernel
theorem witness_TaskCommands_6 :
  let s : State := tRun
  let i : CoreIx := 0
  let n : CtxIx := 0
  ((s.core i).off = false) ∧
  ((s.ctx i n).mode ≠ .noTask) ∧
  ((s.ctx i n).mode ≠ .waiting .replay) := by decide +kernel
theorem witness_TaskCommands_7 :
  let s : State := State.reset.setCore 0 { power := .deep }
  let i : CoreIx := 0
  ((s.core i).off = true) := by decide +kernel
theorem witness_ContextClears_1 :
  let s : State := tIdle (.ending false) .idle
  let i : CoreIx := 0
  let n : CtxIx := 0
  let ab : Bool := false
  ((s.ctx i n).mode = .ending ab) ∧
  ((s.core i).power = .run) ∧
  (ab = true ∨ ((s.core i).sb.all (fun e => e.ctx ≠ n) = true ∧ (s.core i).outstanding n = 0 ∧ ((s.core i).svuTail ++ (s.core i).svu.toList).all (fun o => o.ctx ≠ n) = true)) := by decide +kernel
theorem witness_ContextClears_2 :
  let s : State := tIdle (.closing 300) .idle
  let i : CoreIx := 0
  let n : CtxIx := 0
  let u : Nat := 300
  ((s.ctx i n).mode = .closing u) ∧
  ((s.core i).power = .run) := by decide +kernel
theorem witness_ContextClears_3 :
  let s : State := tIdle (.opening 256 false) .idle
  let i : CoreIx := 0
  let n : CtxIx := 0
  let u : Nat := 256
  ((s.ctx i n).mode = .opening u false) ∧
  ((s.core i).power = .run) ∧
  (((s.toCyc i u).core i).phase = .gated ∨ ((s.toCyc i u).core i).phase = .idle) := by decide +kernel
theorem witness_ContextClears_4 :
  let s : State := State.reset.setCore 0 { clear := { todo := [511] } }
  let i : CoreIx := 0
  let a : Nat := 511
  let rest : List Nat := []
  ((s.core i).power = .run) ∧
  ((s.core i).clear.todo = a :: rest) ∧
  ((s.core i).clear.rush = []) := by decide +kernel
theorem witness_ContextClears_5 :
  let s : State := State.reset.setCore 0 { clear := { rush := [(511, 4)] } }
  let i : CoreIx := 0
  let a : Nat := 511
  let b : Nat := 4
  let rest : List (Nat × Nat) := []
  ((s.core i).clear.rush = (a, b) :: rest) := by decide +kernel
theorem witness_CacheMissAndFill_1 :
  let s : State := tIdle .running (.running 0)
  let i : CoreIx := 0
  let n : CtxIx := 0
  ((s.core i).phase = .running n) ∧
  ((s.ctx i n).mode = .running) ∧
  ((s.core i).present ((s.ctx i n).pc.toNat / 8) = false) ∧
  ((s.ctx i n).timed = false) ∧
  ((s.core i).nextIssue ≤ s.cycOf i) ∧
  ((s.core i).lineRow ((s.ctx i n).pc.toNat / 8) ≤ lastCellarRow) := by decide +kernel
theorem witness_CacheMissAndFill_2 :
  let s : State := State.reset.setCore 0 { fills := [⟨5, 0, true, 0, true⟩] }
  let i : CoreIx := 0
  let line : Nat := 5
  let f : Fill := ⟨5, 0, true, 0, true⟩
  let v := s.toCyc i (f.since + 176)
  let row := (v.core i).lineRow line
  let q := (v.toCt (v.lineFree row (line % 2))).readLine row (line % 2)
  ((s.core i).fills.find? (fun g => g.line == line) = some f) ∧
  (f.credit = true) ∧
  (s.mutes i = false) ∧
  (v.rowHeld row = false) ∧
  (q.2 = true) := by decide +kernel
theorem witness_CacheMissAndFill_3 :
  let s : State := State.reset.setCore 0 { ctx := [(0, { mode := .waiting (.miss 1 4) })] }
  ((s.core 0).lineWaiters 1 = [0]) ∧ ((s.ctx 0 0).mode = .waiting (.miss 1 4)) := by decide +kernel
theorem witness_MatrixPassEvents_1 :
  let s : State := tGangs ({ tGang with pend := some tPass })
  let i : CoreIx := 0
  let b : ArrIx := 7
  let g : Gang := { tGang with pend := some tPass }
  let p : Pass := tPass
  ((s.core i).gang b = some g) ∧
  (g.pend = some p) := by decide +kernel
theorem witness_MatrixPassEvents_2 :
  let s : State := tGangs ({ tGang with acc := some tPass })
  let i : CoreIx := 0
  let b : ArrIx := 7
  let g : Gang := { tGang with acc := some tPass }
  let p : Pass := tPass
  ((s.core i).gang b = some g) ∧
  (g.acc = some p) ∧
  (p.done < stepCycles g.fmtA g.fmtB p.k) := by decide +kernel
theorem witness_MatrixPassEvents_3 :
  let s : State := tGangs ({ tGang with acc := some { tPass with hold := true } })
  let i : CoreIx := 0
  let b : ArrIx := 7
  let g : Gang := { tGang with acc := some { tPass with hold := true } }
  let p : Pass := { tPass with hold := true }
  ((s.core i).gang b = some g) ∧
  (g.acc = some p) ∧
  (p.hold = true) := by decide +kernel
theorem witness_MatrixPassEvents_4 :
  let s : State := tGangs ({ tGang with acc := some tPass })
  let i : CoreIx := 0
  let b : ArrIx := 7
  let g : Gang := { tGang with acc := some tPass }
  let p : Pass := tPass
  ((s.core i).gang b = some g) ∧
  (g.acc = some p) := by decide +kernel
theorem witness_MatrixPassEvents_5 :
  let s : State := tGangs ({ tGang with drn := [⟨tPass, 40, []⟩], swap := some 40 })
  let i : CoreIx := 0
  let b : ArrIx := 7
  let g : Gang := { tGang with drn := [⟨tPass, 40, []⟩], swap := some 40 }
  let d : Drain := ⟨tPass, 40, []⟩
  let l : List Drain := []
  ((s.core i).gang b = some g) ∧
  (g.drn = d :: l) := by decide +kernel
theorem witness_MatrixPassEvents_6 :
  let g : Gang := { tGang with pend := some tPass }
  let p : Pass := tPass
  (g.pend = some p) ∧
  (g.acc = none) := by decide +kernel
theorem witness_MatrixPassEvents_7 :
  let s : State := (tGangs ({ tGang with acc := some tPass })).modCore 0 (fun k => { k with fq := [(0, { rows := [⟨0, 0, 0, false⟩, ⟨0, 0, 0, false⟩] }), (1, { rows := [⟨0, 0, 0, false⟩, ⟨0, 0, 0, false⟩] })] })
  let i : Nat := 0
  let b : Nat := 7
  let c : Nat := 9
  let g : Gang := { tGang with acc := some tPass }
  let p : Pass := tPass
  let fa : Fmt := ⟨.int 8 0, false⟩
  let fb : Fmt := ⟨.int 8 0, false⟩
  let st := stepsIn g.fmtA g.fmtB p.done
  let d := stepsBy g.fmtA g.fmtB (p.done + 1)
  let dA := cycleNeed (32 * (shapeRC g.shape).1) fa p.k st.1 st.2 d
  let dB := cycleNeed (32 * (shapeRC g.shape).2) fb p.k st.1 st.2 d
  let s0 := s.modCore i (fun k => k.setGang b g)
  let lA := lookNeed (s0.core i) p.qa p.tag c p.popA p.hold dA
  let lB := lookNeed (s0.core i) p.qb p.tag c p.popB p.hold dB
  ((s.core i).gang b = some g) ∧
  ((g.start c).acc = some p) ∧
  (fmtOf g.fmtA = some fa) ∧
  (fmtOf g.fmtB = some fb) ∧
  (p.done < stepCycles g.fmtA g.fmtB p.k) ∧
  (g.start c = g) ∧
  (lA matches .here _) ∧
  (lB matches .here _) := by decide +kernel
theorem witness_MatrixPassEvents_8 :
  let s : State := (tGangs ({ tGang with acc := some tPass })).modCore 0 (fun k => { k with fq := [(0, { rows := [⟨0, 0, 0, false⟩, ⟨0, 0, 0, false⟩] }), (1, { rows := [] })] })
  let i : Nat := 0
  let b : Nat := 7
  let c : Nat := 9
  let g : Gang := { tGang with acc := some tPass }
  let p : Pass := tPass
  let fa : Fmt := ⟨.int 8 0, false⟩
  let fb : Fmt := ⟨.int 8 0, false⟩
  let st := stepsIn g.fmtA g.fmtB p.done
  let d := stepsBy g.fmtA g.fmtB (p.done + 1)
  let dA := cycleNeed (32 * (shapeRC g.shape).1) fa p.k st.1 st.2 d
  let dB := cycleNeed (32 * (shapeRC g.shape).2) fb p.k st.1 st.2 d
  let s0 := s.modCore i (fun k => k.setGang b g)
  let lA := lookNeed (s0.core i) p.qa p.tag c p.popA p.hold dA
  let lB := lookNeed (s0.core i) p.qb p.tag c p.popB p.hold dB
  ((s.core i).gang b = some g) ∧
  ((g.start c).acc = some p) ∧
  (fmtOf g.fmtA = some fa) ∧
  (fmtOf g.fmtB = some fb) ∧
  (p.done < stepCycles g.fmtA g.fmtB p.k) ∧
  (g.start c = g) ∧
  (lA ≠ .leak) ∧
  (lB = .lack) := by decide +kernel
theorem witness_MatrixPassEvents_9 :
  let s : State := (tGangs ({ tGang with acc := some tPass })).modCore 0 (fun k => { k with fq := [(0, { rows := [⟨0, 1, 0, false⟩] }), (1, { rows := [⟨0, 0, 0, false⟩, ⟨0, 0, 0, false⟩] })] })
  let i : Nat := 0
  let b : Nat := 7
  let c : Nat := 9
  let g : Gang := { tGang with acc := some tPass }
  let p : Pass := tPass
  let fa : Fmt := ⟨.int 8 0, false⟩
  let fb : Fmt := ⟨.int 8 0, false⟩
  let st := stepsIn g.fmtA g.fmtB p.done
  let d := stepsBy g.fmtA g.fmtB (p.done + 1)
  let dA := cycleNeed (32 * (shapeRC g.shape).1) fa p.k st.1 st.2 d
  let dB := cycleNeed (32 * (shapeRC g.shape).2) fb p.k st.1 st.2 d
  let s0 := s.modCore i (fun k => k.setGang b g)
  let lA := lookNeed (s0.core i) p.qa p.tag c p.popA p.hold dA
  let lB := lookNeed (s0.core i) p.qb p.tag c p.popB p.hold dB
  ((s.core i).gang b = some g) ∧
  ((g.start c).acc = some p) ∧
  (fmtOf g.fmtA = some fa) ∧
  (fmtOf g.fmtB = some fb) ∧
  (p.done < stepCycles g.fmtA g.fmtB p.k) ∧
  (g.start c = g) ∧
  (lA = .leak) := by decide +kernel
theorem witness_MatrixPassEvents_10 :
  let g : Gang := tGang
  let p : Pass := tPass
  let blk := (stepsIn g.fmtA g.fmtB p.done).1 / 32
  (stepsBy g.fmtA g.fmtB (p.done + 1) < 32 * (blk + 1)) ∧ (let q := { p with done := stepCycles g.fmtA g.fmtB 32 - 1 }; 32 * ((stepsIn g.fmtA g.fmtB q.done).1 / 32 + 1) ≤ stepsBy g.fmtA g.fmtB (q.done + 1)) := by decide +kernel
theorem witness_MatrixPassEvents_11 :
  let g : Gang := { tGang with acc := some tPass }
  let p : Pass := tPass
  (g.acc = some p) := by decide +kernel
theorem witness_MatrixPassEvents_12 :
  let s : State := tGangs ({ tGang with drn := [⟨tPass, 40, []⟩], swap := some 40 })
  let i : Nat := 0
  let b : Nat := 7
  let c : Nat := 43
  let g : Gang := { tGang with drn := [⟨tPass, 40, []⟩], swap := some 40 }
  let d : Drain := ⟨tPass, 40, []⟩
  let path : Path := .integer
  ((s.core i).gang b = some g) ∧
  (pairing g.fmtA g.fmtB = some path) ∧
  (d.swap + 3 ≤ c) := by decide +kernel
theorem witness_MatrixPassEvents_13 :
  let d : Drain := ⟨tPass, 40, [(256 * 255 + 31, 7)]⟩
  let j : Nat := 31
  let i : Nat := 255
  let v : W32 := 7
  (i < 256) ∧
  (j < 256) ∧
  (d.cells.filter (fun e => e.1 % 256 == j) = [(256 * i + j, v)]) := by decide +kernel
theorem witness_TileRangeAndMoveEvents_1 :
  let s : State := State.reset
  let i : CoreIx := 0
  let n : CtxIx := 0
  let v : W64 := BitVec.ofNat 64 (512 * 2 ^ 16)
  (bit v 63 = false) ∧
  (bits ((s.core i).reg (offTiles n)) 32 0 ≠ bits v 32 32 * 2 ^ 32 + bits v 25 16 * 2 ^ 16 + bits v 8 0) := by decide +kernel
theorem witness_TileRangeAndMoveEvents_2 :
  let s : State := State.reset.setCore 0 { move := some (tMove true) }
  let i : CoreIx := 0
  let m : TileMove := tMove true
  ((s.core i).move = some m) := by decide +kernel
theorem witness_TileRangeAndMoveEvents_3 :
  let s : State := State.reset.setCore 0 { move := some (tMove true) }
  let i : Nat := 0
  let c : Nat := 2
  let m : TileMove := tMove true
  ((s.core i).move = some m) ∧
  (m.ld = true) ∧
  (m.issued + 2 ≤ c) ∧
  (c < m.issued + 2 + 8 * m.nt) ∧
  ((s.readLocal i m.ctx (m.row + (c - (m.issued + 2))) c 3).2.isSome = true) := by decide +kernel
theorem witness_TileRangeAndMoveEvents_4 :
  let s : State := State.reset.setCore 0 { move := some (tMove false) }
  let i : Nat := 0
  let c : Nat := 8
  let m : TileMove := tMove false
  ((s.core i).move = some m) ∧
  (m.ld = false) ∧
  (m.issued + 1 ≤ c) ∧
  (c < m.issued + 1 + 8 * m.nt) := by decide +kernel
theorem witness_TileRangeAndMoveEvents_5 :
  let m : TileMove := { tMove true with got := [5] }
  let s : State := State.reset.setCore 0 { move := some m }
  ((s.core 0).move = some m) ∧
  (m.got = 5 :: []) ∧
  (m.ld = true) ∧
  (m.issued + 4 ≤ 11) := by decide +kernel
theorem witness_TileRangeAndMoveEvents_6 :
  let m : TileMove := { tMove false with got := [5] }
  let s : State := State.reset.setCore 0 { move := some m }
  ((s.core 0).move = some m) ∧
  (m.got = 5 :: []) ∧
  (m.ld = false) ∧
  (m.issued + 3 ≤ 10) := by decide +kernel
theorem witness_TileRangeAndMoveEvents_7 :
  let s : State := State.reset.setCore 0 { mvp := { tMvp with load := some tLoad }, fq := [(0, { rows := [] })] }
  let i : CoreIx := 0
  let l : VLoad := tLoad
  ((s.core i).mvp.load = some l) := by decide +kernel
theorem witness_TileRangeAndMoveEvents_8 :
  let s : State := State.reset.setCore 0 { mvp := { tMvp with load := some tLoad }, fq := [(0, { rows := [⟨5, 0, 0, false⟩] })] }
  let i : Nat := 0
  let c : Nat := 1
  let l : VLoad := tLoad
  ((s.core i).mvp.load = some l) ∧
  (l.issued < c) ∧
  (l.got.length < vecSpan (s.core i).mvp.fmtV (s.core i).mvp.k * l.c) ∧
  (lookRows l.tag c l.hold 1 ((s.core i).free l.q) = .here [⟨5, 0, 0, false⟩]) := by decide +kernel
theorem witness_TileRangeAndMoveEvents_9 :
  let s : State := State.reset.setCore 0 { mvp := { tMvp with load := some tLoad }, fq := [(0, { rows := [] })] }
  let i : Nat := 0
  let c : Nat := 1
  let l : VLoad := tLoad
  ((s.core i).mvp.load = some l) ∧
  (l.issued < c) ∧
  (l.got.length < vecSpan (s.core i).mvp.fmtV (s.core i).mvp.k * l.c) ∧
  (lookRows l.tag c l.hold 1 ((s.core i).free l.q) = .lack) := by decide +kernel
theorem witness_TileRangeAndMoveEvents_10 :
  let s : State := State.reset.setCore 0 { mvp := { tMvp with load := some tLoad }, fq := [(0, { rows := [⟨5, 1, 0, false⟩] })] }
  let i : Nat := 0
  let c : Nat := 1
  let l : VLoad := tLoad
  ((s.core i).mvp.load = some l) ∧
  (l.issued < c) ∧
  (l.got.length < vecSpan (s.core i).mvp.fmtV (s.core i).mvp.k * l.c) ∧
  (lookRows l.tag c l.hold 1 ((s.core i).free l.q) = .leak) := by decide +kernel
theorem witness_TileRangeAndMoveEvents_11 :
  let k : Core := { mvp := { tMvp with load := some tLoad } }
  let l : VLoad := tLoad
  (k.mvp.load = some l) := by decide +kernel
theorem witness_TileRangeAndMoveEvents_12 :
  let s : State := State.reset.setCore 0 { mvp := { tMvp with passes := [tVPass] } }
  let i : CoreIx := 0
  let p : VPass := tVPass
  let rest : List VPass := []
  ((s.core i).mvp.passes = p :: rest) := by decide +kernel
theorem witness_TileRangeAndMoveEvents_13 :
  let s : State := State.reset.setCore 0 { mvp := { tMvp with passes := [tVPass] } }
  let i : Nat := 0
  let c : Nat := 5 + (0 + 1) * mvD 14 64 * mvF 1
  let p : VPass := tVPass
  let v := (s.core i).mvp
  let d := mvD v.fmtW v.k
  let r := mvBlockInto (s.core i) p (p.rows.take (2 * d))
  let q : VPass := { p with block := p.block + 1, flags := p.flags ||| r.2, rows := p.rows.drop (2 * d) }
  let s1 := s.setCore i { r.1 with mvp := r.1.mvp.setPass p.entry (some q) }
  (p.block < p.nb) ∧
  (c = p.issued + 5 + (p.block + 1) * d * mvF v.ports) ∧
  (p.nb ≤ p.block + 1) := by decide +kernel
theorem witness_TileRangeAndMoveEvents_14 :
  let s : State := State.reset.setCore 0 { mvp := { tMvp with passes := [tVPass] } }
  let i : Nat := 0
  let c : Nat := 5 + (0 + 1) * mvD 14 64 * mvF 1
  let p : VPass := { tVPass with nb := 2 }
  let v := (s.core i).mvp
  let d := mvD v.fmtW v.k
  let r := mvBlockInto (s.core i) p (p.rows.take (2 * d))
  let q : VPass := { p with block := p.block + 1, flags := p.flags ||| r.2, rows := p.rows.drop (2 * d) }
  let s1 := s.setCore i { r.1 with mvp := r.1.mvp.setPass p.entry (some q) }
  (p.block < p.nb) ∧
  (c = p.issued + 5 + (p.block + 1) * d * mvF v.ports) ∧
  (p.block + 1 < p.nb) := by decide +kernel
theorem witness_TileRangeAndMoveEvents_15 :
  let s : State := State.reset.setCore 0 { mvp := { tMvp with passes := [tVPass] } }
  let i : Nat := 0
  let c : Nat := 3
  let p : VPass := tVPass
  ((s.core i).mvp.passes.find? (fun x => x.entry == p.entry) = some p) ∧
  (p.issued + 2 ≤ c) ∧
  (c < p.issued + 2 + p.nb * mvD (s.core i).mvp.fmtW (s.core i).mvp.k * 2) ∧
  (mvF (s.core i).mvp.ports = 2) ∧
  ((s.readLocal i p.ctx (p.wrow + (c - (p.issued + 2))) c 3).2.isSome = true) := by decide +kernel
theorem witness_TileRangeAndMoveEvents_16 :
  let s : State := State.reset.setCore 0 { mvp := { tMvp with clearEnd := some 32 } }
  let i : CoreIx := 0
  let e : Nat := 32
  ((s.core i).mvp.clearEnd = some e) := by decide +kernel
theorem witness_TileRangeAndMoveEvents_17 :
  let s : State := State.reset.setCore 0 { mvp := { tMvp with clearEnd := some 32 } }
  let i : Nat := 0
  let e : Nat := 32
  ((s.core i).mvp.passes = []) ∧
  ((s.core i).mvp.load = none) ∧
  ((s.core i).mvp.clearEnd = some e) := by decide +kernel
theorem witness_VectorFunctions_1 :
  let o : SvuOp := tSvu 2
  (o.func ≠ 16) := by decide +kernel
theorem witness_VectorFunctions_2 :
  let s : State := State.reset.setCore 0 { svu := some tSvuQ, fq := [(0, { rows := [⟨5, 0, 0, false⟩, ⟨5, 0, 0, false⟩] })] }
  let i : Nat := 0
  let c : Nat := 2
  let o : SvuOp := tSvuQ
  let x := o.age c - 2
  let look := (s.core i).lookTwo o.tag c o.hold o.sa (o.rowsA x - o.inA.length) o.sb (o.rowsB x - o.inB.length)
  ((s.core i).svu = some o) ∧
  (2 ≤ o.age c) ∧
  (look matches (.here _, .here _)) := by decide +kernel
theorem witness_VectorFunctions_3 :
  let s : State := State.reset.setCore 0 { svu := some tSvuQ, fq := [(0, { rows := [] })] }
  let i : Nat := 0
  let c : Nat := 2
  let o : SvuOp := tSvuQ
  let x := o.age c - 2
  let look := (s.core i).lookTwo o.tag c o.hold o.sa (o.rowsA x - o.inA.length) o.sb (o.rowsB x - o.inB.length)
  ((s.core i).svu = some o) ∧
  (2 ≤ o.age c) ∧
  (look.1 = .lack) ∧
  (look.2 ≠ .leak) := by decide +kernel
theorem witness_VectorFunctions_4 :
  let s : State := State.reset.setCore 0 { svu := some tSvuQ, fq := [(0, { rows := [⟨5, 1, 0, false⟩] })] }
  let i : Nat := 0
  let c : Nat := 2
  let o : SvuOp := tSvuQ
  let x := o.age c - 2
  let look := (s.core i).lookTwo o.tag c o.hold o.sa (o.rowsA x - o.inA.length) o.sb (o.rowsB x - o.inB.length)
  ((s.core i).svu = some o) ∧
  (2 ≤ o.age c) ∧
  (look.1 = .leak) := by decide +kernel
theorem witness_VectorFunctions_5 :
  let o : SvuOp := tSvuQ
  (isQueue o.sa = true) ∧
  (isQueue o.sb = true) := by decide +kernel
theorem witness_VectorAndEpilogueCompletion_1 :
  let s : State := State.reset.setCore 0 { svuTail := [tSvu 0] }
  let i : CoreIx := 0
  let o : SvuOp := tSvu 0
  let l : List SvuOp := []
  ((s.core i).svuTail ++ (s.core i).svu.toList = o :: l) := by decide +kernel
theorem witness_VectorAndEpilogueCompletion_2 :
  let s : State := State.reset.setCore 0 { epTail := [tEp] }
  let i : CoreIx := 0
  let o : EpOp := tEp
  let l : List EpOp := []
  ((s.core i).epTail ++ (s.core i).ep.toList = o :: l) := by decide +kernel
theorem witness_VectorAndEpilogueCompletion_3 :
  let c : Nat := 4
  let o : SvuOp := tSvu 0
  (o.hold = false) ∧
  (o.age c ≠ 0) ∧
  (o.dk = 0) := by decide +kernel
theorem witness_RemoteAccessesAtASlice_1 :
  let s : State := { tFlight with flights := [⟨1, 1, .core 1 0 7, .access tAcc, [], 5⟩] }
  let i : CoreIx := 1
  let id : Nat := 1
  let f0 : Flight := ⟨1, 1, .core 1 0 7, .access tAcc, [], 5⟩
  let a0 : Access := tAcc
  (s.flights.find? (fun f => f.id == id) = some f0) ∧
  (f0.cargo = .access a0) ∧
  (f0.target = i.val) ∧
  ((s.landed i id).2.isSome = true) := by decide +kernel
theorem witness_RemoteAccessesAtASlice_2 :
  let s : State := tFlight
  let i : CoreIx := 0
  let a : Access := tAcc
  let rest : List Access := []
  ((s.core i).rbuf = a :: rest) := by decide +kernel
theorem witness_RemoteAccessesAtASlice_3 :
  let s : State := tFlight
  ((s.core 0).rbuf = [tAcc]) ∧
  ((s.core 0).rport ≤ 9) ∧
  ((s.usesBank 0 tAcc 9 && (s.core 0).bankBusy tAcc.row 9) = false) := by decide +kernel
theorem witness_RemoteAccessesAtASlice_4 :
  let s : State := tFlight.modCore 0 (fun k => { k with bankUse := (9, List.range 16) })
  ((s.core 0).rbuf = [tAcc]) ∧
  ((s.core 0).rport ≤ 9) ∧
  ((s.usesBank 0 tAcc 9 && (s.core 0).bankBusy tAcc.row 9) = true) := by decide +kernel
theorem witness_RemoteAccessesAtASlice_5 :
  let s : State := tFlight
  let i : Nat := 0
  let a : Access := tAcc
  (s.judge i a 3 ≠ 0) ∧
  (a.kind ≠ .copy) := by decide +kernel
theorem witness_RemoteAccessesAtASlice_6 :
  let s : State := tWin
  let i : Nat := 0
  let m : Nat := 2
  let w : Win := { owner := 0, desc := tWinDesc }
  let a : Access := tAcc
  (s.judge i a 1 = 0) ∧
  ((s.core i).winOf a.row 1 = some (m, w)) := by decide +kernel
theorem witness_RemoteAccessesAtASlice_7 :
  let s : State := tSeq
  let i : CoreIx := 0
  ((s.core i).wins.map (fun p => p.2.apply.length)).sum ≠ 0 := by decide +kernel
theorem witness_RemoteAccessesAtASlice_8 :
  let s : State := tSeq
  let i : Nat := 0
  let c : Nat := 0
  let m : Nat := 2
  let w : Win := { owner := 0, desc := tWinDesc ||| 72057594037927936, apply := [tAcc] }
  let a : Access := tAcc
  ((s.core i).rport ≤ c) ∧
  ((s.core i).readySeq c = some (m, w, a)) := by decide +kernel
theorem witness_RemoteAccessesAtASlice_9 :
  let s : State := tWin
  let i : Nat := 0
  let a : Access := tAcc
  ((s.core i).array = none) ∧
  ((s.core i).rbuf = []) ∧
  ((s.core i).rport ≤ 0) ∧ (s.usesBank i a 0 = false ∨ (s.core i).bankBusy a.row 0 = false) := by decide +kernel
theorem witness_RemoteAccessesAtASlice_10 :
  let s : State := State.reset.modCore 0 (fun k => { k with rport := 9, rbuf := [tAcc, tAcc, tAcc, tAcc] })
  ((s.core 0).array = none) ∧ 3 < (s.core 0).rport ∧ ((s.core 0).rbuf.length = 4) := by decide +kernel
theorem witness_RowCareOfASlice_1 :
  let s : State := State.reset.setCore 0 { rewrites := [7] }
  let i : CoreIx := 0
  let p : Nat := 7
  let rest : List Nat := []
  ((s.core i).rewrites = p :: rest) ∧ ((s.core i).array = none) := by decide +kernel
theorem witness_RowCareOfASlice_2 :
  let s : State := State.reset
  let i : CoreIx := 0
  (bit ((s.core i).reg 0x8048) 31 = true) ∧
  ((s.core i).repair = none) ∧
  ((s.core i).copy = none) ∧
  ((s.core i).array = none) := by decide +kernel
theorem witness_RowCareOfASlice_3 :
  let s : State := State.reset.setCore 0 { repair := some 5 }
  let i : CoreIx := 0
  let r : Nat := 5
  ((s.core i).repair = some r) ∧ ((s.core i).array = none) := by decide +kernel
theorem witness_RowCareOfASlice_4 :
  let v : W64 := 1
  (bit v 0 = true) := by decide +kernel
theorem witness_RowCareOfASlice_5 :
  let s : State := State.reset.setCore 0 { copy := some ⟨72, 0, 0⟩ }
  let i : CoreIx := 0
  let y : Copy := ⟨72, 0, 0⟩
  ((s.core i).copy = some y) ∧
  ((s.core i).copyFrom y.row ≤ 49151) := by decide +kernel
theorem witness_RowCareOfASlice_6 :
  let s : State := State.reset.setCore 0 { copy := some ⟨72, 49152, 0⟩ }
  let i : CoreIx := 0
  let y : Copy := ⟨72, 49152, 0⟩
  ((s.core i).copy = some y) ∧
  (49151 < (s.core i).copyFrom y.row) ∧
  (y.flying = 0) := by decide +kernel
theorem witness_RowCareOfASlice_7 :
  let s : State := State.reset.setCore 0 { rewrites := [7] }
  ((s.core 0).rewrites = 7 :: []) ∧ ((s.core 0).array = none) := by decide +kernel
theorem witness_RowCareOfASlice_8 :
  let s : State := State.reset.setCore 0 { scrubbing := some 7 }
  ((s.core 0).rewrites = []) ∧ ((s.core 0).repair = none) ∧ ((s.core 0).scrubbing = some 7) ∧ ((s.core 0).array = none) ∧ ((s.core 0).bankIdle (7 / 3136) 3 = true) := by decide +kernel
theorem witness_RowCareOfASlice_9 :
  let s : State := State.reset.setCore 0 { repair := some 5 }
  ((s.core 0).rewrites = []) ∧ ((s.core 0).repair = some 5) ∧ ((s.core 0).array = none) ∧ ((s.core 0).bankIdle 5 3 = true) ∧ ((s.core 0).spareRow (5 % 16) = some (5 * 3136 + 3072)) := by decide +kernel
theorem witness_RowCareOfASlice_10 :
  let s : State := State.reset.setCore 0 { copy := some ⟨72, 0, 0⟩ }
  let i : Nat := 0
  let y : Copy := ⟨72, 0, 0⟩
  ((s.core i).copy = some y) ∧ ((s.core i).copyFrom y.row ≤ 49151) ∧ ((s.core i).array = none) ∧ ((s.core i).rport ≤ 2) ∧ ((s.core i).rbuf = []) ∧ ((s.core i).bankBusy ((s.core i).copyFrom y.row) 2 = false) := by decide +kernel
theorem witness_TransfersReturn_1 :
  let s : State := tGet
  let i : CoreIx := 0
  let id : Nat := 1
  let f : Flight := ⟨1, 0, .core 0 0 7, .ret 0 9 0, [], 5⟩
  let x : XferOp := ⟨7, 0, 2, 2, 0, 64, 0, 5000, some 3, 1, true⟩
  (s.flights.find? (fun f => f.id == id) = some f) ∧
  (f.target = i.val) ∧
  ((s.landed i id).2 = some f) ∧
  (((s.landed i id).1.dropFlight id).refuses i = false) ∧
  (f.cargo = .ret 0 9 0) ∧ (f.origin = .core 0 0 7) ∧
  ((((s.landed i id).1.dropFlight id).core i).xfers.find? (fun x => x.id == 7) = some x) := by decide +kernel
theorem witness_TransfersReturn_2 :
  let s : State := State.reset.setCore 0 { records := [⟨7, .core 1 0 7, 2, 1, 0, 0, 9, none⟩] }
  let i : CoreIx := 0
  let id : Nat := 7
  let r : OpRecord := ⟨7, .core 1 0 7, 2, 1, 0, 0, 9, none⟩
  ((s.core i).records.find? (fun r => r.id == id) = some r) := by decide +kernel
theorem witness_TransfersReturn_3 :
  let s : State := tSt 1
  let i : CoreIx := 0
  let id : Nat := 4
  let op : Nat := 7
  let r : Nat := 0
  let x : XferOp := ⟨7, 0, 1, 2, 0, 64, 0, 5000, some 3, 1, true⟩
  (s.isStatus id = true) ∧
  (s.noteKind i id ≠ some 3) ∧
  ((s.ctlArrives i id).2 = some (.status op r)) ∧
  (((s.ctlArrives i id).1.core i).xfers.find? (fun x => x.id == op) = some x) := by decide +kernel
theorem witness_TransfersReturn_4 :
  let s : State := tSt 3
  let i : CoreIx := 0
  let id : Nat := 4
  let op : Nat := 7
  let r : Nat := 0
  let x : XferOp := ⟨7, 0, 3, 2, 0, 64, 0, 5000, some 3, 1, true⟩
  (s.noteKind i id = some 3) ∧
  ((s.ctlArrives i id).2 = some (.status op r)) ∧
  (((s.ctlArrives i id).1.core i).xfers.find? (fun x => x.id == op) = some x) := by decide +kernel
theorem witness_TransfersReturn_5 :
  let s : State := tSt 1
  let i : CoreIx := 0
  let n : CtxIx := 0
  let id : Nat := 7
  let x : XferOp := ⟨7, 0, 1, 2, 0, 64, 0, 5000, some 3, 1, true⟩
  ((s.core i).xfers.find? (fun x => x.id == id && x.ctx == n.val) = some x) := by decide +kernel
theorem witness_TransfersReturn_6 :
  let s : State := { State.reset with ctls := [⟨4, 0, .signal 9, [], 0, 0⟩] }
  let i : CoreIx := 0
  let id : Nat := 4
  let f : Nat := 9
  (s.isStatus id = false) ∧
  ((s.ctlArrives i id).2 = some (.signal f)) := by decide +kernel
theorem witness_TransfersReturn_7 :
  let s : State := { State.reset with flights := [⟨1, 0, .core 1 0 7, .msg 2 0 1 0 1 5, [], 5⟩] }
  let i : CoreIx := 0
  let id : Nat := 1
  let f : Flight := ⟨1, 0, .core 1 0 7, .msg 2 0 1 0 1 5, [], 5⟩
  (s.flights.find? (fun f => f.id == id) = some f) ∧
  (f.cargo = .msg 2 0 1 0 1 5) ∧
  (f.target = i.val) ∧
  ((s.landed i id).2 = some f) ∧ (s.landed i id).1.refuses i = false ∧ 1 ≤ ((s.landed i id).1.msgRows i f.op f.due).length := by decide +kernel
theorem witness_StreamOperations_1 :
  let s : State := tLoadable
  let x : Stream := tProg
  let w : Row := tProgRow
  let q := (s.modCore 0 (fun k => (k.grant (s.cycOf 0) 16).noteBank x.prow (s.cycOf 0))).readComb 0 x.prow
  ((s.toCyc 0 x.from_).await 0 (fun t => decide (0 < (t.core 0).portsLeft (t.cycOf 0))) bankFuel = s) ∧
  ((s.core 0).stream 0 = some x ∧ x.st = 1 ∧
  ((s.core 0).shares x.prow 1 && !((s.core 0).inExtent x.ctx x.tag x.prow 1)) = false ∧
  q.2 = some w ∧
  q.1.loadFaults 0 { x with words := (programWords w x.half).1, from_ := s.cycOf 0 + 3 } (programWords w x.half).2 = []) := by
  refine ⟨?_, by decide +kernel⟩
  show tLoadable.await 0 _ (2 ^ 20) = _
  rfl
theorem witness_StreamOperations_2 :
  let s : State := State.reset.setCore 0 { streams := [(0, tStr 0 0)] }
  let i : CoreIx := 0
  let slot : StrIx := 0
  let x : Stream := tStr 0 0
  let u : State := s.toCyc i x.next
  ((s.core i).stream slot = some x) ∧
  (x.runs = true) ∧
  (wordOp x.word = 4) ∧
  ((u.core i).stream slot = some x) ∧ (u.grantPlan i (u.cycOf i)).1.contains slot.val = true := by decide +kernel
theorem witness_StreamOperations_3 :
  let x : Stream := tStr 0 0
  (x.moveOp.src = 0) ∧ x.moveOp.toReg = false := by decide +kernel
theorem witness_StreamOperations_4 :
  let x : Stream := tStr 0 1
  (x.moveOp.src = 1) ∧ x.moveOp.toReg = false := by decide +kernel
theorem witness_StreamOperations_5 :
  let s : State := tHost
  let k : Machine.Core := {}
  let x : Stream := tStr 0 2
  let a : Avail := k.avail 3
  (x.moveOp.src = 2) ∧ (x.moveOp.toReg = false) ∧ ((k.rqueue x.moveOp.cq).held 3 + Tab.get 0 a.rq x.moveOp.cq < 16) ∧ (k.fqRoom a x.moveOp.dq x.ctx = true) ∧ (a.host = true) ∧
  ((s.hrows x.moveOp.schan).length + Tab.get 0 a.chan x.moveOp.schan < 64) ∧ (s.lineUp = true) ∧ (s.translate x.moveOp.srow false = .inl 0) := by decide +kernel
theorem witness_StreamOperations_6 :
  let s : State := State.reset.setCore 0 { streams := [(0, tStr 0 0)] }
  ((s.core 0).inOrder 3).filter (fun p => p.2.asks 3) = [(0, tStr 0 0)] := by decide +kernel
theorem witness_StreamOperations_7 :
  let s : State := { State.reset.setCore 0 { regs := [(0xB10, 1)], streams := [(0, tOp 5)] } with ct := 800, cyc := 100 }
  let i : CoreIx := 0
  let slot : StrIx := 0
  let x : Stream := tOp 5
  let u : State := s.toCyc i x.from_
  ((s.core i).stream slot = some x) ∧
  (x.runs = true) ∧
  (wordOp x.word = 5) ∧
  ((u.core i).stream slot = some x) ∧ (x.from_ < u.cycOf i) ∧
  ((u.core i).flagWas (bits x.word 5 0) (u.cycOf i) = true) := by decide +kernel
theorem witness_StreamOperations_8 :
  let s : State := State.reset.setCore 0 { streams := [(0, tOp 5)] }
  let i : CoreIx := 0
  let slot : StrIx := 0
  let x : Stream := tOp 5
  let u : State := s.toCyc i x.from_
  ((s.core i).stream slot = some x) ∧
  (x.runs = true) ∧
  (wordOp x.word = 5) ∧
  ((u.core i).stream slot = some x) ∧
  ((u.core i).flagWas (bits x.word 5 0) (u.cycOf i) = false) ∧
  ((u.core i).flag (bits x.word 5 0) = false) := by decide +kernel
theorem witness_StreamOperations_9 :
  let s : State := State.reset.setCore 0 { streams := [(0, tOp 6)] }
  let i : CoreIx := 0
  let slot : StrIx := 0
  let x : Stream := tOp 6
  ((s.core i).stream slot = some x) ∧
  (x.runs = true) ∧
  (wordOp x.word = 6) ∧
  (x.open_ = 0) ∧
  (x.uncommitted = 0) ∧
  (((s.toCyc i (Nat.max (s.cycOf i) (Nat.max x.from_ x.doneAt))).core i).stream slot = some x) := by decide +kernel
theorem witness_StreamOperations_10 :
  let o : MoveOp := (tStr 0 0).moveOp
  (o.toReg = false) ∧
  (((State.reset.modCore 0 (fun k => (k.grant 9 0).noteBank o.srow 9)).readComb 0 o.srow).2.isSome = true) := by decide +kernel
theorem witness_StreamQueuesAndEnds_1 :
  let s : State := State.reset.setCore 0 { rq := [(0, { entries := [tEnt false] })] }
  let i : CoreIx := 0
  let queue : RqIx := 0
  let entry : Nat := 3
  let e : RqEntry := tEnt false
  let r : Nat := 9
  (((s.core i).rqueue queue).entries.find? (fun e => e.id == entry) = some e) ∧
  (e.src = .cellar r) ∧
  (e.row = none) ∧
  (e.err = false) ∧
  (s.mutes i = false) ∧
  ((s.toCyc i (e.since + 176)).rowHeld r = false) := by decide +kernel
theorem witness_StreamQueuesAndEnds_2 :
  let s : State := State.reset.setCore 0 { rq := [(0, { entries := [tEnt true] })] }
  let i : CoreIx := 0
  let queue : RqIx := 0
  let e : RqEntry := tEnt true
  let rest : List RqEntry := []
  let v : Row := 7
  let d : Nat := 2
  (((s.core i).rqueue queue).entries = e :: rest) ∧
  (e.err = false) ∧
  (e.row = some v) ∧
  (e.dead = false) ∧
  ((e.tok && decide (255 ≤ ((s.core i).rqueue queue).tokens)) = false) ∧
  (e.dest = .fq d) := by decide +kernel
theorem witness_StreamQueuesAndEnds_3 :
  let s : State := State.reset.setCore 0 { rq := [(0, { entries := [{ tEnt true with dest := .home 8 }] })] }
  let i : CoreIx := 0
  let queue : RqIx := 0
  let e : RqEntry := { tEnt true with dest := .home 8 }
  let rest : List RqEntry := []
  let v : Row := 7
  let r : Nat := 8
  (((s.core i).rqueue queue).entries = e :: rest) ∧
  (e.err = false) ∧
  (e.row = some v) ∧
  (e.dead = false) ∧
  ((e.tok && decide (255 ≤ ((s.core i).rqueue queue).tokens)) = false) ∧
  (e.dest = .home r) ∧
  ((((s.core i).granted (s.cycOf i)).contains grantHome || (s.core i).homeAhead queue (s.cycOf i)) = false) := by decide +kernel
theorem witness_StreamQueuesAndEnds_4 :
  let s : State := State.reset.setCore 0 { fwrites := [⟨5, 9, 0, 0, some 0, none⟩] }
  let i : CoreIx := 0
  let w : FWrite := ⟨5, 9, 0, 0, some 0, none⟩
  ((s.core i).fwrites = w :: []) ∧ (w.stream = some 0) ∧ (w.op = none) := by decide +kernel
theorem witness_StreamQueuesAndEnds_5 :
  let s : State := State.reset.setCore 0 { fwrites := [⟨5, 9, 0, 0, none, some 3⟩] }
  let i : CoreIx := 0
  let w : FWrite := ⟨5, 9, 0, 0, none, some 3⟩
  ((s.core i).fwrites = w :: []) ∧ (w.stream = none) ∧ (w.op = some 3) := by decide +kernel
theorem witness_StreamQueuesAndEnds_6 :
  let s : State := State.reset.setCore 0 { wq := [(0, [⟨3, 7, .cellar 9, 1, 0, 0, false, 0⟩])] }
  let i : CoreIx := 0
  let queue : WqIx := 0
  let entry : Nat := 3
  let e : WqEntry := ⟨3, 7, .cellar 9, 1, 0, 0, false, 0⟩
  let r : Nat := 9
  (((s.core i).wqueue queue).find? (fun e => e.id == entry) = some e) ∧
  (e.dest = .cellar r) ∧
  ((s.toCyc i (e.at_ + 1)).rowHeld r = false) := by decide +kernel
theorem witness_StreamQueuesAndEnds_7 :
  let s : State := State.reset.setCore 0 { wq := [(0, [⟨3, 7, .host 0 9, 1, 0, 0, true, 0⟩])] }
  let i : CoreIx := 0
  let queue : WqIx := 0
  let entry : Nat := 3
  let e : WqEntry := ⟨3, 7, .host 0 9, 1, 0, 0, true, 0⟩
  let ch : Nat := 0
  let r : Nat := 9
  (((s.core i).wqueue queue).find? (fun e => e.id == entry) = some e) ∧
  (e.dest = .host ch r) ∧
  (e.ready = true) := by decide +kernel
theorem witness_StreamQueuesAndEnds_8 :
  let s : State := State.reset.setCore 0 { streams := [(0, { tOp 6 with action := 32 })] }
  let i : CoreIx := 0
  let slot : StrIx := 0
  let x : Stream := { tOp 6 with action := 32 }
  ((s.core i).stream slot = some x) ∧
  (x.st = 5 ∨ x.action = 32 ∧ (x.st = 2 ∨ x.st = 3)) ∧
  (x.open_ = 0) := by decide +kernel
theorem witness_StreamQueuesAndEnds_9 :
  let s : State := State.reset.setCore 0 { streams := [(0, tStr 0 2)] }
  let i : CoreIx := 0
  let slot : StrIx := 0
  let reason : B8 := 3
  let x : Stream := tStr 0 2
  ((s.core i).stream slot = some x) ∧
  (x.runs = true) ∧
  (wordOp x.word = 4) ∧
  (x.moveOp.inRange = true) ∧
  (x.moveOp.src = 2) ∧
  (reason = 3) ∧
  (((s.toCyc i x.from_).core i).stream slot = some x) ∧
  ((s.toCyc i x.from_).lineUp = false) := by decide +kernel
theorem witness_StreamQueuesAndEnds_10 :
  let s : State := State.reset.setCore 0 { streams := [(0, { tOp 6 with st := 4 })] }
  let i : CoreIx := 0
  let slot : StrIx := 0
  let x : Stream := { tOp 6 with st := 4 }
  ((s.core i).stream slot = some x) ∧
  (x.st = 4) := by decide +kernel
theorem witness_StreamQueuesAndEnds_11 :
  let s : State := State.reset
  let i : CoreIx := 0
  let slot : StrIx := 0
  ((s.core i).stream slot = none) := by decide +kernel
theorem witness_StreamQueuesAndEnds_12 :
  let s : State := State.reset.setCore 0 { streams := [(0, { tOp 6 with st := 4 })] }
  let i : CoreIx := 0
  let slot : StrIx := 0
  let x : Stream := { tOp 6 with st := 4 }
  ((s.core i).stream slot = some x) ∧
  (x.st = 4) := by decide +kernel
theorem witness_StreamQueuesAndEnds_13 :
  let s : State := State.reset
  let i : CoreIx := 0
  let slot : StrIx := 0
  ((s.core i).stream slot = none) := by decide +kernel
theorem witness_StreamQueuesAndEnds_14 :
  let s : State := State.reset.setCore 0 { wq := [(0, [⟨3, 7, .cellar 9, 1, 0, 0, false, 0⟩])] }
  let i : Nat := 0
  let q : Nat := 0
  let id : Nat := 3
  let e : WqEntry := ⟨3, 7, .cellar 9, 1, 0, 0, false, 0⟩
  let r : Nat := 9
  (((s.core i).wqueue q).find? (fun e => e.id == id) = some e) ∧
  (e.dest = .cellar r) := by decide +kernel
theorem witness_SpeculationEnds_1 :
  let s : State := State.reset.setCore 0 { phase := .running 0, ctx := [(0, { mode := .running, tags := [(1, { st := 2, rd := 5, nr := 16 })] })] }
  let i : CoreIx := 0
  let n : CtxIx := 0
  let t : Nat := 1
  let u : State := s.toCyc i (s.core i).nextIssue
  ((s.core i).phase = .running n.val) ∧
  ((s.ctx i n).confirmPending = some t) ∧
  ((s.ctx i n).mode = .running) ∧
  (s.toCyc i (s.core i).nextIssue = u) ∧
  (((u.core i).portBusy .confirm || (u.core i).sbFull || (u.core i).sbHit false ((s.ctx i n).getTag t).tb ((s.ctx i n).getTag t).nr) = false) := by decide +kernel
theorem witness_SpeculationEnds_2 :
  let s : State := State.reset.setCore 0 { wport := some (.svu, 3), phase := .running 0, ctx := [(0, { mode := .running, tags := [(1, { st := 2, rd := 5, nr := 16 })] })] }
  let i : CoreIx := 0
  let n : CtxIx := 0
  let t : Nat := 1
  let u : State := s.toCyc i (s.core i).nextIssue
  ((s.core i).phase = .running n.val) ∧
  ((s.ctx i n).confirmPending = some t) ∧
  ((s.ctx i n).mode = .running) ∧
  (s.toCyc i (s.core i).nextIssue = u) ∧
  (((u.core i).portBusy .confirm || (u.core i).sbFull || (u.core i).sbHit false ((s.ctx i n).getTag t).tb ((s.ctx i n).getTag t).nr) = true) := by decide +kernel
theorem witness_SpeculationEnds_3 :
  let s : State := State.reset.setCore 0 { ctx := [(0, { tags := [(1, { st := 2, done := 9 })] })] }
  let i : CoreIx := 0
  let n : CtxIx := 0
  let t : Nat := 1
  let g : Tag := { st := 2, done := 9 }
  ((s.ctx i n).tags.find? (fun t => t.2.st == 2 && t.2.done != 0) = some (t, g)) := by decide +kernel
theorem witness_SpeculationEnds_4 :
  let s : State := State.reset.setCore 0 { ctx := [(0, { tags := [(1, { st := 3 })] })] }
  let i : CoreIx := 0
  let n : CtxIx := 0
  let tag : TagIx := 1
  (((s.core i).getCtx n |>.getTag tag).st = 3) ∧
  ((s.core i).streams.any (fun p => p.2.ctx == n.val && p.2.tag == tag.val) = false) := by decide +kernel
theorem witness_SpeculationEnds_5 :
  let g : Tag := { st := 2, done := 9, sb := 32, nr := 4, tb := 64, written := [32, 33] }
  let s : State := State.reset.setCore 0 { ctx := [(0, { tags := [(1, g)] })] }
  ((s.ctx 0 0).getTag 1 = g) ∧ (g.st = 2) ∧ (g.done ≠ 0) ∧ (g.rename 7 = some 32) := by decide +kernel
theorem witness_FencesMapsAndLeases_1 :
  let s : State := State.reset.setCore 0 { gateAt := some 5 }
  let i : CoreIx := 0
  let t : Nat := 5
  ((s.core i).gateAt = some t) ∧
  ((s.core i).clearsEnd = some 0) ∧
  (((s.toCt (Nat.min (s.edgeOf 0) (t + 100000))).core i).power = .run) := by decide +kernel
theorem witness_FencesMapsAndLeases_2 :
  let s : State := State.reset.setCore 0 { gateAt := some 5, ctx := [(0, { mode := .running })] }
  let i : CoreIx := 0
  let t : Nat := 5
  ((s.core i).gateAt = some t) ∧
  ((s.core i).clearsEnd = none) ∧
  (((s.toCt (t + 100000)).core i).power = .run) := by decide +kernel
theorem witness_FencesMapsAndLeases_3 :
  let s : State := State.reset.setCore 0 { wipeAt := some 5 }
  let i : CoreIx := 0
  let t : Nat := 5
  ((s.core i).wipeAt = some t) := by decide +kernel
theorem witness_FencesMapsAndLeases_4 :
  let s : State := { State.reset with mapPend := [(0, 0x100)] }
  let n : LCoreIx := 0
  let v : W64 := 0x100
  let s0 : State := if s.inClearing then s else s.toCt (s.reg rClrBegin).toNat
  (Tab.find s.mapPend n = some v) ∧
  ((if s.inClearing then s else s.toCt (s.reg rClrBegin).toNat) = s0) ∧
  (s0.inClearing = true) ∧
  (bit v 8 = true) ∧
  (s0.physOf n = 80 * (n.val / 72) + bits v 6 0) := by decide +kernel
theorem witness_FencesMapsAndLeases_5 :
  let s : State := { State.reset.setReg (rMap 0) 0 with mapPend := [(0, 0x3)] }
  let n : LCoreIx := 0
  let v : W64 := 0x3
  let s0 : State := if s.inClearing then s else s.toCt (s.reg rClrBegin).toNat
  (Tab.find s.mapPend n = some v) ∧
  ((if s.inClearing then s else s.toCt (s.reg rClrBegin).toNat) = s0) ∧
  (s0.inClearing = true) ∧
  (bit v 8 = false) ∧
  (s0.inService n = false) := by decide +kernel
theorem witness_FencesMapsAndLeases_6 :
  let s : State := State.reset
  let owner : Nat := 0
  let a : Nat := 1
  let n : Nat := 0
  let v : W64 := BitVec.ofNat 64 (2 ^ 51)
  let k : Nat := 0
  let rep : Bool := true
  let pre : Bool := false
  (bits v 55 51 = a) ∧
  (activity a = some (k, rep, pre)) ∧
  (k = bits v 50 48) ∧
  (leaseGroup k (bits v 47 38) = true) ∧
  ((List.range 64).find? (fun n => leaseState (s.reg (rLease n)) == 0) = some n) ∧
  (s.leasesIn (leaseKey (BitVec.ofNat 64 (owner * 2 ^ 60 + a * 2 ^ 55 + k * 2 ^ 52 + bits v 47 38 * 2 ^ 42))) 1 = []) ∧
  (s.leasesIn (leaseKey (BitVec.ofNat 64 (owner * 2 ^ 60 + a * 2 ^ 55 + k * 2 ^ 52 + bits v 47 38 * 2 ^ 42))) 4 = []) := by decide +kernel
theorem witness_FencesMapsAndLeases_7 :
  let s : State := State.reset
  let origin : W17 := 0
  let step : W64 := 0
  (s.floods.contains (origin.toNat, step.toNat % 8192 * 8 + 6) = false) := by decide +kernel
theorem witness_FencesMapsAndLeases_8 :
  let s : State := { State.reset with floods := [(0, 6)] }
  let origin : W17 := 0
  let step : W64 := 0
  (s.floods.contains (origin.toNat, step.toNat % 8192 * 8 + 6) = true) := by decide +kernel
theorem witness_PowerStates_1 :
  let s : State := State.reset.setCore 0 { phase := .gated }
  let u : State := s.setReg (rPwrCtl 0) (setBits 0 1 0 1 &&& 0xFF78)
  ((1 : Inp).val ≠ 0) ∧ u.napOk 0 = true := by decide +kernel
theorem witness_PowerStates_2 :
  let inp : Inp := 0
  (inp.val = 0) := by decide +kernel
theorem witness_PowerStates_3 :
  let s : State := State.reset.setCore 0 { phase := .gated }
  let u : State := s.setReg (rPwrCtl 0) (setBits 0 1 0 2 &&& 0xFF78)
  ((1 : Inp).val ≠ 0) ∧ u.deepOk 0 = true := by decide +kernel
theorem witness_PowerStates_4 :
  let inp : Inp := 0
  (inp.val = 0) := by decide +kernel
theorem witness_PowerStates_5 :
  let s : State := State.reset
  ((1 : Inp).val ≠ 0) ∧ ((s.setReg (rPwrCtl 0) (setBits 0 1 0 3 &&& 0xFF78)).core 0).fuse ≠ .off := by decide +kernel
theorem witness_PowerStates_6 :
  let inp : Inp := 0
  (inp.val = 0) := by decide +kernel
theorem witness_PowerStates_7 :
  let s : State := State.reset.setCore 0 { power := .napEntry 9 }
  let i : CoreIx := 0
  let t : Nat := 9
  ((s.core i).power = .napEntry t) := by decide +kernel
theorem witness_PowerStates_8 :
  let s : State := State.reset.setCore 0 { power := .deepEntry 9 }
  let i : CoreIx := 0
  let t : Nat := 9
  ((s.core i).power = .deepEntry t) := by decide +kernel
theorem witness_PowerStates_9 :
  let s : State := State.reset.setCore 0 { power := .nap, wakeDue := some (4, 7) }
  let i : CoreIx := 0
  let source : B4 := 4
  let t : Nat := 7
  ((s.core i).power = .nap) ∧
  ((s.core i).wakeDue = some (source.toNat, t)) := by decide +kernel
theorem witness_PowerStates_10 :
  let s : State := State.reset.setCore 0 { power := .deep, wakeDue := some (4, 7) }
  let i : CoreIx := 0
  let source : B4 := 4
  let t : Nat := 7
  ((s.core i).power = .deep) ∧
  ((s.core i).wakeDue = some (source.toNat, t)) := by decide +kernel
theorem witness_PowerStates_11 :
  let s : State := State.reset.setReg (rTimer 0) 900
  let i : CoreIx := 0
  let t : Nat := 900
  let r : List Nat := []
  (s.timers i = t :: r) := by decide +kernel
theorem witness_PowerStates_12 :
  let s : State := State.reset.setCore 0 { power := .waking true 1 4 }
  let i : CoreIx := 0
  let deep : Bool := true
  let step : Nat := 1
  let src : Nat := 4
  ((s.core i).power = .waking deep step src) := by decide +kernel
theorem witness_PowerStates_13 :
  let s : State := State.reset.setCore 0 { power := .waking true 1 4 }
  let i : CoreIx := 0
  let deep : Bool := true
  let step : Nat := 1
  let src : Nat := 4
  ((s.core i).power = .waking deep step src) ∧
  (step ≤ wakeSteps deep) := by decide +kernel
theorem witness_PowerStates_14 :
  let s : State := State.reset.setCore 0 { array := some 9 }
  let i : CoreIx := 0
  let t : Nat := 8
  ((s.core i).array = some (t + 1)) := by decide +kernel
theorem witness_PowerStates_15 :
  let s : State := (State.reset.setReg (rPwrCtl 0) 0xFF78).modCore 0 (fun k => { k with power := .nap })
  (s.hiveOff = false) ∧ (s.wakeOn 0 4 = true) ∧ ((s.core 0).wakeDue = none) ∧ ((s.core 0).power = .nap) := by decide +kernel
theorem witness_PowerStates_16 :
  let s : State := State.reset.setCore 0 { power := .waking false 3 4, ctx := [(0, { mode := .ready 0 })] }
  (s.ct = s.lastEdge) ∧ ([0, 1, 2, 3].any (fun n => match ((s.core 0).getCtx n).mode with | .ready _ => true | _ => false)) = true := by decide +kernel
theorem witness_CapBudgetsAndThrottle_1 :
  let s : State := State.reset.setFlag (rBudget 0) 31
  let die : DieIx := 0
  let t : Nat := s.edgeOf 256
  (s.flag (rBudget die) 31 = true) ∧
  ((let b := s.cyc / 256 + 1; s.edgeOf (256 * (if (s.reg rClrBegin).toNat ≤ s.edgeOf (256 * b) ∨ s.flag rTstat 3 = false then b else (s.cyc + s.edgesTo ((s.reg rClrBegin).toNat - 1) + 256) / 256))) = t) ∧
  (s.inClearingAt t = true) := by decide +kernel
theorem witness_CapBudgetsAndThrottle_2 :
  let s : State := { State.reset with monOver := 11 }
  (11 ≤ s.monOver) ∧
  (s.flag rPwrStatM 0 = false) := by decide +kernel
theorem witness_CapBudgetsAndThrottle_3 :
  let s : State := State.reset.setFlag rPwrStatM 0
  (s.flag rPwrStatM 0 = true) ∧
  (s.throttled = false) := by decide +kernel
theorem witness_CapBudgetsAndThrottle_4 :
  let s : State := { State.reset with throttled := true }
  (s.throttled = true) ∧
  (s.flag rPwrStatM 0 = false) := by decide +kernel
theorem witness_GladesAndOperatingPoint_1 :
  let s : State := { State.reset with glades := [(0, { due := true, lam := 40 })] }
  let glade : GladeIx := 0
  let x : Glade := { due := true, lam := 40 }
  ((Tab.get {} s.glades glade : Glade) = x) := by decide +kernel
theorem witness_GladesAndOperatingPoint_2 :
  let s : State := State.reset.setFlag rOpreq 8
  let t : Nat := 10080
  (s.opTime = some t) ∧
  (s.flag rOpreq 8 = true) ∧
  (s.throttled = false) ∧
  (s.flag rPwrStatM 0 = false) := by decide +kernel
theorem witness_TimeUnit_1 :
  let s : State := State.reset.setReg rTctl 0x100000000
  (s.ppsSource = true) := by decide +kernel
theorem witness_TimeUnit_2 :
  let s : State := State.reset
  (s.ppsSource = false) := by decide +kernel
theorem witness_TimeUnit_3 :
  let s : State := (State.reset).setFld rTstat 2 0 2
  (s.tu.refGood = false) ∧
  ((s.majority && !s.ppsSource) = false) ∧
  (s.timeState = 2) := by decide +kernel
theorem witness_TimeUnit_4 :
  let s : State := (State.reset).setFld rTstat 2 0 3
  (s.tu.refGood = false) ∧
  ((s.majority && !s.ppsSource) = false) ∧
  (s.timeState = 3) := by decide +kernel
theorem witness_TimeUnit_5 :
  let s : State := (State.reset).setFld rTstat 2 0 4
  (s.tu.refGood = false) ∧
  ((s.majority && !s.ppsSource) = false) ∧
  (s.timeState = 4) := by decide +kernel
theorem witness_TimeUnit_6 :
  let s : State := { (State.reset).setFld rTstat 2 0 1 with tu := { offset := some 5000 } }
  let z : Int := 5000
  (s.tu.offset = some z) ∧
  (s.timeState = 1) ∧
  (s.tu.stepped = false) := by decide +kernel
theorem witness_TimeUnit_7 :
  let s : State := { ((State.reset).setFld rTstat 2 0 1).setReg rTctl 0x100000000 with tu := { stepped := true, ppsRun := 3 } }
  (s.timeState = 1) ∧
  (s.tu.stepped = true) ∧
  (s.ppsSource = true) ∧
  (3 ≤ s.tu.ppsRun) := by decide +kernel
theorem witness_TimeUnit_8 :
  let s : State := { ((State.reset).setFld rTstat 2 0 1).setFlag rTstat 4 with tu := { stepped := true, inBand := some 7 } }
  let t : Nat := 7
  (s.timeState = 1) ∧
  (s.tu.stepped = true) ∧
  (s.ppsSource = false) ∧
  (s.tu.inBand = some t) ∧
  (s.majority = true) := by decide +kernel
theorem witness_CanopySlots_1 :
  let s : State := tLink 2
  let link : LinkIx := 0
  (s.linkUp link = true) := by decide +kernel
theorem witness_CanopySlots_2 :
  let s : State := tEntry 2 0
  let k : Nat := 0
  (s.linkState k = 2) := by decide +kernel
theorem witness_CanopySlots_3 :
  let s : State := tEntry 3 8192
  let k : Nat := 0
  let n : Nat := 0
  (s.linkState k = 3) ∧
  (s.entry k n / 8192 = 1) := by decide +kernel
theorem witness_CanopySlots_4 :
  let s : State := tEntry 3 16384
  let k : Nat := 0
  let n : Nat := 0
  (s.linkState k = 3) ∧
  (s.entry k n / 8192 = 2) := by decide +kernel
theorem witness_CanopySlots_5 :
  let s : State := tEntry 3 24576
  let k : Nat := 0
  let n : Nat := 0
  (s.linkState k = 3) ∧
  (s.entry k n / 8192 = 3) := by decide +kernel
theorem witness_CanopySlots_6 :
  let s : State := tEntry 3 0
  let k : Nat := 0
  let n : Nat := 0
  (s.linkState k = 3) ∧
  (s.entry k n / 8192 = 0) := by decide +kernel
theorem witness_CanopySlots_7 :
  let s : State := tLink 2
  let link : LinkIx := 0
  let fec : B4 := 9
  (s.linkUp link = true) ∧
  (2 ≤ fecOf fec.toNat 0 ∨ 2 ≤ fecOf fec.toNat 1) := by decide +kernel
theorem witness_CanopySlots_8 :
  let s : State := tLink 2
  let link : LinkIx := 0
  let n : Nat := 0
  let image : Image := 0
  let fec : B4 := 5
  let oneLane : Bool := false
  let rx : Int := 0
  let f : Flit := ⟨0, 0⟩
  let t : Nat := 112
  (s.linkUp link = true) ∧
  (fecOf fec.toNat 0 < 2) ∧
  (fecOf fec.toNat 1 < 2) ∧
  ((⟨BitVec.ofNat 128 (bits image 127 0), BitVec.ofNat 2048 (bits image 2175 128)⟩ : Flit) = f) ∧
  (((4 * slotCt * (n + if oneLane then 2 else 1) : Nat) + rx : Int).toNat = t) := by decide +kernel
theorem witness_CanopySlots_9 :
  let s : State := State.reset.setLink 0 { asks := [7] }
  let link : LinkIx := 0
  let m : Nat := 7
  let rest : List Nat := []
  ((s.link link).asks = m :: rest) := by decide +kernel
theorem witness_CanopySlots_10 :
  let s : State := State.reset.setLink 0 { unacked := [(1, 7, ⟨false, 0, 0, 0⟩)] }
  let link : LinkIx := 0
  let q : Nat := 1
  let m : Nat := 7
  let f : SideFlit := ⟨false, 0, 0, 0⟩
  let rest : List (Nat × Nat × SideFlit) := []
  ((s.link link).unacked = (q, m, f) :: rest) := by decide +kernel
theorem witness_CanopyChannelsAndLinks_1 :
  let s : State := State.reset.setFlag (rTx 0 0 2) 18
  let edge : EdgeIx := 0
  let ch : ChIx := 0
  (s.flag (rTx edge ch 2) 18 = true) ∧
  ((s.fifo edge ch).length ≤ 62) ∧
  (s.dmaHeld edge ch = false) := by decide +kernel
theorem witness_CanopyChannelsAndLinks_2 :
  let s : State := State.reset.setFlag rBank 1
  let t : Nat := 0
  (s.flag rBank 1 = true) ∧
  (s.clearingMultiple slotCycle = some t) := by decide +kernel
theorem witness_CanopyChannelsAndLinks_3 :
  let s : State := tLink 2
  let link : LinkIx := 0
  (s.linkUp link = true) := by decide +kernel
theorem witness_CanopyChannelsAndLinks_4 :
  let s : State := (tLink 2).setLink 0 { ldegSeen := some 9 }
  let link : LinkIx := 0
  let m : Nat := 9
  ((s.link link).ldegSeen = some m) ∧
  ((s.link link).single = false) ∧
  (s.linkUp link = true) := by decide +kernel
theorem witness_CanopyChannelsAndLinks_5 :
  let s : State := tSched
  let link : LinkIx := 0
  let t : Nat := 0
  (s.linkState link = 2) ∧
  (s.fld (rCanoStat link) 12 9 = 15) ∧
  ((s.link link).calibrated = true) ∧
  (s.admitted link = true) ∧
  (s.flag rTstat 3 = true) ∧
  (s.flag (rCanoStat link) 14 = true) ∧
  (s.clearingMultiple slotCycle = some t) := by decide +kernel
theorem witness_CanopyChannelsAndLinks_6 :
  let s : State := tLink 2
  let link : LinkIx := 0
  let s0 : State := if s.inClearing then s else s.toCt (s.reg rClrBegin).toNat
  (s.linkUp link = true) ∧
  (s.flag (rCanoStat link) 15 = true ∨ (s.link link).calibrated = false) ∧
  ((if s.inClearing then s else s.toCt (s.reg rClrBegin).toNat) = s0) ∧
  (s0.inClearing = true) := by decide +kernel
theorem witness_CanopyChannelsAndLinks_7 :
  let s : State := State.reset
  let link : LinkIx := 0
  (s.flag (rCanoCtl link) 0 = true) ∧
  (s.linkUp link = false) := by decide +kernel
theorem witness_BucketsAndStages_1 :
  let s : State := tBucket
  let i : CoreIx := 0
  let j : JobIx := 0
  (bit (s.reg (rBkt j 0)) 63 = true) ∧
  ((s.bucketCores j).contains i.val = true) ∧
  (s.partSize j ≤ Tab.get 0 (s.core i).wcount j) ∧
  (s.released = true) := by decide +kernel
theorem witness_BucketsAndStages_2 :
  let s : State := tBucket
  let j : JobIx := 0
  (bit (s.reg (rBkt j 0)) 63 = true) ∧
  (2 ≤ s.phase) := by decide +kernel
theorem witness_BucketsAndStages_3 :
  let s : State := tRed
  let link : LinkIx := 0
  let f : Flit := tRedFlit
  let index : Nat := 0
  let kind : Nat := 0
  let e : Nat := 0
  let k : Nat := 0
  let w : W64 := tStage
  (s.redIn.find? (fun p => p.1 == link.val) = some (link.val, f)) ∧
  (2 ≤ s.phase) ∧
  (bits f.hdr 65 32 % 2 ^ 22 = index) ∧
  (bits f.hdr 65 32 / 2 ^ 22 % 4 = kind) ∧
  (kind ≠ 3) ∧
  (s.redStage link (bits f.hdr 77 66) index kind = some (e, k, w)) ∧
  (s.redSeen.contains (4096 * e + k, index) = false) ∧
  (residues kind (redLanes kind f.body.toNat).1 = (redLanes kind f.body.toNat).2) ∧
  ((s.inbuf.filter (fun x => x.cru == e && x.link == link.val)).length < 64) := by decide +kernel
theorem witness_BucketsAndStages_4 :
  let s : State := { tRed with redIn := [(0, ⟨2, 1⟩)] }
  let link : LinkIx := 0
  let f : Flit := ⟨2, 1⟩
  let index : Nat := 0
  let kind : Nat := 0
  let e : Nat := 0
  let k : Nat := 0
  let w : W64 := tStage
  (s.redIn.find? (fun p => p.1 == link.val) = some (link.val, f)) ∧
  (2 ≤ s.phase) ∧
  (bits f.hdr 65 32 % 2 ^ 22 = index) ∧
  (bits f.hdr 65 32 / 2 ^ 22 % 4 = kind) ∧
  (kind ≠ 3) ∧
  (s.redStage link (bits f.hdr 77 66) index kind = some (e, k, w)) ∧
  (s.redSeen.contains (4096 * e + k, index) = false) ∧
  (residues kind (redLanes kind f.body.toNat).1 ≠ (redLanes kind f.body.toNat).2) := by decide +kernel
theorem witness_BucketsAndStages_5 :
  let s : State := tForm
  let cru : EdgeIx := 0
  let k : JobIx := 0
  let due : Nat := 0
  (2 ≤ s.phase) ∧
  (bit (s.reg (rStg cru k 0)) 63 = true) ∧
  (s.progress cru k < Stage.nflits (s.reg (rStg cru k 0))) ∧
  (¬ (Stage.toFifo (s.reg (rStg cru k 0)) ∧ s.stageWaits cru k (s.reg (rStg cru k 0)))) ∧
  (s.stageSlot cru k = some due) ∧
  ((decide (Stage.isrc (s.reg (rStg cru k 0)) < 24) && (s.stageInput cru k).isNone) = false) ∧
  (¬ (Stage.toFifo (s.reg (rStg cru k 0)) ∧ slotCt * due - 112 < s.ct)) := by decide +kernel
theorem witness_BucketsAndStages_6 :
  let s : State := tFill
  let cru : EdgeIx := 0
  let k : JobIx := 0
  let due : Nat := 1
  (2 ≤ s.phase) ∧
  (bit (s.reg (rStg cru k 0)) 63 = true) ∧
  (s.progress cru k < Stage.nflits (s.reg (rStg cru k 0))) ∧
  (¬ (Stage.toFifo (s.reg (rStg cru k 0)) ∧ s.stageWaits cru k (s.reg (rStg cru k 0)))) ∧
  (s.stageSlot cru k = some due) ∧
  (Stage.toFifo (s.reg (rStg cru k 0)) = true) ∧
  (slotCt * due - 112 < s.ct ∨ (decide (Stage.isrc (s.reg (rStg cru k 0)) < 24) && (s.stageInput cru k).isNone) = true) := by decide +kernel
theorem witness_SwarmBarrierAndCommit_1 :
  let s : State := State.reset
  let relno : W32 := 1
  (relno = w32 (s.relno + 1)) ∧
  (s.cmt.release = none) := by decide +kernel
theorem witness_SwarmBarrierAndCommit_2 :
  let s : State := { State.reset with cmt := { release := some 9 } }
  let t : Nat := 9
  (s.cmt.release = some t) := by decide +kernel
theorem witness_SwarmBarrierAndCommit_3 :
  let s : State := { State.reset with cmt := { arrivals := [(0, 0, true, 0)] } }
  let x : Nat := 0
  let y : Nat := 0
  let z : Nat := 0
  let fail : Bool := true
  let rest : List (Nat × Nat × Bool × Nat) := []
  (s.cmt.arrivals = (x, y, fail, z) :: rest) := by decide +kernel
theorem witness_SwarmBarrierAndCommit_4 :
  let s : State := State.reset.setFld rCmtStat 1 0 2
  (2 ≤ s.phase) := by decide +kernel
theorem witness_SwarmBarrierAndCommit_5 :
  let s : State := State.reset.setFld rCmtStat 1 0 3
  (2 ≤ s.phase) := by decide +kernel
theorem witness_SwarmBarrierAndCommit_6 :
  let off : Nat := 0x40028
  (off = 0x40028) := by decide +kernel
theorem witness_SwarmBarrierAndCommit_7 :
  let off : Nat := 0x40030
  (off = 0x40030) := by decide +kernel
theorem witness_SwarmBarrierAndCommit_8 :
  let off : Nat := 0x40038
  (off = 0x40038) := by decide +kernel
theorem witness_SwarmBarrierAndCommit_9 :
  let off : Nat := 0x40040
  (off = 0x40040) := by decide +kernel
theorem witness_CellarErrorsAndRefresh_1 :
  let s : State := State.reset
  let ch : CellChIx := 0
  (s.devHeld (devOf ch) = false) := by decide +kernel
theorem witness_CellarErrorsAndRefresh_2 :
  let s : State := { State.reset with patPend := [(0, (2, 114688))] }
  let dev : DevIx := 0
  let p : Nat := 2
  let due : Nat := 114688
  (s.devHeld dev = false) ∧
  (Tab.find s.patPend dev = some (p, due)) := by decide +kernel
theorem witness_CellarErrorsAndRefresh_3 :
  let s : State := { State.reset with slower := [(0, 1)] }
  let dev : DevIx := 0
  let p : Nat := 1
  let t : Nat := 0
  (s.devHeld dev = false) ∧
  (Tab.find s.patPend dev = none) ∧
  (Tab.find s.slower dev = some p) ∧
  (s.clearingMultiple slotCycle = some t) := by decide +kernel
theorem witness_CellarErrorsAndRefresh_4 :
  let s : State := { State.reset with osc := [(1, 2000)] }
  let ch : CellChIx := 0
  let rank : Bool := true
  let t : Nat := 2000
  (Tab.find s.osc (2 * ch.val + rank.toNat) = some t) := by decide +kernel
theorem witness_CellarSharesRetrainingAndRepair_1 :
  let s : State := State.reset.setFlag rShare 28
  let t : Nat := 0
  (s.flag rShare 28 = true) ∧
  (s.clearingMultiple 300 = some t) := by decide +kernel
theorem witness_CellarSharesRetrainingAndRepair_2 :
  let s : State := { State.reset with retraining := [(0, 5)] }
  let dev : DevIx := 0
  (s.devHeld dev = true) := by decide +kernel
theorem witness_CellarSharesRetrainingAndRepair_3 :
  let v : W64 := 0x8000000000000000
  (bit v 63 = true) := by decide +kernel
theorem witness_CellarSharesRetrainingAndRepair_4 :
  let s : State := { State.reset with pprs := [(0, (1, false, 2, 3))] }
  let p : Nat × Nat × Bool × Nat × Nat := (0, (1, false, 2, 3))
  (s.pprs.find? (fun p => (Tab.find s.pprBusy p.1).isNone && !s.devHeld p.1) = some p) := by decide +kernel
theorem witness_CellarSharesRetrainingAndRepair_5 :
  let s : State := { State.reset with pprs := [(0, (1, false, 2, 3))], pprBusy := [(0, 5)] }
  let p : Nat × Nat × Bool × Nat × Nat := (0, (1, false, 2, 3))
  (s.pprs.find? (fun p => (Tab.find s.pprBusy p.1).isSome) = some p) := by decide +kernel
theorem witness_HostPortRequests_1 :
  let s : State := tUp
  let wr : Bool := false
  let bar : B2 := 0
  let off : Nat := 268431360
  let data : Bytes := []
  let len : Nat := 4096
  let n : Nat := 4096
  (s.hostUp = true) ∧
  (s.port.ideDead.contains 0 = false) ∧
  (bar.toNat ≤ 2) ∧
  ((if wr then data.length else len) = n) ∧
  (n ≠ 0) ∧
  (n ≤ (if wr then 512 else 4096)) ∧
  (off + n ≤ barSize bar.toNat) := by decide +kernel
theorem witness_HostPortRequests_2 :
  let s : State := tUp
  (s.hostUp = true) ∧
  (s.port.ideDead.contains 0 = false) ∧
  (s.portReady = false) := by decide +kernel
theorem witness_HostPortRequests_3 :
  let s : State := { tUp with portReady := true }
  let wr : Bool := true
  (s.hostUp = true) ∧
  (s.port.ideDead.contains 0 = false) ∧
  (s.portReady = true) ∧
  (wr = true) := by decide +kernel
theorem witness_HostPortRequests_4 :
  let s : State := { tUp with portReady := true }
  let wr : Bool := false
  (s.hostUp = true) ∧
  (s.port.ideDead.contains 0 = false) ∧
  (s.portReady = true) ∧
  (wr = false) := by decide +kernel
theorem witness_HostPortRequests_5 :
  let s : State := { State.reset with powered := true }
  (s.powered = true) ∧
  (s.hostUp = false) := by decide +kernel
theorem witness_HostPortRequests_6 :
  let s : State := tUp
  (s.lineUp = true) := by decide +kernel
theorem witness_HostPortRequests_7 :
  let s : State := tUp
  let box : Bool := true
  let index : B8 := 1
  let v : Nat := 0x1E98
  let t : Nat := 2
  (s.hostUp = true) ∧
  ((doeProtocols box)[index.toNat]? = some (v, t)) := by decide +kernel
theorem witness_HostPortRequests_8 :
  let s : State := tUp
  (s.hostUp = true) := by decide +kernel
theorem witness_HostPortRequests_9 :
  let s : State := tUp
  (s.hostUp = true) := by decide +kernel
theorem witness_HostStreamChannels_1 :
  let s : State := { State.reset with hch := [(0, [tHrow []])] }
  let ch : HchIx := 0
  let id : Nat := 9
  let status : B2 := 0
  let h : HRow := tHrow []
  (s.port.ideDead.contains 1 = false) ∧
  ((s.hrows ch).find? (fun h => h.id == id / 8) = some h) ∧
  (h.lines.contains (id % 8) = false) ∧
  (status.toNat = 0) ∧
  (h.lines.length < 7) := by decide +kernel
theorem witness_HostStreamChannels_2 :
  let s : State := { State.reset with hch := [(0, [tHrow [1, 2, 3, 4, 5, 6, 7]])] }
  let ch : HchIx := 0
  let id : Nat := 8
  let status : B2 := 0
  let h : HRow := tHrow [1, 2, 3, 4, 5, 6, 7]
  (s.port.ideDead.contains 1 = false) ∧
  ((s.hrows ch).find? (fun h => h.id == id / 8) = some h) ∧
  (h.lines.contains (id % 8) = false) ∧
  (status.toNat = 0) ∧
  (h.lines.length = 7) := by decide +kernel
theorem witness_HostStreamChannels_3 :
  let s : State := { State.reset with hch := [(0, [tHrow []])] }
  let ch : HchIx := 0
  let id : Nat := 8
  let status : B2 := 2
  let h : HRow := tHrow []
  (s.port.ideDead.contains 1 = false) ∧
  ((s.hrows ch).find? (fun h => h.id == id / 8) = some h) ∧
  (h.lines.contains (id % 8) = false) ∧
  (status.toNat ≠ 0) := by decide +kernel
theorem witness_HostStreamChannels_4 :
  let s : State := { State.reset with hch := [(0, [tHrow []])] }
  let ch : HchIx := 0
  let id : Nat := 8
  let h : HRow := tHrow []
  ((s.hrows ch).find? (fun h => h.id == id / 8) = some h) ∧
  (h.lines.contains (id % 8) = false) := by decide +kernel
theorem witness_EventsAndProcessorControl_1 :
  let s : State := State.reset.setProc 0 { st := 1, errs := [7] }
  let p : ProcIx := 0
  let a : W64 := 7
  let rest : List W64 := []
  ((s.proc p).errs = a :: rest) ∧
  ((s.proc p).st = 1 ∨ (s.proc p).st = 2) ∧
  ((s.proc p).load = none) := by decide +kernel
theorem witness_EventsAndProcessorControl_2 :
  let s : State := tIrq
  let p : ProcIx := 0
  ((s.proc p).st = 1) ∧
  ((s.proc p).load = none) ∧
  (s.interrupts p = true) := by decide +kernel
theorem witness_EventsAndProcessorControl_3 :
  let s : State := tIrq
  let p : CpIx := 0
  let i : Nat := 3
  (∀ q : Nat, q < p.val → s.claimsToo q = false) ∧
  (s.held p = false) ∧
  (s.bestSource p = some i) := by decide +kernel
theorem witness_EventsAndProcessorControl_4 :
  let s : State := State.reset
  let p : CpIx := 0
  (∀ q : Nat, q < p.val → s.claimsToo q = false) ∧
  (s.held p = true ∨ s.bestSource p = none) := by decide +kernel
theorem witness_EventsAndProcessorControl_5 :
  let s : State := { State.reset with evStacks := [(0, [(5, 2)])] }
  let v : W64 := 5
  let p : CpIx := 0
  let l : Nat := 2
  let rest : List (Nat × Nat) := []
  (v.toNat ≠ 1023) ∧
  (s.stack p = (v.toNat, l) :: rest) := by decide +kernel
theorem witness_EventsAndProcessorControl_6 :
  let s : State := State.reset
  let v : W64 := 5
  let p : CpIx := 0
  (v.toNat ≠ 1023) ∧
  ((s.stack p).head?.map (·.1) ≠ some v.toNat) := by decide +kernel
theorem witness_ServiceBus_1 :
  let s : State := tBus
  let q : Nat := 3
  let a : BusAcc := tAccess
  let rest : List BusAcc := []
  (busInputs.reverse.find? (fun q => !(s.feedHost.busQueue q).isEmpty) = some q) ∧
  (s.feedHost.busQueue q = a :: rest) := by decide +kernel
theorem witness_ServiceBus_2 :
  let s : State := tComb (72 * 0x1800000) true
  let inp : Inp := 3
  let f : BusFlight := ⟨0, ⟨true, 72 * 0x1800000, 8, 7, .store 0 0⟩, none⟩
  let i : Nat := 72
  let r : Nat := 0
  let b : Nat := 0
  (s.nextAccess inp Target.isComb = some f) ∧
  (targetOf f.acc.addr = .comb i r b) ∧
  (s.fence i = 1 ∨ s.fence i = 3 ∨ s.bootCause ≠ 0) := by decide +kernel
theorem witness_ServiceBus_3 :
  let s : State := tComb 0 true
  let inp : Inp := 3
  let f : BusFlight := ⟨0, ⟨true, 0, 8, 7, .store 0 0⟩, none⟩
  let i : Nat := 0
  let r : Nat := 0
  let b : Nat := 0
  (s.nextAccess inp Target.isComb = some f) ∧
  (targetOf f.acc.addr = .comb i r b) ∧
  (¬ (s.fence i = 1 ∨ s.fence i = 3 ∨ s.bootCause ≠ 0)) ∧
  (f.acc.write = true) := by decide +kernel
theorem witness_ServiceBus_4 :
  let s : State := tComb 0 false
  let inp : Inp := 3
  let f : BusFlight := ⟨0, ⟨false, 0, 8, 7, .store 0 0⟩, none⟩
  let i : Nat := 0
  let r : Nat := 0
  let b : Nat := 0
  (s.nextAccess inp Target.isComb = some f) ∧
  (targetOf f.acc.addr = .comb i r b) ∧
  (¬ (s.fence i = 1 ∨ s.fence i = 3 ∨ s.bootCause ≠ 0)) ∧
  (f.acc.write = false) := by decide +kernel
theorem witness_ServiceBus_5 :
  let s : State := (tComb 0x100000000000 true).setFld rBoot 3 0 10
  let inp : Inp := 3
  let f : BusFlight := ⟨0, ⟨true, 0x100000000000, 8, 7, .store 0 0⟩, none⟩
  let a : Nat := 0
  (s.nextAccess inp Target.isCellar = some f) ∧
  (targetOf f.acc.addr = .cellar a) ∧
  (s.bootCause = 0) ∧
  (10 ≤ s.stage) ∧
  (s.burstHeld (a / 64) = false) ∧
  (f.acc.write = true) := by decide +kernel
theorem witness_ServiceBus_6 :
  let s : State := (tComb 0x100000000000 false).setFld rBoot 3 0 10
  let inp : Inp := 3
  let f : BusFlight := ⟨0, ⟨false, 0x100000000000, 8, 7, .store 0 0⟩, none⟩
  let a : Nat := 0
  (s.nextAccess inp Target.isCellar = some f) ∧
  (targetOf f.acc.addr = .cellar a) ∧
  (s.bootCause = 0) ∧
  (10 ≤ s.stage) ∧
  (s.burstHeld (a / 64) = false) ∧
  (f.acc.write = false) := by decide +kernel
theorem witness_ServiceBus_7 :
  let s : State := State.reset.setFlight 3 [⟨0, ⟨false, 0, 8, 0, .load 0 0⟩, some (true, 7)⟩]
  let inp : Inp := 3
  let m : Nat := 0
  let v : Nat := 7
  let a : BusAcc := ⟨false, 0, 8, 0, .load 0 0⟩
  let good : Bool := true
  let rest : List BusFlight := []
  let p : Nat := 0
  let e : Nat := 0
  (s.inFlight inp = ⟨m, a, some (good, v)⟩ :: rest) ∧
  (a.who = .load p e) := by decide +kernel
theorem witness_ServiceBus_8 :
  let s : State := State.reset.setFlight 3 [⟨0, ⟨false, 0, 8, 0, .store 0 0⟩, some (true, 7)⟩]
  let inp : Inp := 3
  let m : Nat := 0
  let v : Nat := 7
  let a : BusAcc := ⟨false, 0, 8, 0, .store 0 0⟩
  let good : Bool := true
  let rest : List BusFlight := []
  let p : Nat := 0
  let e : Nat := 0
  (s.inFlight inp = ⟨m, a, some (good, v)⟩ :: rest) ∧
  (a.who = .store p e) := by decide +kernel
theorem witness_ServiceBus_9 :
  let s : State := State.reset.setFlight 3 [⟨0, ⟨false, 0, 8, 0, .host 0 0⟩, some (true, 7)⟩]
  let inp : Inp := 3
  let m : Nat := 0
  let v : Nat := 7
  let a : BusAcc := ⟨false, 0, 8, 0, .host 0 0⟩
  let good : Bool := true
  let rest : List BusFlight := []
  let p : Nat := 0
  let e : Nat := 0
  (s.inFlight inp = ⟨m, a, some (good, v)⟩ :: rest) ∧
  (a.who = .host p e) := by decide +kernel
theorem witness_ServiceBus_10 :
  let s : State := State.reset.setFlight 3 [⟨0, ⟨false, 0, 8, 0, .kstr 0 0⟩, some (true, 7)⟩]
  let inp : Inp := 3
  let m : Nat := 0
  let v : Nat := 7
  let a : BusAcc := ⟨false, 0, 8, 0, .kstr 0 0⟩
  let good : Bool := true
  let rest : List BusFlight := []
  let p : Nat := 0
  let e : Nat := 0
  (s.inFlight inp = ⟨m, a, some (good, v)⟩ :: rest) ∧
  (a.who = .kstr p e) := by decide +kernel
theorem witness_KeeperMembersSensorsAndLog_1 :
  let s : State := State.reset
  let inp : Inp := 17
  (17 ≤ inp.val) ∧
  ((s.member (18 - inp.val)).held = false) ∧
  (s.swapAt = none) ∧
  ((s.member 0).newImage = false) ∧
  ((s.member 1).newImage = false) := by decide +kernel
theorem witness_KeeperMembersSensorsAndLog_2 :
  let s : State := { State.reset with members := [(0, { beatAt := 9 }), (1, { beatAt := 9 })] }
  ((s.toRoot ((s.member s.activeMember).beatAt + ctPerMs)).up s.standbyMember = true) := by decide +kernel
theorem witness_KeeperMembersSensorsAndLog_3 :
  let s : State := { State.reset with members := [(0, { held := true }), (1, { held := true })] }
  ((s.toRoot ((s.member s.activeMember).beatAt + ctPerMs)).up s.standbyMember = false) := by decide +kernel
theorem witness_KeeperMembersSensorsAndLog_4 :
  let s : State := State.reset.setReg (rCmp 0) (BitVec.ofNat 64 (2 ^ 23 + 40))
  let k : CmpIx := 0
  let code : W10 := 41
  (bit (s.reg (rCmp k)) 23 = true) ∧
  (bit (s.reg (rCmp k)) 31 = false) ∧
  ((if bit (s.reg (rCmp k)) 22 then decide (code.toNat < bits (s.reg (rCmp k)) 9 0) else decide (bits (s.reg (rCmp k)) 9 0 < code.toNat)) = true) := by decide +kernel
theorem witness_KeeperMembersSensorsAndLog_5 :
  let s : State := State.reset
  ((s.member s.activeMember).staged.length < 4096) := by decide +kernel
theorem witness_KeeperMembersSensorsAndLog_6 :
  let s : State := { State.reset with members := [(0, { staged := List.replicate 4096 ⟨2, 0⟩ }), (1, { staged := List.replicate 4096 ⟨2, 0⟩ })] }
  let severity : B4 := 0
  (4096 ≤ (s.member s.activeMember).staged.length) ∧
  (severity.toNat ≤ 1) := by decide +kernel
theorem witness_KeeperMembersSensorsAndLog_7 :
  let s : State := { State.reset with members := [(0, { kstr := [(0, { st := 1 })] })] }
  let member : EdgeIx := 0
  let m : EdgeIx := 0
  ((s.member member).held = false) ∧
  ((s.kstr member m).flying = false) ∧
  ((s.kstr member m).st = 1) := by decide +kernel
theorem witness_KeeperMembersSensorsAndLog_8 :
  let s : State := State.reset
  let member : EdgeIx := 0
  let m : EdgeIx := 0
  let len : W17 := 65536
  ((s.member member).held = false) ∧
  ((s.kstr member m).flying = false) ∧
  ((s.kstr member m).st = 0) ∧
  (1 ≤ len.toNat) ∧
  (len.toNat ≤ 65536) := by decide +kernel
theorem witness_KeeperMembersSensorsAndLog_9 :
  let s : State := { State.reset with members := [(1, { kstr := [(0, { st := 2 })] })] }
  let inp : Inp := 17
  let m : EdgeIx := 0
  (17 ≤ inp.val) ∧
  ((s.kstr (18 - inp.val) m).st = 2) := by decide +kernel
theorem witness_KeeperMembersSensorsAndLog_10 :
  let s : State := { State.reset with members := [(1, { kstr := [(0, { st := 2 })] })] }
  let inp : Inp := 17
  let m : EdgeIx := 0
  (17 ≤ inp.val) ∧
  ((s.kstr (18 - inp.val) m).st = 2) := by decide +kernel
theorem witness_ManagementSessions_1 :
  let s : State := tUp
  (s.answers = true ∨ (s.roleState ≠ 2 ∧ s.recovering = true)) ∧
  (s.hostUp = true) := by decide +kernel
theorem witness_ManagementSessions_2 :
  let s : State := State.reset
  (s.answers = true) := by decide +kernel
theorem witness_ManagementSessions_3 :
  let s : State := State.reset
  (s.answers = true ∨ (s.roleState ≠ 2 ∧ s.recovering = true)) := by decide +kernel
theorem witness_ManagementSessions_4 :
  let s : State := State.reset
  (s.answers = true) := by decide +kernel
theorem witness_ManagementSessions_5 :
  let s : State := State.reset
  (s.answers = true) := by decide +kernel
theorem witness_ManagementSessions_6 :
  let s : State := State.reset
  (s.answers = true) := by decide +kernel
theorem witness_ManagementSessions_7 :
  let s : State := State.reset
  (s.answers = true) := by decide +kernel
theorem witness_ManagementSessions_8 :
  let s : State := State.reset
  (s.answers = true) := by decide +kernel
theorem witness_ManagementSessions_9 :
  let s : State := State.reset
  (s.answers = true) := by decide +kernel
theorem witness_ManagementSessions_10 :
  let s : State := State.reset
  (s.answers = true) := by decide +kernel
theorem witness_ManagementSessions_11 :
  let s : State := State.reset
  (s.answers = true) := by decide +kernel
theorem witness_ManagementSessions_12 :
  let s : State := State.reset
  (s.answers = true) := by decide +kernel
theorem witness_ManagementSessions_13 :
  let s : State := State.reset
  (s.answers = true) := by decide +kernel
theorem witness_ManagementSessions_14 :
  let s : State := State.reset
  (s.answers = true) := by decide +kernel
theorem witness_ManagementSessions_15 :
  let s : State := State.reset
  (s.answers = true) := by decide +kernel
theorem witness_ManagementSessions_16 :
  let s : State := { State.reset with members := [(0, { spdm := { session := 2 } }), (1, { spdm := { session := 2 } })] }
  let op : B2 := 0
  (s.answers = true) ∧
  (s.heard.spdm.session = 2) ∧
  (op.toNat = 0) := by decide +kernel
theorem witness_ManagementSessions_17 :
  let s : State := { State.reset with members := [(0, { spdm := { session := 2 } }), (1, { spdm := { session := 2 } })], port := { ideKeys := [(0, 7)] } }
  let io : Bool := true
  let op : B2 := 1
  let keyset : Bool := false
  (s.answers = true) ∧
  (s.heard.spdm.session = 2) ∧
  (op.toNat = 1) ∧
  ((Tab.find s.heard.port.ideKeys (2 * (if io then 0 else 1) + keyset.toNat)).isSome = true) := by decide +kernel
theorem witness_ManagementSessions_18 :
  let s : State := { State.reset with members := [(0, { spdm := { session := 2 } }), (1, { spdm := { session := 2 } })] }
  let op : B2 := 2
  (s.answers = true) ∧
  (s.heard.spdm.session = 2) ∧
  (op.toNat = 2) := by decide +kernel
theorem witness_ManagementSessions_19 :
  let s : State := { State.reset with members := [(0, { spdm := { session := 2 } }), (1, { spdm := { session := 2 } })] }
  let op : B2 := 3
  (s.answers = true) ∧
  (s.heard.spdm.session = 2) ∧
  (op.toNat = 3) := by decide +kernel
theorem witness_ManagementSessions_20 :
  let s : State := State.reset
  (s.answers = true) ∧
  (s.heard.spdm.session ≠ 2) := by decide +kernel
theorem witness_FirmwareUpdatesAndLifeCycle_1 :
  let s : State := State.reset
  (s.answers = true ∨ (s.roleState ≠ 2 ∧ s.recovering = true)) := by decide +kernel
theorem witness_FirmwareUpdatesAndLifeCycle_2 :
  let s : State := { State.reset with members := [(0, { update := some { comps := [1] } }), (1, { update := some { comps := [1] } })] }
  let comp : B2 := 0
  let off : Nat := 16777215
  let data : Bytes := [7]
  let u : Update := { comps := [1] }
  (s.answers = true ∨ (s.roleState ≠ 2 ∧ s.recovering = true)) ∧
  (s.heard.update = some u) ∧
  (u.comps.contains (comp.toNat + 1) = true) ∧
  (data.length ≤ 1024) ∧
  (off + data.length ≤ 0x1000000) := by decide +kernel
theorem witness_FirmwareUpdatesAndLifeCycle_3 :
  let s : State := { State.reset with members := [(0, { update := some { comps := [1] } }), (1, { update := some { comps := [1] } })] }
  let u : Update := { comps := [1] }
  (s.answers = true ∨ (s.roleState ≠ 2 ∧ s.recovering = true)) ∧
  (s.heard.update = some u) := by decide +kernel
theorem witness_FirmwareUpdatesAndLifeCycle_4 :
  let s : State := { State.reset with members := [(0, { update := some { comps := [1] } }), (1, { update := some { comps := [1] } })] }
  let u : Update := { comps := [1] }
  (s.answers = true ∨ (s.roleState ≠ 2 ∧ s.recovering = true)) ∧
  (s.heard.update = some u) := by decide +kernel
theorem witness_FirmwareUpdatesAndLifeCycle_5 :
  let s : State := { State.reset with cpPend := true }
  let s1 : State := if s.inClearing then s else s.toCt (s.reg rClrBegin).toNat
  (s.cpPend = true) ∧
  ((if s.inClearing then s else s.toCt (s.reg rClrBegin).toNat) = s1) ∧
  (ctPerMs ≤ s1.clearingLeft) ∧
  (s1.hiveOff = false) := by decide +kernel
theorem witness_FirmwareUpdatesAndLifeCycle_6 :
  let s : State := State.reset.setLink 0 { codeNew := true }
  let link : LinkIx := 0
  ((s.link link).codeNew = true) ∧
  ((List.range link).any (fun j => (s.link j).codeNew) = false) := by decide +kernel
theorem witness_FirmwareUpdatesAndLifeCycle_7 :
  let s : State := State.reset
  (s.answers = true) := by decide +kernel
theorem witness_FirmwareUpdatesAndLifeCycle_8 :
  let s : State := State.reset
  (s.answers = true) := by decide +kernel
theorem witness_FirmwareUpdatesAndLifeCycle_9 :
  let s : State := State.reset
  (s.answers = true) := by decide +kernel
theorem witness_BringUpAndResets_1 :
  let s : State := { State.reset.setFld rBoot 3 0 3 with powered := true }
  (s.powered = true) ∧
  (s.bootCause = 0) ∧
  (s.stage = 3) := by decide +kernel
theorem witness_BringUpAndResets_2 :
  let s : State := { State.reset.setFld rBoot 3 0 11 with powered := true }
  (s.powered = true) ∧
  (s.bootCause = 0) ∧
  (s.stage = 11) := by decide +kernel
theorem witness_BringUpAndResets_3 :
  let s : State := { State.reset.setFld rBoot 3 0 7 with powered := true }
  (s.powered = true) ∧
  (s.bootCause = 0) ∧
  (s.stage = 7) := by decide +kernel
theorem witness_BringUpAndResets_4 :
  let s : State := { State.reset.setFld rBoot 3 0 8 with powered := true }
  (s.powered = true) ∧
  (s.bootCause = 0) ∧
  (s.stage = 8) := by decide +kernel
theorem witness_BringUpAndResets_5 :
  let s : State := { State.reset.setFld rBoot 3 0 9 with powered := true }
  (s.powered = true) ∧
  (s.bootCause = 0) ∧
  (s.stage = 9) := by decide +kernel
theorem witness_BringUpAndResets_6 :
  let s : State := { State.reset.setFld rBoot 3 0 10 with powered := true }
  (s.powered = true) ∧
  (s.bootCause = 0) ∧
  (s.stage = 10) := by decide +kernel
theorem witness_BringUpAndResets_7 :
  let s : State := { (State.reset.setFld rBoot 3 0 12).setFlag rTstat 3 with powered := true }
  (s.powered = true) ∧
  (s.bootCause = 0) ∧
  (s.stage = 12) ∧
  (s.flag rTstat 3 = true) := by decide +kernel
theorem witness_BringUpAndResets_8 :
  let s : State := { State.reset.setFld rBoot 3 0 13 with powered := true }
  (s.powered = true) ∧
  (s.bootCause = 0) ∧
  (s.stage = 13) := by decide +kernel
theorem witness_BringUpAndResets_9 :
  let s : State := { State.reset with powered := true }
  let k : Nat := 1
  (s.powered = true) ∧
  (s.bootCause = 0) ∧
  (s.stage = k) ∧
  (k ≤ 6 ∧ k ≠ 3) := by decide +kernel
theorem witness_BringUpAndResets_10 :
  let s : State := { State.reset with powered := true }
  let cause : B8 := 8
  (s.powered = true) ∧
  (s.bootCause = 0) ∧
  (s.stage < 14) ∧
  (1 ≤ cause.toNat) ∧
  (cause.toNat ≤ 8) := by decide +kernel
theorem witness_BringUpAndResets_11 :
  let s : State := State.reset
  let inp : Inp := 18
  let i : CoreIx := 0
  (inp.val = s.activeKeeper) ∧
  (s.fence i ≤ 1) ∧
  (s.copying i = false) := by decide +kernel
theorem witness_BringUpAndResets_12 :
  let ins : TestIns := .idcode
  (ins = .idcode) := by decide +kernel
theorem witness_BringUpAndResets_13 :
  let ins : TestIns := .bypass
  (ins = .bypass) := by decide +kernel
theorem witness_BringUpAndResets_14 :
  let ins : TestIns := .boundary
  (ins = .boundary) := by decide +kernel
theorem witness_BringUpAndResets_15 :
  let s : State := { (State.reset.setFld rBoot 3 0 3).setFld rBoot 23 16 2 with powered := true }
  (s.powered = true) ∧
  (s.bootCause ≠ 0) ∧
  (3 ≤ s.stage) ∧ (s.stage ≤ 9) := by decide +kernel
theorem witness_ScalarRegisterForms_1 :
  let op : W32 := BitVec.ofNat 32 (31 * 2 ^ 27 + 511 * 2 ^ 18 + 39 * 2 ^ 9)
  (tRun.readyFor 0 0 0 = true) ∧
  (Slot.s1 = .s0 ∨ Slot.s1 = .s1) ∧
  ((srcOk (fSrc1 op) && srcOk (fSrc2 op) && fSrc3 op == 0) = true) := by decide +kernel
theorem witness_ScalarRegisterForms_2 :
  let op : W32 := BitVec.ofNat 32 (31 * 2 ^ 27 + 39 * 2 ^ 18 + 48 * 2 ^ 9)
  ((tProc.proc 0).st = 1) ∧
  ((tProc.proc 0).load = none) ∧
  ((tProc.procIssue 0 []).interrupts 0 = false) ∧
  ((srcOkP (fSrc1 op) && srcOkP (fSrc2 op) && fSrc3 op == 0) = true) := by decide +kernel
theorem witness_ScalarImmediateForms_1 :
  let op : W32 := BitVec.ofNat 32 (31 * 2 ^ 27 + 511 * 2 ^ 18 + 262143)
  (tRun.readyFor 0 0 0 = true) ∧
  (Slot.s1 = .s0 ∨ Slot.s1 = .s1) ∧
  (srcOk (fSrc1 op) = true) := by decide +kernel
theorem witness_ScalarImmediateForms_2 :
  let op : W32 := BitVec.ofNat 32 (31 * 2 ^ 27 + 48 * 2 ^ 18 + 262143)
  ((tProc.proc 0).st = 1) ∧
  ((tProc.proc 0).load = none) ∧
  ((tProc.procIssue 0 []).interrupts 0 = false) ∧
  (srcOkP (fSrc1 op) = true) := by decide +kernel
theorem witness_ScalarStateReads_1 :
  let op : W32 := BitVec.ofNat 32 (31 * 2 ^ 27)
  (tRun.readyFor 0 0 0 = true) ∧
  (Slot.s1 = .s0 ∨ Slot.s1 = .s1) ∧
  ((bits op 26 0 == 0) = true) := by decide +kernel
theorem witness_ScalarStateReads_2 :
  let op : W32 := BitVec.ofNat 32 (31)
  (tRun.readyFor 0 0 0 = true) ∧
  (Slot.s1 = .s0 ∨ Slot.s1 = .s1) ∧
  ((fRd op == 0 && bits op 26 5 == 0) = true) := by decide +kernel
theorem witness_ScalarStateReads_3 :
  let op : W32 := BitVec.ofNat 32 (31 * 2 ^ 27)
  ((tProc.proc 0).st = 1) ∧
  ((tProc.proc 0).load = none) ∧
  ((tProc.procIssue 0 []).interrupts 0 = false) ∧
  ((bits op 26 0 == 0) = true) := by decide +kernel
theorem witness_ComparatorInstructions_1 :
  let op : W32 := BitVec.ofNat 32 (3 * 2 ^ 27 + 511 * 2 ^ 18 + 48 * 2 ^ 9 + 7)
  (tRun.readyFor 0 0 0 = true) ∧
  (Slot.s1 = .s0 ∨ Slot.s1 = .s1) ∧
  ((bits op 31 29 == 0 && srcOk (fSrc1 op) && srcOk (fSrc2 op) && bits op 8 3 == 0) = true) := by decide +kernel
theorem witness_ComparatorInstructions_2 :
  let op : W32 := BitVec.ofNat 32 (7 * 2 ^ 29 + 511 * 2 ^ 18)
  (tRun.readyFor 0 0 0 = true) ∧
  (Slot.s1 = .s0 ∨ Slot.s1 = .s1) ∧
  (srcOk (fSrc1 op) = true) := by decide +kernel
theorem witness_ComparatorInstructions_3 :
  let op : W32 := BitVec.ofNat 32 (3 * 2 ^ 27 + 48 * 2 ^ 18 + 262143)
  (tRun.readyFor 0 0 0 = true) ∧
  (Slot.s1 = .s0 ∨ Slot.s1 = .s1) ∧
  ((bits op 31 29 == 0 && fSrc1 op == 48) = true) := by decide +kernel
theorem witness_ComparatorInstructions_4 :
  let op : W32 := BitVec.ofNat 32 (31 * 2 ^ 27 + 3 * 2 ^ 18 + 48 * 2 ^ 9)
  (tRun.readyFor 0 0 0 = true) ∧
  (Slot.s1 = .s0 ∨ Slot.s1 = .s1) ∧
  ((bits op 26 20 == 0 && fSrc2 op == 48 && fSrc3 op == 0) = true) := by decide +kernel
theorem witness_ComparatorInstructions_5 :
  let op : W32 := BitVec.ofNat 32 (3 * 2 ^ 27 + 39 * 2 ^ 18 + 48 * 2 ^ 9 + 7)
  ((tProc.proc 0).st = 1) ∧
  ((tProc.proc 0).load = none) ∧
  ((tProc.procIssue 0 []).interrupts 0 = false) ∧
  ((bits op 31 29 == 0 && srcOkP (fSrc1 op) && srcOkP (fSrc2 op) && bits op 8 3 == 0) = true) := by decide +kernel
theorem witness_Branches_1 :
  let op : W32 := BitVec.ofNat 32 (262143)
  (tRun.readyFor 0 0 0 = true) ∧
  ((fRd op == 0 && fSrc1 op == 0) = true) := by decide +kernel
theorem witness_Branches_2 :
  let op : W32 := BitVec.ofNat 32 (3 * 2 ^ 27 + 131072)
  (tRun.readyFor 0 0 0 = true) ∧
  ((bits op 31 29 == 0 && fSrc1 op == 0) = true) := by decide +kernel
theorem witness_Branches_3 :
  let op : W32 := BitVec.ofNat 32 (511 * 2 ^ 18 + 48 * 2 ^ 9)
  (tRun.readyFor 0 0 0 = true) ∧
  ((fRd op == 0 && srcOk (fSrc1 op) && fSrc2 op == 48 && fSrc3 op == 0) = true) := by decide +kernel
theorem witness_HardwareLoop_1 :
  let op : W32 := BitVec.ofNat 32 (7 * 2 ^ 27 + 48 * 2 ^ 18 + 131071)
  (tRun.readyFor 0 0 0 = true) ∧
  ((bits op 31 30 == 0 && srcOk (fSrc1 op) && bits op 17 0 != 0 && decide (bits op 17 0 ≤ 131071) && !(loopNest (tRun.ctx 0 0) (bits op 29 27) ((tRun.ctx 0 0).pc + BitVec.ofNat 32 (bits op 17 0)))) = true) := by decide +kernel
theorem witness_HardwareLoop_2 :
  let x : Ctx := { c := [(7, 1)], loops := [(7, ⟨0, 0⟩)] }
  (x.loopAt x.pc = some 7) := by decide +kernel
theorem witness_WaitInstructions_1 :
  let s : State := tRun.setFlag rTstat 3
  let op : W32 := BitVec.ofNat 32 (2 ^ 31 + 48 * 2 ^ 18 + 1000)
  (s.readyFor 0 0 0 = true) ∧
  (untagged 0 = true) ∧
  ((bits op 30 27 == 0 && srcOk (fSrc1 op) && s.qualSeen 0 (s.edgeCt 0)) = true) ∧
  ((bit op 31 && decide (signed 40 (wrap 40 (((srcVal (s.core 0) 0 (fSrc1 op)).toNat % 2 ^ 40 : Nat) + (imm18 op).toInt - ((s.edgeCt 0 : Int) - (s.reg 0x200028).toNat))) ≤ 0)) = false) := by decide +kernel
theorem witness_WaitInstructions_2 :
  let op : W32 := BitVec.ofNat 32 (13 * 2 ^ 27 + 16 * 2 ^ 22)
  (tRun.readyFor 0 0 0 = true) ∧
  ((untagged 0 && decide (bits op 31 27 ≤ 13) && decide (1 ≤ bits op 26 22) && decide (bits op 26 22 ≤ 16) && bits op 21 0 == 0) = true) := by decide +kernel
theorem witness_WaitInstructions_3 :
  let s : State := tRunK (fun k => k.setReg (offFlagown 0) (BitVec.ofNat 64 (2 ^ 63)))
  let op : W32 := BitVec.ofNat 32 (2 ^ 31 + 63)
  (s.readyFor 0 0 0 = true) ∧
  ((untagged 0 && bits op 30 6 == 0 && bit ((s.core 0).reg (offFlagown 0)) (bits op 5 0)) = true) := by decide +kernel
theorem witness_WaitInstructions_4 :
  let op : W32 := BitVec.ofNat 32 (2 ^ 31 + 48 * 2 ^ 18 + 65535)
  (tRun.readyFor 0 0 0 = true) ∧
  ((untagged 0 && bits op 30 27 == 0 && srcOk (fSrc1 op) && bits op 17 16 == 0) = true) := by decide +kernel
theorem witness_WaitInstructions_5 :
  ((tRun.ctx 0 0).mode = .running) ∧
  ((tRun.core 0).phase = .running 0) := by decide +kernel
theorem witness_TaskInstructions_1 :
  let op : W32 := BitVec.ofNat 32 (3 * 2 ^ 27 + 48 * 2 ^ 18)
  (tRun.readyFor 0 0 0 = true) ∧
  ((untagged 0 && bits op 31 29 == 0 && srcOk (fSrc1 op) && bits op 17 0 == 0 && !((tRun.core 0).holdsTask (bits op 28 27)) && bits op 28 27 != 0) = true) := by decide +kernel
theorem witness_TaskInstructions_2 :
  (tRun.readyFor 0 0 0 = true) ∧
  ((untagged 0 && (0 : W32) == 0) = true) := by decide +kernel
theorem witness_TaskInstructions_3 :
  let op : W32 := BitVec.ofNat 32 (1)
  (tRun.readyFor 0 0 0 = true) ∧
  ((untagged 0 && bits op 31 1 == 0 && !((tRun.ctx 0 0).arrived) && !((tRun.core 0).sb.any (fun e => e.ctx == 0)) && !((tRun.core 0).streams.any (fun p => p.2.ctx == 0)) && (tRun.core 0).outstanding 0 == 0) = true) := by decide +kernel
theorem witness_CacheInstructions_1 :
  let op : W32 := BitVec.ofNat 32 (48 * 2 ^ 18 + 1024)
  (tRun.readyFor 0 0 0 = true) ∧
  ((untagged 0 && fRd op == 0 && srcOk (fSrc1 op) && bits op 17 0 != 0 && decide (bits op 17 0 ≤ 1024) && decide ((tRun.core 0).lineRow ((srcVal (tRun.core 0) 0 (fSrc1 op)).toNat % 2 ^ 32 / 8 + bits op 17 0 - 1) ≤ lastCellarRow)) = true) := by decide +kernel
theorem witness_MatrixInstructions_1 :
  let s : State := tRun
  let op : W32 := BitVec.ofNat 32 (7 * 2 ^ 29 + 5 * 2 ^ 21 + 5 * 2 ^ 17 + 2 ^ 16)
  (s.readyFor 0 0 0 = true) ∧
  (clears semMGang ⟨s, 0, 0, .m, 0, op⟩ = true) := by decide +kernel
theorem witness_MatrixInstructions_2 :
  let s : State := tGangs tGang
  let op : W32 := BitVec.ofNat 32 (7 * 2 ^ 29 + 31 * 2 ^ 21 + 31 * 2 ^ 13)
  (s.readyFor 0 0 0 = true) ∧
  (clears semMMask ⟨s, 0, 0, .m, 0, op⟩ = true) := by decide +kernel
theorem witness_MatrixInstructions_3 :
  let s : State := tGangs tGang
  let op : W32 := BitVec.ofNat 32 (7 * 2 ^ 29 + 2047 * 2 ^ 18 + 510 * 2 ^ 9 + 8)
  (s.readyFor 0 0 128 = true) ∧
  (clears semMPass ⟨s, 0, 0, .m, 128, op⟩ = true) := by decide +kernel
theorem witness_MatrixInstructions_4 :
  let s : State := (tGangs tGang).modCtx 0 0 (fun x => x.setSreg 0 8)
  let op : W32 := BitVec.ofNat 32 (7 * 2 ^ 29 + 0 * 2 ^ 20)
  (s.readyFor 0 0 128 = true) ∧
  (clears semMPassr ⟨s, 0, 0, .m, 128, op⟩ = true) := by decide +kernel
theorem witness_MatrixInstructions_5 :
  let s : State := tGangs tGang
  let op : W32 := BitVec.ofNat 32 (7 * 2 ^ 29)
  (s.readyFor 0 0 0 = true) ∧
  (clears semMFree ⟨s, 0, 0, .m, 0, op⟩ = true) := by decide +kernel
theorem witness_TileMoveAndMatVecInstructions_1 :
  let s : State := tRunK tOwns
  let op : W32 := BitVec.ofNat 32 (48 * 2 ^ 18 + 510 * 2 ^ 9)
  (s.readyFor 0 0 0 = true) ∧
  (clears semTmLd ⟨s, 0, 0, .m, 0, op⟩ = true) := by decide +kernel
theorem witness_TileMoveAndMatVecInstructions_2 :
  let s : State := tRunK tOwns
  let op : W32 := BitVec.ofNat 32 (48 * 2 ^ 18 + 510 * 2 ^ 9)
  (s.readyFor 0 0 0 = true) ∧
  (clears semTmSt ⟨s, 0, 0, .m, 0, op⟩ = true) := by decide +kernel
theorem witness_TileMoveAndMatVecInstructions_3 :
  let s : State := tRun
  let op : W32 := BitVec.ofNat 32 (14 * 2 ^ 28 + 14 * 2 ^ 24 + 7 * 2 ^ 21 + 1 * 2 ^ 16 + 2 ^ 6)
  (s.readyFor 0 0 0 = true) ∧
  (clears semMvCfg ⟨s, 0, 0, .m, 0, op⟩ = true) := by decide +kernel
theorem witness_TileMoveAndMatVecInstructions_4 :
  let s : State := tRunK (fun k => { k with mvp := tMvp })
  let op : W32 := BitVec.ofNat 32 (7 * 2 ^ 29 + 7 * 2 ^ 26)
  (s.readyFor 0 0 0 = true) ∧
  (clears semMvLdv ⟨s, 0, 0, .m, 0, op⟩ = true) := by decide +kernel
theorem witness_TileMoveAndMatVecInstructions_5 :
  let s : State := tRunK (fun k => { tOwns k with mvp := tMvp })
  let op : W32 := BitVec.ofNat 32 (48 * 2 ^ 18 + 1 * 2 ^ 9 + 2)
  (s.readyFor 0 0 256 = true) ∧
  (clears semMvPass ⟨s, 0, 0, .m, 256, op⟩ = true) := by decide +kernel
theorem witness_TileMoveAndMatVecInstructions_6 :
  let s : State := tRunK (fun k => { k with mvp := tMvp })
  let op : W32 := BitVec.ofNat 32 (0)
  (s.readyFor 0 0 0 = true) ∧
  (clears semMvFree ⟨s, 0, 0, .m, 0, op⟩ = true) := by decide +kernel
theorem witness_VectorInstructions_1 :
  let s : State := (tRun.modCtx 0 0 (fun x => (x.setSreg 0 (BitVec.ofNat 64 (1 * 2 ^ 22 + 16 * 2 ^ 35 + 16 * 2 ^ 40 + 16 * 2 ^ 45))).setSreg 1 32))
  let op : W32 := BitVec.ofNat 32 (48 * 2 ^ 9 + 1)
  (s.readyFor 0 0 512 = true) ∧
  (clears semVOp ⟨s, 0, 0, .v, 512, op⟩ = true) := by decide +kernel
theorem witness_VectorInstructions_2 :
  let s : State := tRun
  let op : W32 := BitVec.ofNat 32 (3 * 2 ^ 30 + 7 * 2 ^ 26)
  (s.readyFor 0 0 0 = true) ∧
  (clears semVBld ⟨s, 0, 0, .v, 0, op⟩ = true) := by decide +kernel
theorem witness_VectorInstructions_3 :
  let op : W32 := BitVec.ofNat 32 (31 * 2 ^ 27 + 3 * 2 ^ 25 + 1023 * 2 ^ 12 + 16 * 2 ^ 7)
  (tRun.readyFor 0 0 0 = true) ∧
  (clears semVExt ⟨tRun, 0, 0, .v, 0, op⟩ = true) ∧
  ((fmtOf (bits op 11 7)).isSome = true) := by decide +kernel
theorem witness_VectorInstructions_4 :
  let s : State := tRun
  let op : W32 := BitVec.ofNat 32 (48 * 2 ^ 18)
  (s.readyFor 0 0 0 = true) ∧
  (clears semVSeed ⟨s, 0, 0, .v, 0, op⟩ = true) := by decide +kernel
theorem witness_VectorInstructions_5 :
  let s : State := (tRunK tOwns).modCtx 0 0 (fun x => (x.setSreg 0 0x70).setSreg 1 (BitVec.ofNat 64 (16 * 2 ^ 40 + 16 * 2 ^ 35)))
  let op : W32 := BitVec.ofNat 32 (1 * 2 ^ 9 + 48)
  (s.readyFor 0 0 0 = true) ∧
  (clears semEpRun ⟨s, 0, 0, .v, 0, op⟩ = true) := by decide +kernel
theorem witness_ForagerInstructions_1 :
  let s : State := tRun.modCtx 0 0 (fun x => x.setSreg 0 (BitVec.ofNat 64 (2 ^ 51 + 49151)))
  let op : W32 := BitVec.ofNat 32 (63)
  (s.readyFor 0 0 0 = true) ∧
  (untagged 0 = true) ∧
  (clears semWOpen ⟨s, 0, 0, .x, 0, op⟩ = true) := by decide +kernel
theorem witness_ForagerInstructions_2 :
  let s : State := tRun
  let op : W32 := BitVec.ofNat 32 (63)
  (s.readyFor 0 0 0 = true) ∧
  (untagged 0 = true) ∧
  (clears semWClose ⟨s, 0, 0, .x, 0, op⟩ = true) := by decide +kernel
theorem witness_ForagerInstructions_3 :
  let s : State := tRun
  let op : W32 := BitVec.ofNat 32 (15 * 2 ^ 28 + 48 * 2 ^ 18 + 48 * 2 ^ 9 + 48)
  (s.readyFor 0 0 0 = true) ∧
  (clears semFStart ⟨s, 0, 0, .f, 0, op⟩ = true) := by decide +kernel
theorem witness_ForagerInstructions_4 :
  let s : State := tRun
  let op : W32 := BitVec.ofNat 32 (15 * 2 ^ 28)
  (s.readyFor 0 0 0 = true) ∧
  (clears semFStop ⟨s, 0, 0, .f, 0, op⟩ = true) := by decide +kernel
theorem witness_ForagerInstructions_5 :
  let s : State := tRunK (fun k => { k with rq := [(3, { tokens := 1 })] })
  let op : W32 := BitVec.ofNat 32 (11 * 2 ^ 27 + 2 ^ 22)
  (s.readyFor 0 0 0 = true) ∧
  (clears semFTake ⟨s, 0, 0, .f, 0, op⟩ = true) := by decide +kernel
theorem witness_SpeculationInstructions_1 :
  let s : State := (tRunK (fun k => k.setReg 0x8068 (BitVec.ofNat 64 (1024 * 2 ^ 16)))).modCtx 0 0 (fun x => x.setSreg 0 (BitVec.ofNat 64 (16 * 2 ^ 32 + 4096 * 2 ^ 16)))
  let op : W32 := BitVec.ofNat 32 (31 * 2 ^ 27 + 48 * 2 ^ 18 + 0 * 2 ^ 9 + 7)
  (s.readyFor 0 0 0 = true) ∧
  (untagged 0 = true) ∧
  (clears semSpOpen ⟨s, 0, 0, .s0, 0, op⟩ = true) := by decide +kernel
theorem witness_SpeculationInstructions_2 :
  let s : State := tRun
  let op : W32 := BitVec.ofNat 32 (48 * 2 ^ 18 + 48 * 2 ^ 9)
  (s.readyFor 0 0 0 = true) ∧
  (untagged 0 = true) ∧
  (clears semSpTrain ⟨s, 0, 0, .s0, 0, op⟩ = true) := by decide +kernel
theorem witness_SpeculationInstructions_3 :
  let s : State := tRun.modCtx 0 0 (fun x => x.setTag 7 { st := 1 })
  let op : W32 := BitVec.ofNat 32 (31 * 2 ^ 27 + 48 * 2 ^ 18 + 48 * 2 ^ 9 + 7)
  (s.readyFor 0 0 0 = true) ∧
  (untagged 0 = true) ∧
  (clears semConfirm ⟨s, 0, 0, .s0, 0, op⟩ = true) := by decide +kernel
theorem witness_SpeculationInstructions_4 :
  let s : State := tRun
  let op : W32 := BitVec.ofNat 32 (48 * 2 ^ 18 + 48 * 2 ^ 9 + 7)
  (s.readyFor 0 0 0 = true) ∧
  (untagged 0 = true) ∧
  (clears semSquash ⟨s, 0, 0, .s0, 0, op⟩ = true) := by decide +kernel
theorem witness_TransferInstructions_1 :
  let s : State := tRun
  let op : W32 := BitVec.ofNat 32 (31 * 2 ^ 25 + 48 * 2 ^ 9 + 48)
  (s.readyFor 0 0 0 = true) ∧
  (untagged 0 = true) ∧
  (clears semPut ⟨s, 0, 0, .x, 0, op⟩ = true) := by decide +kernel
theorem witness_TransferInstructions_2 :
  let s : State := tRun
  let op : W32 := BitVec.ofNat 32 (2 ^ 30 + 31 * 2 ^ 25 + 48 * 2 ^ 9 + 48)
  (s.readyFor 0 0 0 = true) ∧
  (untagged 0 = true) ∧
  (clears semPutAdd ⟨s, 0, 0, .x, 0, op⟩ = true) := by decide +kernel
theorem witness_TransferInstructions_3 :
  let s : State := tRun
  let op : W32 := BitVec.ofNat 32 (2 * 2 ^ 30 + 31 * 2 ^ 25 + 48 * 2 ^ 9 + 48)
  (s.readyFor 0 0 0 = true) ∧
  (untagged 0 = true) ∧
  (clears semGet ⟨s, 0, 0, .x, 0, op⟩ = true) := by decide +kernel
theorem witness_TransferInstructions_4 :
  let s : State := tRun
  let op : W32 := BitVec.ofNat 32 (0x1FF * 2 ^ 22 + 63 * 2 ^ 16)
  (s.readyFor 0 0 0 = true) ∧
  (untagged 0 = true) ∧
  (clears semXSig ⟨s, 0, 0, .x, 0, op⟩ = true) := by decide +kernel
theorem witness_TransferInstructions_5 :
  let s : State := tRun
  let op : W32 := BitVec.ofNat 32 (287 * 2 ^ 22 + 63 * 2 ^ 16)
  (s.readyFor 0 0 0 = true) ∧
  (untagged 0 = true) ∧
  (clears semXSig ⟨s, 0, 0, .x, 0, op⟩ = true) := by decide +kernel
theorem witness_TransferInstructions_6 :
  let s : State := tRun
  let op : W32 := BitVec.ofNat 32 (48 * 2 ^ 18 + 63)
  (s.readyFor 0 0 0 = true) ∧
  (untagged 0 = true) ∧
  (clears semXSigr ⟨s, 0, 0, .x, 0, op⟩ = true) := by decide +kernel
theorem witness_WaggleInstructions_1 :
  let s : State := tRunK (fun k => k.setReg (offBind 0 15) (BitVec.ofNat 64 (2 ^ 31)))
  let op : W32 := BitVec.ofNat 32 (15 * 2 ^ 28 + 15 * 2 ^ 24 + 48 * 2 ^ 9)
  (s.readyFor 0 0 0 = true) ∧
  (untagged 0 = true) ∧
  (clears semQSend ⟨s, 0, 0, .x, 0, op⟩ = true) := by decide +kernel
theorem witness_WaggleInstructions_2 :
  let s : State := tRunK (fun k => { k.setReg 0xB18 (BitVec.ofNat 64 (2 ^ 47)) with waggle := [(15, { msgs := [{ at_ := 0, ns := 1, data := 5, pad := false, from_ := 0 }] })] })
  let op : W32 := BitVec.ofNat 32 (31 * 2 ^ 27 + 15 * 2 ^ 23)
  (s.readyFor 0 0 0 = true) ∧
  (untagged 0 = true) ∧
  (clears semQPop ⟨s, 0, 0, .x, 0, op⟩ = true) ∧
  (((s.core 0).wq_ (bits op 26 23)).head? (s.cycOf 0) = some { at_ := 0, ns := 1, data := 5, pad := false, from_ := 0 }) := by decide +kernel
theorem witness_WaggleInstructions_3 :
  let s : State := tRunK (fun k => { k.setReg 0xB18 (BitVec.ofNat 64 (2 ^ 47)) with waggle := [(15, { msgs := [{ at_ := 0, ns := 1, data := 5, pad := false, from_ := 0 }] })] })
  let op : W32 := BitVec.ofNat 32 (15 * 2 ^ 23)
  (s.readyFor 0 0 0 = true) ∧
  (untagged 0 = true) ∧
  (clears semQSkip ⟨s, 0, 0, .x, 0, op⟩ = true) := by decide +kernel
theorem witness_WaggleInstructions_4 :
  let s : State := tRunK (fun k => { k.setReg 0xB18 (BitVec.ofNat 64 (2 ^ 47)) with waggle := [(15, { msgs := [{ at_ := 0, ns := 1, data := 5, pad := false, from_ := 0 }] })] })
  let op : W32 := BitVec.ofNat 32 (31 * 2 ^ 27 + 15 * 2 ^ 23)
  (s.readyFor 0 0 0 = true) ∧
  (untagged 0 = true) ∧
  (clears semQStat ⟨s, 0, 0, .x, 0, op⟩ = true) := by decide +kernel
theorem witness_WaggleInstructions_5 :
  let s : State := tRun
  let op : W32 := BitVec.ofNat 32 (31 * 2 ^ 27 + 15 * 2 ^ 23)
  (s.readyFor 0 0 0 = true) ∧
  (untagged 0 = true) ∧
  (clears semQSstat ⟨s, 0, 0, .x, 0, op⟩ = true) := by decide +kernel
theorem witness_ProcessorBranches_1 :
  let s : State := tProc
  let p : ProcIx := 0
  let op : W32 := BitVec.ofNat 32 (262143)
  let t := s.procIssue p ([])
  ((s.proc p).st = 1) ∧
  ((s.proc p).load = none) ∧
  (fRd op = 0 ∧ fSrc1 op = 0) ∧
  (t.interrupts p = false) := by decide +kernel
theorem witness_ProcessorBranches_2 :
  let s : State := tProc
  let p : ProcIx := 0
  let op : W32 := BitVec.ofNat 32 (3 * 2 ^ 27 + 131072)
  let t := s.procIssue p ([])
  ((s.proc p).st = 1) ∧
  ((s.proc p).load = none) ∧
  (bits op 31 29 = 0 ∧ fSrc1 op = 0) ∧
  (t.interrupts p = false) := by decide +kernel
theorem witness_ProcessorBranches_3 :
  let s : State := tProc
  let p : ProcIx := 0
  let op : W32 := BitVec.ofNat 32 (3 * 2 ^ 27 + 131072)
  let t := s.procIssue p ([])
  ((s.proc p).st = 1) ∧
  ((s.proc p).load = none) ∧
  (bits op 31 29 = 0 ∧ fSrc1 op = 0) ∧
  (t.interrupts p = false) := by decide +kernel
theorem witness_ProcessorBranches_4 :
  let s : State := tProc
  let p : ProcIx := 0
  let op : W32 := BitVec.ofNat 32 (39 * 2 ^ 18 + 48 * 2 ^ 9)
  let t := s.procIssue p ([fSrc1 op].filter (· < 32))
  ((s.proc p).st = 1) ∧
  ((s.proc p).load = none) ∧
  (fRd op = 0 ∧ srcOkP (fSrc1 op) = true ∧ fSrc2 op = 48 ∧ fSrc3 op = 0) ∧
  (t.interrupts p = false) := by decide +kernel
theorem witness_ProcessorBranches_5 :
  let s : State := tProc
  let p : ProcIx := 0
  let op : W32 := BitVec.ofNat 32 (262143)
  let t := s.procIssue p ([31])
  ((s.proc p).st = 1) ∧
  ((s.proc p).load = none) ∧
  (fRd op = 0 ∧ fSrc1 op = 0) ∧
  (t.interrupts p = false) := by decide +kernel
theorem witness_ProcessorBranches_6 :
  let s : State := tProc
  let p : ProcIx := 0
  let op : W32 := BitVec.ofNat 32 (7 * 2 ^ 27 + 48 * 2 ^ 18 + 131071)
  let t := s.procIssue p ([fSrc1 op].filter (· < 32))
  ((s.proc p).st = 1) ∧
  ((s.proc p).load = none) ∧
  (bits op 31 30 = 0 ∧ srcOkP (fSrc1 op) = true ∧ bits op 17 0 ≠ 0 ∧ bits op 17 0 ≤ 131071 ∧ (List.range 8).any (fun j => j ≠ bits op 29 27 && (s.proc p).creg j ≠ 0 && (Tab.get ⟨0, 0⟩ (s.proc p).loops j).last == (s.proc p).bodyEnd op) = false) ∧
  (t.interrupts p = false) := by decide +kernel
theorem witness_ProcessorMemory_1 :
  let s : State := tMem (2 ^ 20 - 1)
  let p : ProcIx := 0
  let op : W32 := tMemOp
  let a := (s.proc p).a op + imm18 op
  let t := s.procIssue p ([fSrc1 op].filter (· < 32) ++ [fRd op])
  ((s.proc p).st = 1) ∧
  ((s.proc p).load = none) ∧
  (srcOkP (fSrc1 op) = true) ∧
  (t.interrupts p = false) ∧
  (a.toNat % 1 = 0) ∧
  (bit a 63 = false) ∧
  (bits a 62 0 < sramSize p) := by decide +kernel
theorem witness_ProcessorMemory_2 :
  let s : State := tMem (2 ^ 63 + 2 ^ 33)
  let p : ProcIx := 0
  let op : W32 := tMemOp
  let a := (s.proc p).a op + imm18 op
  let t := s.procIssue p ([fSrc1 op].filter (· < 32) ++ [fRd op])
  ((s.proc p).st = 1) ∧
  ((s.proc p).load = none) ∧
  (srcOkP (fSrc1 op) = true) ∧
  (t.interrupts p = false) ∧
  (a.toNat % 1 = 0) ∧
  (bit a 63 = true) ∧
  (bits a 62 48 = 0) ∧
  (t.busRoom (procInput p) = true) := by decide +kernel
theorem witness_ProcessorMemory_3 :
  let s : State := tMem (2 ^ 20 - 1)
  let p : ProcIx := 0
  let op : W32 := tMemOp
  let a := (s.proc p).a op + imm18 op
  let t := s.procIssue p ([fSrc1 op, fRd op].filter (· < 32))
  ((s.proc p).st = 1) ∧
  ((s.proc p).load = none) ∧
  (srcOkP (fSrc1 op) = true) ∧
  (t.interrupts p = false) ∧
  (a.toNat % 1 = 0) ∧
  (bit a 63 = false) ∧
  (bits a 62 0 < sramSize p) := by decide +kernel
theorem witness_ProcessorMemory_4 :
  let s : State := tMem (2 ^ 63 + 2 ^ 33)
  let p : ProcIx := 0
  let op : W32 := tMemOp
  let a := (s.proc p).a op + imm18 op
  let t := s.procIssue p ([fSrc1 op, fRd op].filter (· < 32))
  ((s.proc p).st = 1) ∧
  ((s.proc p).load = none) ∧
  (srcOkP (fSrc1 op) = true) ∧
  (t.interrupts p = false) ∧
  (a.toNat % 1 = 0) ∧
  (bit a 63 = true) ∧
  (bits a 62 48 = 0) ∧
  (t.busRoom (procInput p) = true) := by decide +kernel
theorem witness_ProcessorMemory_5 :
  let s : State := tMem (2 ^ 20 - 2)
  let p : ProcIx := 0
  let op : W32 := tMemOp
  let a := (s.proc p).a op + imm18 op
  let t := s.procIssue p ([fSrc1 op].filter (· < 32) ++ [fRd op])
  ((s.proc p).st = 1) ∧
  ((s.proc p).load = none) ∧
  (srcOkP (fSrc1 op) = true) ∧
  (t.interrupts p = false) ∧
  (a.toNat % 2 = 0) ∧
  (bit a 63 = false) ∧
  (bits a 62 0 < sramSize p) := by decide +kernel
theorem witness_ProcessorMemory_6 :
  let s : State := tMem (2 ^ 63 + 2 ^ 33)
  let p : ProcIx := 0
  let op : W32 := tMemOp
  let a := (s.proc p).a op + imm18 op
  let t := s.procIssue p ([fSrc1 op].filter (· < 32) ++ [fRd op])
  ((s.proc p).st = 1) ∧
  ((s.proc p).load = none) ∧
  (srcOkP (fSrc1 op) = true) ∧
  (t.interrupts p = false) ∧
  (a.toNat % 2 = 0) ∧
  (bit a 63 = true) ∧
  (bits a 62 48 = 0) ∧
  (t.busRoom (procInput p) = true) := by decide +kernel
theorem witness_ProcessorMemory_7 :
  let s : State := tMem (2 ^ 20 - 2)
  let p : ProcIx := 0
  let op : W32 := tMemOp
  let a := (s.proc p).a op + imm18 op
  let t := s.procIssue p ([fSrc1 op, fRd op].filter (· < 32))
  ((s.proc p).st = 1) ∧
  ((s.proc p).load = none) ∧
  (srcOkP (fSrc1 op) = true) ∧
  (t.interrupts p = false) ∧
  (a.toNat % 2 = 0) ∧
  (bit a 63 = false) ∧
  (bits a 62 0 < sramSize p) := by decide +kernel
theorem witness_ProcessorMemory_8 :
  let s : State := tMem (2 ^ 63 + 2 ^ 33)
  let p : ProcIx := 0
  let op : W32 := tMemOp
  let a := (s.proc p).a op + imm18 op
  let t := s.procIssue p ([fSrc1 op, fRd op].filter (· < 32))
  ((s.proc p).st = 1) ∧
  ((s.proc p).load = none) ∧
  (srcOkP (fSrc1 op) = true) ∧
  (t.interrupts p = false) ∧
  (a.toNat % 2 = 0) ∧
  (bit a 63 = true) ∧
  (bits a 62 48 = 0) ∧
  (t.busRoom (procInput p) = true) := by decide +kernel
theorem witness_ProcessorMemory_9 :
  let s : State := tMem (2 ^ 20 - 4)
  let p : ProcIx := 0
  let op : W32 := tMemOp
  let a := (s.proc p).a op + imm18 op
  let t := s.procIssue p ([fSrc1 op].filter (· < 32) ++ [fRd op])
  ((s.proc p).st = 1) ∧
  ((s.proc p).load = none) ∧
  (srcOkP (fSrc1 op) = true) ∧
  (t.interrupts p = false) ∧
  (a.toNat % 4 = 0) ∧
  (bit a 63 = false) ∧
  (bits a 62 0 < sramSize p) := by decide +kernel
theorem witness_ProcessorMemory_10 :
  let s : State := tMem (2 ^ 63 + 2 ^ 33)
  let p : ProcIx := 0
  let op : W32 := tMemOp
  let a := (s.proc p).a op + imm18 op
  let t := s.procIssue p ([fSrc1 op].filter (· < 32) ++ [fRd op])
  ((s.proc p).st = 1) ∧
  ((s.proc p).load = none) ∧
  (srcOkP (fSrc1 op) = true) ∧
  (t.interrupts p = false) ∧
  (a.toNat % 4 = 0) ∧
  (bit a 63 = true) ∧
  (bits a 62 48 = 0) ∧
  (t.busRoom (procInput p) = true) := by decide +kernel
theorem witness_ProcessorMemory_11 :
  let s : State := tMem (2 ^ 20 - 4)
  let p : ProcIx := 0
  let op : W32 := tMemOp
  let a := (s.proc p).a op + imm18 op
  let t := s.procIssue p ([fSrc1 op, fRd op].filter (· < 32))
  ((s.proc p).st = 1) ∧
  ((s.proc p).load = none) ∧
  (srcOkP (fSrc1 op) = true) ∧
  (t.interrupts p = false) ∧
  (a.toNat % 4 = 0) ∧
  (bit a 63 = false) ∧
  (bits a 62 0 < sramSize p) := by decide +kernel
theorem witness_ProcessorMemory_12 :
  let s : State := tMem (2 ^ 63 + 2 ^ 33)
  let p : ProcIx := 0
  let op : W32 := tMemOp
  let a := (s.proc p).a op + imm18 op
  let t := s.procIssue p ([fSrc1 op, fRd op].filter (· < 32))
  ((s.proc p).st = 1) ∧
  ((s.proc p).load = none) ∧
  (srcOkP (fSrc1 op) = true) ∧
  (t.interrupts p = false) ∧
  (a.toNat % 4 = 0) ∧
  (bit a 63 = true) ∧
  (bits a 62 48 = 0) ∧
  (t.busRoom (procInput p) = true) := by decide +kernel
theorem witness_ProcessorMemory_13 :
  let s : State := tMem (2 ^ 20 - 8)
  let p : ProcIx := 0
  let op : W32 := tMemOp
  let a := (s.proc p).a op + imm18 op
  let t := s.procIssue p ([fSrc1 op].filter (· < 32) ++ [fRd op])
  ((s.proc p).st = 1) ∧
  ((s.proc p).load = none) ∧
  (srcOkP (fSrc1 op) = true) ∧
  (t.interrupts p = false) ∧
  (a.toNat % 8 = 0) ∧
  (bit a 63 = false) ∧
  (bits a 62 0 < sramSize p) := by decide +kernel
theorem witness_ProcessorMemory_14 :
  let s : State := tMem (2 ^ 63 + 2 ^ 33)
  let p : ProcIx := 0
  let op : W32 := tMemOp
  let a := (s.proc p).a op + imm18 op
  let t := s.procIssue p ([fSrc1 op].filter (· < 32) ++ [fRd op])
  ((s.proc p).st = 1) ∧
  ((s.proc p).load = none) ∧
  (srcOkP (fSrc1 op) = true) ∧
  (t.interrupts p = false) ∧
  (a.toNat % 8 = 0) ∧
  (bit a 63 = true) ∧
  (bits a 62 48 = 0) ∧
  (t.busRoom (procInput p) = true) := by decide +kernel
theorem witness_ProcessorMemory_15 :
  let s : State := tMem (2 ^ 20 - 8)
  let p : ProcIx := 0
  let op : W32 := tMemOp
  let a := (s.proc p).a op + imm18 op
  let t := s.procIssue p ([fSrc1 op, fRd op].filter (· < 32))
  ((s.proc p).st = 1) ∧
  ((s.proc p).load = none) ∧
  (srcOkP (fSrc1 op) = true) ∧
  (t.interrupts p = false) ∧
  (a.toNat % 8 = 0) ∧
  (bit a 63 = false) ∧
  (bits a 62 0 < sramSize p) := by decide +kernel
theorem witness_ProcessorMemory_16 :
  let s : State := tMem (2 ^ 63 + 2 ^ 33)
  let p : ProcIx := 0
  let op : W32 := tMemOp
  let a := (s.proc p).a op + imm18 op
  let t := s.procIssue p ([fSrc1 op, fRd op].filter (· < 32))
  ((s.proc p).st = 1) ∧
  ((s.proc p).load = none) ∧
  (srcOkP (fSrc1 op) = true) ∧
  (t.interrupts p = false) ∧
  (a.toNat % 8 = 0) ∧
  (bit a 63 = true) ∧
  (bits a 62 48 = 0) ∧
  (t.busRoom (procInput p) = true) := by decide +kernel
theorem witness_ProcessorControl_1 :
  let s : State := tProc
  let p : ProcIx := 0
  let op : W32 := BitVec.ofNat 32 (3 * 2 ^ 27 + 5)
  let t : State := s.procIssue p [fRd op]
  ((s.proc p).st = 1) ∧
  ((s.proc p).load = none) ∧
  (t.interrupts p = false) := by decide +kernel
theorem witness_ProcessorControl_2 :
  let s : State := tProc
  let p : ProcIx := 0
  let op : W32 := BitVec.ofNat 32 (48 * 2 ^ 18 + 5)
  let t : State := s.procIssue p ([fSrc1 op].filter (· < 32))
  ((s.proc p).st = 1) ∧
  ((s.proc p).load = none) ∧
  (srcOkP (fSrc1 op) = true) ∧
  (t.interrupts p = false) := by decide +kernel
theorem witness_ProcessorControl_3 :
  let s : State := tProc
  let p : ProcIx := 0
  let t : State := s.procIssue p []
  ((s.proc p).st = 1) ∧
  ((s.proc p).load = none) ∧
  (t.interrupts p = false) ∧
  (t.wakes p = false) := by decide +kernel
theorem witness_ProcessorControl_4 :
  let s : State := tWake
  let p : ProcIx := 0
  let t : State := s.procIssue p []
  ((s.proc p).st = 1) ∧
  ((s.proc p).load = none) ∧
  (t.interrupts p = false) ∧
  (t.wakes p = true) := by decide +kernel
theorem witness_ProcessorControl_5 :
  let s : State := tProc
  let p : ProcIx := 0
  let t : State := s.procIssue p []
  ((s.proc p).st = 1) ∧
  ((s.proc p).load = none) ∧
  (t.interrupts p = false) := by decide +kernel
theorem witness_ProcessorControl_6 :
  let s : State := tProc
  let p : ProcIx := 0
  let op : W32 := BitVec.ofNat 32 (3 * 2 ^ 27 + 5)
  let t : State := s.procIssue p [fRd op]
  ((s.proc p).st = 1) ∧
  ((s.proc p).load = none) ∧
  (bits op 11 0 = 0x005) ∧
  (t.interrupts p = false) := by decide +kernel
theorem witness_ProcessorControl_7 :
  let s : State := tProc
  let p : ProcIx := 0
  let op : W32 := BitVec.ofNat 32 (48 * 2 ^ 18 + 5)
  let t : State := s.procIssue p ([fSrc1 op].filter (· < 32))
  ((s.proc p).st = 1) ∧
  ((s.proc p).load = none) ∧
  (srcOkP (fSrc1 op) = true) ∧
  (bits op 11 0 = 0x005) ∧
  (t.interrupts p = false) := by decide +kernel
theorem witness_ProcessorExceptions_1 :
  let s : State := tProc
  let p : ProcIx := 0
  let t := s.procIssue p []
  ((s.proc p).st = 1) ∧
  ((s.proc p).load = none) ∧
  (t.interrupts p = false) := by decide +kernel
theorem witness_ProcessorExceptions_2 :
  let s : State := tMem (4)
  let p : ProcIx := 0
  let n : Nat := 8
  let op : W32 := tMemOp
  let a := (s.proc p).a op + imm18 op
  let t := s.procIssue p ([fSrc1 op].filter (· < 32) ++ [fRd op])
  ((s.proc p).st = 1) ∧
  ((s.proc p).load = none) ∧
  (srcOkP (fSrc1 op) = true) ∧
  (t.interrupts p = false) ∧
  (a.toNat % n ≠ 0) := by decide +kernel
theorem witness_ProcessorExceptions_3 :
  let s : State := tMem (2 ^ 20)
  let p : ProcIx := 0
  let n : Nat := 8
  let op : W32 := tMemOp
  let a := (s.proc p).a op + imm18 op
  let t := s.procIssue p ([fSrc1 op].filter (· < 32) ++ [fRd op])
  ((s.proc p).st = 1) ∧
  ((s.proc p).load = none) ∧
  (srcOkP (fSrc1 op) = true) ∧
  (t.interrupts p = false) ∧
  (a.toNat % n = 0) ∧
  (bit a 63 = false) ∧
  (sramSize p ≤ bits a 62 0) := by decide +kernel
theorem witness_ProcessorExceptions_4 :
  let s : State := tMem (2 ^ 63 + 2 ^ 48)
  let p : ProcIx := 0
  let n : Nat := 8
  let op : W32 := tMemOp
  let a := (s.proc p).a op + imm18 op
  let t := s.procIssue p ([fSrc1 op].filter (· < 32) ++ [fRd op])
  ((s.proc p).st = 1) ∧
  ((s.proc p).load = none) ∧
  (srcOkP (fSrc1 op) = true) ∧
  (t.interrupts p = false) ∧
  (a.toNat % n = 0) ∧
  (bit a 63 = true) ∧
  (bits a 62 48 ≠ 0) := by decide +kernel
theorem witness_ProcessorExceptions_5 :
  let s : State := tMem (4)
  let p : ProcIx := 0
  let n : Nat := 8
  let op : W32 := tMemOp
  let a := (s.proc p).a op + imm18 op
  let t := s.procIssue p ([fSrc1 op, fRd op].filter (· < 32))
  ((s.proc p).st = 1) ∧
  ((s.proc p).load = none) ∧
  (srcOkP (fSrc1 op) = true) ∧
  (t.interrupts p = false) ∧
  (a.toNat % n ≠ 0) := by decide +kernel
theorem witness_ProcessorExceptions_6 :
  let s : State := tMem (2 ^ 20)
  let p : ProcIx := 0
  let n : Nat := 8
  let op : W32 := tMemOp
  let a := (s.proc p).a op + imm18 op
  let t := s.procIssue p ([fSrc1 op, fRd op].filter (· < 32))
  ((s.proc p).st = 1) ∧
  ((s.proc p).load = none) ∧
  (srcOkP (fSrc1 op) = true) ∧
  (t.interrupts p = false) ∧
  (a.toNat % n = 0) ∧
  (bit a 63 = false) ∧
  (sramSize p ≤ bits a 62 0) := by decide +kernel
theorem witness_ProcessorExceptions_7 :
  let s : State := tMem (2 ^ 63 + 2 ^ 48)
  let p : ProcIx := 0
  let n : Nat := 8
  let op : W32 := tMemOp
  let a := (s.proc p).a op + imm18 op
  let t := s.procIssue p ([fSrc1 op, fRd op].filter (· < 32))
  ((s.proc p).st = 1) ∧
  ((s.proc p).load = none) ∧
  (srcOkP (fSrc1 op) = true) ∧
  (t.interrupts p = false) ∧
  (a.toNat % n = 0) ∧
  (bit a 63 = true) ∧
  (bits a 62 48 ≠ 0) := by decide +kernel
theorem witness_ProcessorExceptions_8 :
  let s : State := tProc
  let p : Nat := 0
  (bit (s.proc p).status 2 = false) := by decide +kernel
theorem witness_ProcessorExceptions_9 :
  let s : State := State.reset.setProc 0 { st := 1, status := 4 }
  let p : Nat := 0
  (bit (s.proc p).status 2 = true) := by decide +kernel

end Sys2Proof.Tests
end

section
/-! PROOFS.
The service bus: what a grant, an access at an aperture, a returned response and a register write answer (spec 01 R20–R26,
17 R498–R499, 19 R541–R543). One lemma for each way an operation can go; the obligation lists them. -/

namespace Sys2Proof.Machine

/-! ### An input's next access at the Comb (R24, R25) -/

section Comb
variable {s : State} {inp i r b : Nat} {f : BusFlight}
  (hf : s.nextAccess inp Target.isComb = some f) (ht : targetOf f.acc.addr = .comb i r b)
include hf ht

/-- Spare and fused-off slices, and every slice of a module whose bring-up stopped, answer zero and take nothing. -/
theorem combAccess_of_closed (hc : s.fence i = 1 ∨ s.fence i = 3 ∨ s.bootCause ≠ 0) :
    combAccess s inp = s.busResult inp f.n true 0 := by
  simp only [combAccess, hf, ht, if_pos hc]

theorem combAccess_of_write (ho : ¬ (s.fence i = 1 ∨ s.fence i = 3 ∨ s.bootCause ≠ 0)) (hw : f.acc.write = true) :
    combAccess s inp =
      (s.sideWrite i r b f.acc.size f.acc.data).1.busResult inp f.n (s.sideWrite i r b f.acc.size f.acc.data).2 0 := by
  simp only [combAccess, hf, ht, if_neg ho, if_pos hw]

/-- The row that the side port reads decides: an uncorrectable one answers an error, any other the bytes asked for. -/
theorem combAccess_of_read (ho : ¬ (s.fence i = 1 ∨ s.fence i = 3 ∨ s.bootCause ≠ 0)) (hr : f.acc.write = false) :
    combAccess s inp =
      if (s.sideRead i r).2.isNone then (s.sideRead i r).1.busResult inp f.n false 0
      else (s.sideRead i r).1.busResult inp f.n true
        (field ((s.sideRead i r).2.getD 0).toNat (8 * b) (8 * f.acc.size)) := by
  simp only [combAccess, hf, ht, if_neg ho, hr]
  cases (s.sideRead i r).2 with
  | none => rfl
  | some v => rfl

end Comb

/-! ### An input's next access at the Cellar (R26, R498, R499) -/

section Cellar
variable {s : State} {inp a : Nat} {f : BusFlight}
  (hf : s.nextAccess inp Target.isCellar = some f) (ht : targetOf f.acc.addr = .cellar a)
  (hb : s.bootCause = 0) (hs : 10 ≤ s.stage) (hh : s.burstHeld (a / 64) = false)
include hf ht hb hs hh

theorem cellarAccess_of_write (hw : f.acc.write = true) :
    cellarAccess s inp =
      let p := (s.toCt (s.bankFreeAt (a / 64))).cellWrite a f.acc.size f.acc.data
      p.1.busResult inp f.n p.2 0 := by
  have served : ¬ (s.stage < 10 ∨ s.burstHeld (a / 64) = true) := by simp [hs, hh]
  simp only [cellarAccess, hf, ht, if_neg (not_not_intro hb), if_neg served, if_pos hw]

theorem cellarAccess_of_read (hr : f.acc.write = false) :
    cellarAccess s inp =
      let p := (s.toCt (s.bankFreeAt (a / 64))).cellRead a f.acc.size
      p.1.busResult inp f.n p.2.isSome (p.2.getD 0) := by
  have served : ¬ (s.stage < 10 ∨ s.burstHeld (a / 64) = true) := by simp [hs, hh]
  simp only [cellarAccess, hf, ht, if_neg (not_not_intro hb), if_neg served, hr, Bool.false_eq_true, if_false]

end Cellar

/-! ### The response of an input's oldest access (R543) -/

section Completion
variable {s : State} {inp m v p e : Nat} {a : BusAcc} {good : Bool} {rest : List BusFlight}
  (h : s.inFlight inp = ⟨m, a, some (good, v)⟩ :: rest)
include h

theorem serviceCompletion_of_load (hw : a.who = .load p e) :
    serviceCompletion s inp = (s.setFlight inp rest).loadDone p e good v := by
  simp only [serviceCompletion, h, hw]

theorem serviceCompletion_of_store (hw : a.who = .store p e) :
    serviceCompletion s inp = (s.setFlight inp rest).storeDone p e good a.addr := by
  simp only [serviceCompletion, h, hw]

theorem serviceCompletion_of_host (hw : a.who = .host p e) :
    serviceCompletion s inp = (s.setFlight inp rest).hostPiece p a good v := by
  simp only [serviceCompletion, h, hw]

/-- A stream engine takes the response only while the piece it moves is still the one that asked. -/
theorem serviceCompletion_of_kstr (hw : a.who = .kstr p e) :
    serviceCompletion s inp =
      if ((s.setFlight inp rest).kstr p e).piece.1 = a.addr then (s.setFlight inp rest).pieceDone p e good v
      else s.setFlight inp rest := by
  simp only [serviceCompletion, h, hw]

end Completion

/-- Settles O36: each clause is the dispatch to one operation of the bus, and the branch of it that the clause's hypotheses
pick. The grant's branch is the one where the highest input with an access is `q` and its queue is `a :: rest`. -/
theorem serviceBus : Obligations.ServiceBus := by
  refine ⟨?grant, ?combClosed, ?combWrite, ?combRead, ?cellarWrite, ?cellarRead, ?load, ?store, ?host, ?kstr, ?register⟩
  case grant =>
    intro s q a rest hq ha
    show ok (busGrant s) = _
    simp only [busGrant, hq, ha]
    rfl
  case combClosed =>
    intro s inp f i r b hf ht hc
    exact congrArg ok (combAccess_of_closed hf ht hc)
  case combWrite =>
    intro s inp f i r b hf ht ho hw
    exact congrArg ok (combAccess_of_write hf ht ho hw)
  case combRead =>
    intro s inp f i r b hf ht ho hr
    exact congrArg ok (combAccess_of_read hf ht ho hr)
  case cellarWrite =>
    intro s inp f a hf ht hb hs hh hw
    exact congrArg ok (cellarAccess_of_write hf ht hb hs hh hw)
  case cellarRead =>
    intro s inp f a hf ht hb hs hh hr
    exact congrArg ok (cellarAccess_of_read hf ht hb hs hh hr)
  case load =>
    intro s inp m v a good rest p e h hw
    exact congrArg ok (serviceCompletion_of_load h hw)
  case store =>
    intro s inp m v a good rest p e h hw
    exact congrArg ok (serviceCompletion_of_store h hw)
  case host =>
    intro s inp m v a good rest p e h hw
    exact congrArg ok (serviceCompletion_of_host h hw)
  case kstr =>
    intro s inp m v a good rest p e h hw
    exact congrArg ok (serviceCompletion_of_kstr h hw)
  case register =>
    intro s inp v off size
    rfl

end Sys2Proof.Machine
end
section
/-! PROOFS.
Contexts of a core: which one runs next, waits met, the replay gate, task commands, and the instruction cache's misses and
fills (spec 02 R37–R64, 03 R90, 12 R374, 14 R427, 21 R576). -/

namespace Sys2Proof.Machine

/-! ### Updates of one core -/

theorem modCore_modCore (s : State) (i : Nat) (f g : Core → Core) : (s.modCore i f).modCore i g = s.modCore i (fun k => g (f k)) := by
  simp only [State.modCore, State.core_setCore_self, setCore_twice]

theorem modCore_congr {s : State} {i : Nat} {f g : Core → Core} (h : f (s.core i) = g (s.core i)) :
    s.modCore i f = s.modCore i g := by
  simp only [State.modCore, h]

/-! ### The sample (R37, R42, R44) -/

theorem Core.select_of_ready {k : Core} {n c m : Nat} (h : k.nextReady n c = some m) :
    k.select n c =
      { k.modCtx m (fun x => { x with mode := .running }) with phase := .running m, nextIssue := c + 1, lastRun := m } := by
  simp only [Core.select, h]

theorem Core.select_of_none {k : Core} {n c : Nat} (h : k.nextReady n c = none) :
    k.select n c = { k with phase := k.rest, lastRun := n, nextIssue := c + 1 } := by
  simp only [Core.select, h]

theorem Core.rest_of_none {k : Core} (h : [0, 1, 2, 3].filterMap k.readyFrom = []) : k.rest = .gated := by
  simp only [Core.rest, h]

theorem Core.rest_of_one {k : Core} {t : Nat} (h : [0, 1, 2, 3].filterMap k.readyFrom = [t]) : k.rest = .waking (t + 2) := by
  simp only [Core.rest, h, List.foldl_nil]

theorem contextSwitch_eq {s : State} {i r c : Nat} (h : (s.core i).phase = .switching r c) :
    contextSwitch s i = (s.toCyc i c).modCore i (fun k => k.select r c) := by
  simp only [contextSwitch, h]

theorem gatedWake_eq {s : State} {i c : Nat} (h : (s.core i).phase = .waking c) :
    gatedWake s i = (s.toCyc i c).modCore i (fun k => k.select k.lastRun c) := by
  simp only [gatedWake, h]

/-- No sample falls by cycle `c`: the core stays as it is. -/
theorem Core.sampleBy_of_later {k : Core} {c : Nat} (h : ∀ r x, k.phase = .switching r x → c < x) : k.sampleBy c = k := by
  unfold Core.sampleBy
  split
  · exact if_neg (Nat.not_le.mpr (h _ _ (by assumption)))
  · rfl

theorem Core.sampleBy_of_switching {k : Core} {c r x : Nat} (h : k.phase = .switching r x) (hx : x ≤ c) :
    k.sampleBy c = k.select r x := by
  simp only [Core.sampleBy, h, if_pos hx]

/-! ### Waits met (R40, R44, R45, R90) -/

/-- A first wait met leaves its context ready, and wakes a core that has nothing else to run. -/
theorem makeReady_of_single {s : State} {i n t : Nat} (h : (s.ctx i n).after = none) :
    s.makeReady i n t = s.modCore i (fun k =>
      let k1 := k.modCtx n (fun x => { x with mode := .ready (t + 1), after := none })
      if k.power = .run ∧ (k.phase = .gated ∨ k.phase = .idle) then { k1 with phase := .waking (t + 3) } else k1) := by
  have met : ((s.core i).getCtx n).onMet t (s.edgeCt i) = .ready (t + 1) := by
    have after : ((s.core i).getCtx n).after = none := h
    simp only [Ctx.onMet, after]
  refine modCore_congr ?_
  simp only [met]
  split
  · rw [if_pos ⟨by assumption, .inl (by assumption)⟩]
  · rw [if_pos ⟨by assumption, .inr (by assumption)⟩]
  · rename_i notGated notIdle
    rw [if_neg]
    rintro ⟨power, phase | phase⟩
    · exact notGated _ rfl power phase
    · exact notIdle _ rfl power phase

/-- A wait met whose bundle has a second one leaves its context with that. -/
theorem makeReady_of_second {s : State} {i n t : Nat} {w : Wait} (h : (s.ctx i n).after = some w) (notAt : ∀ target, w ≠ .at target) :
    s.makeReady i n t = s.modCtx i n (fun x => { x with mode := .waiting w, after := none }) := by
  have met : ((s.core i).getCtx n).onMet t (s.edgeCt i) = .waiting w := by
    have after : ((s.core i).getCtx n).after = some w := h
    unfold Ctx.onMet
    rw [after]
    split
    · contradiction
    · exact absurd (Option.some.inj (by assumption)) (notAt _)
    · rename_i second
      rw [Option.some.inj second]
  refine modCore_congr ?_
  simp only [met]

/-- An update that leaves the core as it is makes no difference to a wait met after it. -/
theorem makeReady_modCore_same {s : State} {i n t : Nat} {f : Core → Core} (h : f (s.core i) = s.core i) :
    (s.modCore i f).makeReady i n t = s.makeReady i n t := by
  have edge : (s.modCore i f).edgeCt i = s.edgeCt i := rfl
  unfold State.makeReady
  rw [modCore_modCore, edge]
  exact modCore_congr (by rw [h])

section AtTarget
variable {s : State} {i n target : Nat} (waits : (s.ctx i n).mode = .waiting (.at target))
  (stillWaits : ((s.atTarget i target).ctx i n).mode = .waiting (.at target))
include waits

/-- A context that has faulted before its target is left as it is (R94). -/
theorem waitAtReached_of_faulted (h : ((s.atTarget i target).ctx i n).mode ≠ .waiting (.at target)) :
    waitAtReached s i n = s.atTarget i target := by
  simp only [waitAtReached, waits]
  exact if_pos h

include stillWaits

/-- The context issues where the core, once a sample that falls by the target's cycle is taken, has nothing else to run. -/
theorem waitAtReached_of_free {k : Core} (sampled : ((s.atTarget i target).core i).sampleBy (s.targetCyc i target) = k)
    (power : k.power = .run) (phase : k.phase = .gated ∨ k.phase = .idle) :
    waitAtReached s i n = (s.atTarget i target).modCore i (fun _ =>
      { k.modCtx n (fun x => { x with mode := .running }) with
        phase := .running n, nextIssue := Nat.max (s.targetCyc i target) k.nextIssue, lastRun := n }) := by
  rw [waitAtReached_form waits stillWaits]
  simp only [core_modCore, sampled, modCore_modCore]
  rcases phase with phase | phase <;> simp only [power, phase] <;> exact modCore_congr (by rw [sampled])

/-- Where no sample falls by the target's cycle and the core has something to run, the context is ready from the next. -/
theorem waitAtReached_of_busy (later : ∀ r x, ((s.atTarget i target).core i).phase = .switching r x → s.targetCyc i target < x)
    (notGated : ((s.atTarget i target).core i).phase ≠ .gated) (notIdle : ((s.atTarget i target).core i).phase ≠ .idle) :
    waitAtReached s i n = (s.atTarget i target).makeReady i n (s.targetCyc i target) := by
  have same := Core.sampleBy_of_later later
  rw [waitAtReached_form waits stillWaits]
  simp only [core_modCore, same]
  split
  · contradiction
  · contradiction
  · exact makeReady_modCore_same same

end AtTarget

/-- A wait met on a flag with CLR clears the flag in the next cycle. -/
theorem waitMetEvent_of_clear {s : State} {i n f : Nat} (waits : (s.ctx i n).mode = .waiting (.flag true f))
    (met : (s.core i).waitMet n (s.cycOf i) (.flag true f) = true) :
    waitMetEvent s i n = ((s.makeReady i n (s.cycOf i)).toCyc i (s.cycOf i + 1)).modCore i (fun k => k.takeFlag f (s.cycOf i + 1)) := by
  simp only [waitMetEvent, waits, met, if_true, Wait.metIn]

theorem waitMetEvent_of_keep {s : State} {i n : Nat} {w : Wait} (waits : (s.ctx i n).mode = .waiting w)
    (met : (s.core i).waitMet n (s.cycOf i) w = true) (keep : ∀ f, w ≠ .flag true f) :
    waitMetEvent s i n = s.makeReady i n (w.metIn (s.cycOf i)) := by
  simp only [waitMetEvent, waits, met, if_true]

/-- A loss of QUAL 1,000 ct or more ago has reached every core (R427). -/
theorem lostBefore_of_reached {s : State} {i target : Nat} (changed : s.tu.qualNo ≠ 0) (lost : s.flag rTstat 3 = false)
    (before : s.tu.qualAt + 1000 < target) : s.lostBefore i target = true := by
  have reach : s.qualReach i < target := by unfold State.qualReach; omega
  simp [State.lostBefore, changed, lost, reach]

/-- Settles O7: a switch and a wake are the sample's two outcomes, and a wait at a target is met where the core's pending sample,
taken or not, leaves it free or busy. -/
theorem contextScheduling : Obligations.ContextScheduling := by
  refine ⟨?switchRuns, ?switchGates, ?switchWakes, ?wakeRuns, ?wakeGates, ?atIssues, ?atFaulted, ?atSampled, ?atReady, ?loss,
    ?met, ?single, ?second⟩
  case switchRuns =>
    intro s i r c m phase next
    refine congrArg ok ((contextSwitch_eq phase).trans (modCore_congr ?_))
    exact Core.select_of_ready next
  case switchGates =>
    intro s i r c phase next rest
    refine congrArg ok ((contextSwitch_eq phase).trans (modCore_congr ?_))
    rw [Core.select_of_none next, Core.rest_of_none rest]
  case switchWakes =>
    intro s i r c t phase next rest
    refine congrArg ok ((contextSwitch_eq phase).trans (modCore_congr ?_))
    rw [Core.select_of_none next, Core.rest_of_one rest]
  case wakeRuns =>
    intro s i c m phase next
    refine congrArg ok ((gatedWake_eq phase).trans (modCore_congr ?_))
    exact Core.select_of_ready next
  case wakeGates =>
    intro s i c phase next rest
    refine congrArg ok ((gatedWake_eq phase).trans (modCore_congr ?_))
    rw [Core.select_of_none next, Core.rest_of_none rest]
  case atIssues =>
    intro s i n target waits stillWaits power phase
    have later (r x : Nat) (h : ((s.atTarget i target).core i).phase = .switching r x) : s.targetCyc i target < x := by
      simp [h] at phase
    exact congrArg ok (waitAtReached_of_free waits stillWaits (Core.sampleBy_of_later later) power phase)
  case atFaulted =>
    intro s i n target waits faulted
    exact congrArg ok (waitAtReached_of_faulted waits faulted)
  case atSampled =>
    intro s i n target r x waits stillWaits power phase sampled next rest
    have gates : ((s.atTarget i target).core i).sampleBy (s.targetCyc i target) =
        { (s.atTarget i target).core i with phase := .gated, lastRun := r, nextIssue := x + 1 } := by
      rw [Core.sampleBy_of_switching phase sampled, Core.select_of_none next, Core.rest_of_none rest]
    exact congrArg ok (waitAtReached_of_free waits stillWaits gates power (.inl rfl))
  case atReady =>
    intro s i n target r waits stillWaits phase
    refine congrArg ok (waitAtReached_of_busy waits stillWaits ?_ ?_ ?_)
    · rintro r' x h
      rcases phase with phase | ⟨c, phase, later⟩
      · simp [phase] at h
      · obtain ⟨rfl, rfl⟩ : r = r' ∧ c = x := by simpa [phase] using h
        exact later
    · rcases phase with phase | ⟨c, phase, -⟩ <;> simp [phase]
    · rcases phase with phase | ⟨c, phase, -⟩ <;> simp [phase]
  case loss =>
    intro s i n target waits _ changed lost before passed alone
    have reached : s.qualReach i ≤ s.edgeCt i := by unfold State.qualReach; omega
    exact lossCycle_one waits (lostBefore_of_reached changed lost before) reached alone
  case met =>
    intro s i n w waits met
    cases w with
    | flag clr f =>
      cases clr with
      | true => exact congrArg ok (waitMetEvent_of_clear waits met)
      | false => exact congrArg ok (waitMetEvent_of_keep waits met (by simp))
    | _ => exact congrArg ok (waitMetEvent_of_keep waits met (by simp))
  case single => exact fun _ _ _ _ after => makeReady_of_single after
  case second => exact fun _ _ _ _ _ after notAt => makeReady_of_second after notAt

/-! ### The replay gate (R49, R52) -/

theorem goCmd_of_waiting {s : State} {i n : Nat} (powered : (s.core i).off = false) (waits : (s.ctx i n).mode = .waiting .replay) :
    goCmd s i n =
      let s0 := s.wakeSource i 4
      let v := (s0.core i).fld (offReplay n) 31 0
      let r := ((s0.modCore i (fun k => k.setReg (offReplay n) (BitVec.ofNat 64 ((v + 1) % 2 ^ 32)))).modCtx i n
        (fun x => { x with arrived := false })).makeReady i n (s.cycOf i)
      if v + 1 = 2 ^ 32 then (r.coreEvent i (offStat n) 8).raiseCore i 4 else r := by
  simp only [goCmd, powered, Bool.false_eq_true, if_false, waits]

theorem goCmd_of_elsewhere {s : State} {i n : Nat} (powered : (s.core i).off = false)
    (elsewhere : (s.ctx i n).mode ≠ .waiting .replay) : goCmd s i n = s.coreEvent i (offStat n) 10 := by
  simp only [goCmd, powered, Bool.false_eq_true, if_false]

/-- Settles O8: the two branches of GO on a core with power. -/
theorem replayGate : Obligations.ReplayGate :=
  ⟨fun _ _ _ _ powered waits => congrArg ok (goCmd_of_waiting powered waits),
   fun _ _ _ _ powered elsewhere => congrArg ok (goCmd_of_elsewhere powered elsewhere)⟩

/-! ### Task commands (R47, R53, R54, R576) -/

theorem wakeSource_of_run {s : State} {i code : Nat} (h : (s.core i).power = .run) : s.wakeSource i code = s := by
  simp only [State.wakeSource, h, Bool.false_and, Bool.false_eq_true, if_false]

theorem Core.off_of_run {k : Core} (h : k.power = .run) : k.off = false := by
  simp only [Core.off, h]

/-- START on a running core after bring-up: only the context's task or the core's reset can refuse it. -/
theorem startCmd_of_run {s : State} {i n : Nat} (booted : s.bootReady = true) (opened : s.lcOpen = true)
    (power : (s.core i).power = .run) (e : W32) :
    startCmd s i n e =
      if (s.core i).holdsTask n ∨ s.ct < (s.core i).resetEnd then s.coreEvent i (offStat n) 11 else s.startTask i n e := by
  simp [startCmd, wakeSource_of_run power, Core.off_of_run power, booted, opened]

theorem endTask_of_issuing {s : State} {i n : Nat} (powered : (s.core i).off = false)
    (h : (s.ctx i n).mode = .running ∨ (∃ w, (s.ctx i n).mode = .waiting w) ∨ ∃ c, (s.ctx i n).mode = .ready c) :
    endTask s i n = s.deschedule i n (s.cycOf i) (.ending true) := by
  rcases h with h | ⟨w, h⟩ | ⟨c, h⟩ <;> simp only [endTask, powered, Bool.false_eq_true, if_false, h, State.stopTask]

theorem endTask_of_noTask {s : State} {i n : Nat} (h : (s.ctx i n).mode = .noTask) : endTask s i n = s := by
  simp only [endTask, h, ite_self]

theorem paramWrite_of_open {s : State} {i n j : Nat} {v : W64} (powered : (s.core i).off = false)
    (h : (s.ctx i n).mode = .noTask ∨ (s.ctx i n).mode = .waiting .replay) :
    paramWrite s i n j v = s.modCore i (fun k => k.setReg (offParam n j) v) := by
  rcases h with h | h <;> simp only [paramWrite, powered, Bool.false_eq_true, if_false, h]

theorem paramWrite_of_closed {s : State} {i n j : Nat} {v : W64} (powered : (s.core i).off = false)
    (task : (s.ctx i n).mode ≠ .noTask) (elsewhere : (s.ctx i n).mode ≠ .waiting .replay) :
    paramWrite s i n j v = s.coreEvent i (offStat n) 9 := by
  simp only [paramWrite, powered, Bool.false_eq_true, if_false]

theorem paramWrite_of_off {s : State} {i n j : Nat} {v : W64} (h : (s.core i).off = true) :
    paramWrite s i n j v = s.event (rPwrStat i) 63 := by
  simp only [paramWrite, h, if_true]

/-- Settles O9: each clause is one branch of its command, picked by the power state and the context's mode. -/
theorem taskCommands : Obligations.TaskCommands := by
  refine ⟨?starts, ?startRefused, ?ends, ?endsNothing, ?stored, ?refused, ?off⟩
  case starts =>
    intro s inp i n e booted opened power mode outOfReset
    have noTask : (s.core i).holdsTask n = false := by
      have mode' : ((s.core i).getCtx n).mode = .noTask := mode
      simp only [Core.holdsTask, mode', CtxMode.holdsTask]
    refine congrArg ok ((startCmd_of_run booted opened power e).trans (if_neg ?_))
    simp [noTask, outOfReset]
  case startRefused =>
    intro s inp i n e booted opened power task
    exact congrArg ok ((startCmd_of_run booted opened power e).trans (if_pos (.inl task)))
  case ends => exact fun _ _ _ _ powered mode => congrArg ok (endTask_of_issuing powered mode)
  case endsNothing => exact fun _ _ _ _ mode => congrArg ok (endTask_of_noTask mode)
  case stored => exact fun _ _ _ _ _ _ powered mode => congrArg ok (paramWrite_of_open powered mode)
  case refused => exact fun _ _ _ _ _ _ powered task elsewhere => congrArg ok (paramWrite_of_closed powered task elsewhere)
  case off => exact fun _ _ _ _ _ _ off => congrArg ok (paramWrite_of_off off)

/-! ### The instruction cache (R63, R64, R374) -/

/-- The count and the record of a miss leave the base of the context's lines. -/
theorem lineRow_of_missRecord (s : State) (i line : Nat) (a b : W64) :
    (((s.count48 i 0x10 1).modCore i (fun k => (k.setReg 0x18 a).setReg 0x20 b)).core i).lineRow line = (s.core i).lineRow line := by
  simp [core_modCore, core_count48, Core.lineRow, Core.fld, Core.reg_setReg]

theorem icacheMiss_of_absent {s : State} {i n : Nat} (phase : (s.core i).phase = .running n) (mode : (s.ctx i n).mode = .running)
    (absent : (s.core i).present ((s.ctx i n).pc.toNat / 8) = false) (untimed : (s.ctx i n).timed = false)
    (due : (s.core i).nextIssue ≤ s.cycOf i) (inCellar : (s.core i).lineRow ((s.ctx i n).pc.toNat / 8) ≤ lastCellarRow) :
    icacheMiss s i n =
      let line := (s.ctx i n).pc.toNat / 8
      let u := (s.count48 i 0x10 1).modCore i (fun k => (k.setReg 0x18 (BitVec.ofNat 64 (s.edgeCt i))).setReg 0x20
        (BitVec.ofNat 64 ((s.ctx i n).pc.toNat + n * 2 ^ 32 + (s.ctx i n).timed.toNat * 2 ^ 34)))
      let r := if (u.core i).filling line then u else u.startFill i line n false
      r.deschedule i n (r.cycOf i) (.waiting (.miss line (r.cycOf i))) := by
  have misses : ¬ (n ≠ n ∨ (s.ctx i n).mode ≠ .running ∨ (s.core i).present ((s.ctx i n).pc.toNat / 8) = true) := by
    simp [mode, absent]
  simp only [icacheMiss, phase, if_neg misses, State.toCyc_past s i _ due, untimed, Bool.false_eq_true, if_false,
    lineRow_of_missRecord, if_neg (Nat.not_lt.mpr inCellar)]

/-- A fill that holds its credit, 176 cycles after its request, with its line read. -/
theorem icacheFill_of_read {s : State} {i line : Nat} {f : Fill} (request : (s.core i).fills.find? (fun g => g.line == line) = some f)
    (credit : f.credit = true) (heard : s.mutes i = false)
    (free : (s.toCyc i (f.since + 176)).rowHeld (((s.toCyc i (f.since + 176)).core i).lineRow line) = false) :
    let v := s.toCyc i (f.since + 176)
    let row := (v.core i).lineRow line
    let q := (v.toCt (v.lineFree row (line % 2))).readLine row (line % 2)
    q.2 = true →
    icacheFill s i line =
      let u := q.1.modCore i (fun k => { k with fills := k.fills.filter (fun g => g.line ≠ line) })
      let w := u.modCore i (fun k => k.fillLine line)
      (if f.lock || (u.core i).lockWaits line then w.lockLine i line else w).lineFilled i line := by
  intro v row q read
  simp only [icacheFill, request, credit, Bool.true_eq_false, if_false, heard, Bool.false_eq_true, free]
  exact if_neg (Bool.eq_false_iff.not.mpr (not_not_intro read))

/-- The one context that missed on a line goes on with it, no earlier than R63 gives. -/
theorem lineFilled_of_miss {s : State} {i n line since : Nat} (waiter : (s.core i).lineWaiters line = [n])
    (mode : (s.ctx i n).mode = .waiting (.miss line since)) :
    s.lineFilled i line =
      (s.makeReady i n (s.cycOf i)).modCtx i n (fun x => { x with mode := .ready (Nat.max (s.cycOf i + 1) (since + 179)) }) := by
  simp only [State.lineFilled, waiter, List.foldl_cons, List.foldl_nil, mode]

/-- Settles O11: a miss at the present cycle is the untimed branch within the Cellar, a fill the branch whose line is read, and a
line with one waiter releases that one. -/
theorem cacheMissAndFill : Obligations.CacheMissAndFill :=
  ⟨fun _ _ _ phase mode absent untimed due inCellar => congrArg ok (icacheMiss_of_absent phase mode absent untimed due inCellar),
   fun _ _ _ _ request credit heard free read => congrArg ok (icacheFill_of_read request credit heard free read),
   fun _ _ _ _ _ waiter mode => lineFilled_of_miss waiter mode⟩

end Sys2Proof.Machine
end

section
/-! PROOFS.
Contexts and waits: slot instructions of an untagged bundle that issue with the effect of their meaning (spec 03 R88–R100,
12 R376). -/

namespace Sys2Proof.Machine

/-! ### A slot instruction of a bundle of its own -/

@[simp] theorem cause_eq_nil (c : Bool) (f : Nat) : cause c f = [] ↔ c = false := by cases c <;> simp [cause]

@[simp] theorem illegalIf_eq_nil (c : Bool) : illegalIf c = [] ↔ c = false := cause_eq_nil c _

theorem clears_iff (m : Sem) (b : BC) : clears m b = true ↔ m.judge b = [] ∧ m.judgeV b = [] ∧ m.stall b = false := by
  simp only [clears, Bool.and_eq_true, List.isEmpty_iff, Bool.not_eq_true', and_assoc]

/-- An instruction that means `m` on a core has the effect of `m` wherever its precondition keeps `m` from faulting and stalling,
and the bundle is untagged or its slot may be tagged (R319). -/
theorem coreSlot_of_clears {c : Iss → W32 → Instr} {sl : Slot} {m : Sem} {pre : State → Nat → Nat → W16 → W32 → Bool}
    {jump : State → Nat → Nat → W32 → Option (W32 × Nat)} {eff : State → Nat → Nat → W16 → W32 → State → State}
    (legal : ∀ s i n hdr op, pre s i n hdr op = true →
      (untagged hdr = true ∨ sl ≠ .x ∧ ∀ w, specClosed (c w op) = false) ∧ clears m ⟨s, i, n, sl, hdr, op⟩ = true)
    (meaning : ∀ w op, slotInstr (c w op) = some (w, op, m) := by intros; rfl)
    (issues : ∀ (s : State) (i : CoreIx) (n : CtxIx) (hdr : W16) (op : W32), exec (c (.slot i n sl hdr false) op) s =
      ok (s.issueSlot i n hdr false (c (.slot i n sl hdr false) op)) := by intros; rfl)
    (slot : m.slots.contains sl = true := by rfl)
    (branch : ∀ s i n hdr op, (if sl = .s0 then m.jump ⟨s, i, n, sl, hdr, op⟩ else none) = jump s i n op := by intros; rfl)
    (effect : ∀ s i n hdr op, m.eff ⟨s, i, n, sl, hdr, op⟩ = eff s i n hdr op := by intros; rfl) :
    CoreSlot c sl pre jump eff := by
  intro s i n hdr op ready hpre
  obtain ⟨tag, hclear⟩ := legal s i n hdr op hpre
  obtain ⟨noCause, noValueCause, noStall⟩ := (clears_iff _ _).mp hclear
  rw [issues, issueSlot_ready ready (meaning _ _) slot noCause noValueCause
    (tag.imp beq_iff_eq.mp fun ⟨notX, closed⟩ => ⟨.inl notX, closed _⟩) noStall, branch, effect]
  rfl

/-! ### Waits (R88–R94) -/

/-- The distance of R92, with the model's own registers and fields written out. -/
theorem waitAtDistance_eq (s : State) (i n : Nat) (sl : Slot) (hdr : W16) (op : W32) :
    waitAtDistance ⟨s, i, n, sl, hdr, op⟩ =
      signed 40 (wrap 40 (((srcVal (s.core i) n (fSrc1 op)).toNat % 2 ^ 40 : Nat) + (imm18 op).toInt -
        ((s.edgeCt i : Int) - (s.reg 0x200028).toNat))) := by
  rw [← fImm18_eq]; rfl

theorem semWaitAt_clears {s : State} {i n : Nat} {hdr : W16} {op : W32} (field : bits op 30 27 = 0)
    (source : srcOk (fSrc1 op) = true) (qualified : s.qualSeen i (s.edgeCt i) = true)
    (inTime : (bit op 31 && decide (waitAtDistance ⟨s, i, n, .x, hdr, op⟩ ≤ 0)) = false) :
    clears semWaitAt ⟨s, i, n, .x, hdr, op⟩ = true := by
  refine (clears_iff _ _).mpr ⟨?_, ?_, rfl⟩
  · simp [semWaitAt, field, source, qualified]
  · simp only [semWaitAt, cause_eq_nil, qualified, Bool.true_and]
    exact inTime

theorem semWaitQ_clears {s : State} {i n : Nat} {hdr : W16} {op : W32} (queue : bits op 31 27 ≤ 13)
    (tokens : 1 ≤ bits op 26 22) (atMost : bits op 26 22 ≤ 16) (field : bits op 21 0 = 0) :
    clears semWaitQ ⟨s, i, n, .x, hdr, op⟩ = true := by
  refine (clears_iff _ _).mpr ⟨?_, rfl, rfl⟩
  have nonzero : bits op 26 22 ≠ 0 := Nat.one_le_iff_ne_zero.mp tokens
  have noQueue : ¬ 13 < bits op 31 27 := Nat.not_lt.mpr queue
  have tooMany : ¬ 16 < bits op 26 22 := Nat.not_lt.mpr atMost
  simp [semWaitQ, fQsel, fQn, noQueue, nonzero, tooMany, field]

theorem semWaitF_clears {s : State} {i n : Nat} {hdr : W16} {op : W32} (field : bits op 30 6 = 0)
    (owned : bit ((s.core i).reg (offFlagown n)) (bits op 5 0) = true) :
    clears semWaitF ⟨s, i, n, .x, hdr, op⟩ = true := by
  refine (clears_iff _ _).mpr ⟨?_, rfl, rfl⟩
  simp [semWaitF, BC.k, field, owned]

theorem semWaitSb_clears {s : State} {i n : Nat} {hdr : W16} {op : W32} (field : bits op 30 27 = 0)
    (source : srcOk (fSrc1 op) = true) (low : bits op 17 16 = 0) :
    clears semWaitSb ⟨s, i, n, .x, hdr, op⟩ = true := by
  refine (clears_iff _ _).mpr ⟨?_, rfl, rfl⟩
  simp [semWaitSb, field, source, low]

/-- An unmet wait of a running context is the switch of R37, from the present cycle. -/
theorem waitFor_of_running {s : State} {i n : Nat} {w : Wait} (mode : (s.ctx i n).mode = .running)
    (phase : (s.core i).phase = .running n) :
    s.waitFor i n w = s.modCore i (fun k =>
      { k.modCtx n (fun x => { x with mode := .waiting w, after := none }) with
        phase := .switching n (s.cycOf i + 2), lastRun := n }) := by
  have phase' (f : Ctx → Ctx) : ((s.core i).modCtx n f).phase = .running n := phase
  simp only [State.waitFor, mode, State.deschedule, State.modCore, phase', if_true]

/-- Settles O47: each wait is the effect of its meaning, once its precondition is seen to exclude every fault. -/
theorem waitInstructions : Obligations.WaitInstructions := by
  refine ⟨?waitAt, ?waitQ, ?waitF, ?waitSb, ?switch⟩
  case waitAt =>
    simp only [← waitAtDistance_eq _ _ _ .x 0]
    refine coreSlot_of_clears (m := semWaitAt) fun s i n hdr op h => ?_
    simp only [Bool.and_eq_true, beq_iff_eq, Bool.not_eq_true'] at h
    obtain ⟨⟨⟨⟨tag, field⟩, source⟩, qualified⟩, inTime⟩ := h
    exact ⟨.inl tag, semWaitAt_clears field source qualified inTime⟩
  case waitQ =>
    refine coreSlot_of_clears (m := semWaitQ) fun s i n hdr op h => ?_
    simp only [Bool.and_eq_true, beq_iff_eq, decide_eq_true_eq] at h
    obtain ⟨⟨⟨⟨tag, queue⟩, nonzero⟩, atMost⟩, field⟩ := h
    exact ⟨.inl tag, semWaitQ_clears queue nonzero atMost field⟩
  case waitF =>
    refine coreSlot_of_clears (m := semWaitF) fun s i n hdr op h => ?_
    simp only [Bool.and_eq_true, beq_iff_eq] at h
    obtain ⟨⟨tag, field⟩, owned⟩ := h
    exact ⟨.inl tag, semWaitF_clears field owned⟩
  case waitSb =>
    refine coreSlot_of_clears (m := semWaitSb) fun s i n hdr op h => ?_
    simp only [Bool.and_eq_true, beq_iff_eq] at h
    obtain ⟨⟨⟨tag, field⟩, source⟩, low⟩ := h
    exact ⟨.inl tag, semWaitSb_clears field source low⟩
  case switch => exact fun _ _ _ _ mode phase => waitFor_of_running mode phase

/-! ### Task instructions and CMT.ARRIVE (R53, R54, R98, R100, R376) -/

theorem semTaskStart_clears {s : State} {i n : Nat} {hdr : W16} {op : W32} (high : bits op 31 29 = 0)
    (source : srcOk (fSrc1 op) = true) (low : bits op 17 0 = 0) (idle : (s.core i).holdsTask (bits op 28 27) = false)
    (other : bits op 28 27 ≠ n) : clears semTaskStart ⟨s, i, n, .s0, hdr, op⟩ = true := by
  refine (clears_iff _ _).mpr ⟨?_, rfl, rfl⟩
  simp [semTaskStart, fUimm18, fCmp, BC.k, high, source, low, idle, other]

theorem semCmtArrive_clears {s : State} {i n : Nat} {hdr : W16} {op : W32} (field : bits op 31 1 = 0)
    (once : (s.ctx i n).arrived = false) (noEntry : (s.core i).sb.any (fun e => e.ctx == n) = false)
    (noStream : (s.core i).streams.any (fun p => p.2.ctx == n) = false) (noTransfer : (s.core i).outstanding n = 0) :
    clears semCmtArrive ⟨s, i, n, .x, hdr, op⟩ = true := by
  have once' : ((s.core i).getCtx n).arrived = false := once
  refine (clears_iff _ _).mpr ⟨?_, rfl, ?_⟩
  · simp [semCmtArrive, BC.x, BC.k, field, once']
  · simp only [semCmtArrive, BC.k, noEntry, noStream, noTransfer]
    rfl

/-- Settles O48: each instruction is the effect of its meaning, once its precondition is seen to exclude every fault and, for
CMT.ARRIVE, the stall for outstanding work. -/
theorem taskInstructions : Obligations.TaskInstructions := by
  refine ⟨?taskStart, ?taskEnd, ?replayWait, ?cmtArrive⟩
  case taskStart =>
    refine coreSlot_of_clears (m := semTaskStart) fun s i n hdr op h => ?_
    simp only [Bool.and_eq_true, beq_iff_eq, bne_iff_ne, Bool.not_eq_true'] at h
    obtain ⟨⟨⟨⟨⟨tag, high⟩, source⟩, low⟩, idle⟩, other⟩ := h
    exact ⟨.inl tag, semTaskStart_clears high source low idle other⟩
  case taskEnd =>
    refine coreSlot_of_clears (m := semTaskEnd) fun s i n hdr op h => ?_
    simp only [Bool.and_eq_true, beq_iff_eq] at h
    exact ⟨.inl h.1, (clears_iff _ _).mpr ⟨by simp [semTaskEnd, h.2], rfl, rfl⟩⟩
  case replayWait =>
    refine coreSlot_of_clears (m := semReplayWait) fun s i n hdr op h => ?_
    simp only [Bool.and_eq_true, beq_iff_eq] at h
    exact ⟨.inl h.1, (clears_iff _ _).mpr ⟨by simp [semReplayWait, h.2], rfl, rfl⟩⟩
  case cmtArrive =>
    refine coreSlot_of_clears (m := semCmtArrive) fun s i n hdr op h => ?_
    simp only [Bool.and_eq_true, beq_iff_eq, Bool.not_eq_true'] at h
    obtain ⟨⟨⟨⟨⟨tag, field⟩, once⟩, noEntry⟩, noStream⟩, noTransfer⟩ := h
    exact ⟨.inl tag, semCmtArrive_clears field once noEntry noStream noTransfer⟩

end Sys2Proof.Machine
end

section
/-! PROOFS.
Adsiem bundles: the step, the slot words, what a bundle of one scalar instruction leaves unchanged, and the scalar and comparator
instructions in a core's bundle and on an Adsiem-S processor (spec 03 R74–R82). -/

namespace Sys2Proof.Machine

/-! ### The step and the slot words (R74, R76) -/

/-- A word whose upper byte is zero spells NOP in every slot, with its lower 32 bits as operands. -/
theorem decodeSlot_setWidth (i : CoreIx) (n : CtxIx) (sl : Slot) (hdr : W16) (more : Bool) (op : W32) :
    decodeSlot (.slot i n sl hdr more) (op.setWidth 40) = some (.nop (.slot i n sl hdr more) op) := by
  have opcode : ((op.setWidth 40).extractLsb' 32 8).toNat = 0 := by
    have := op.isLt
    simp only [BitVec.extractLsb'_toNat, BitVec.toNat_setWidth, Nat.shiftRight_eq_div_pow]
    omega
  have operands : (op.setWidth 40).extractLsb' 0 32 = op := by
    refine BitVec.eq_of_toNat_eq ?_
    have := op.isLt
    simp only [BitVec.extractLsb'_toNat, BitVec.toNat_setWidth, Nat.shiftRight_zero]
    omega
  simp only [decodeSlot, opcode, operands, if_true]

/-- Settles O1: the two branches of the step, the listed words by evaluation, and NOP from its zero opcode byte. -/
theorem stepRunsFrontCommand : Obligations.StepRunsFrontCommand := by
  refine ⟨?front, ?empty, ?words, decodeSlot_setWidth⟩
  case front => intro s c rest front; simp only [step, front]
  case empty => intro s empty; simp only [step, empty]
  case words => exact fun _ _ _ _ _ => ⟨rfl, rfl, rfl, rfl, rfl, rfl, rfl, rfl, rfl, rfl⟩

/-! ### What a bundle of one scalar instruction leaves unchanged -/

/-- Settles O2: the form of the state after the bundle gives every part of it. -/
theorem scalarInstructionFrame : Obligations.ScalarInstructionFrame :=
  ⟨fun s i n hdr jump rd v lat =>
     ⟨issued_writeReg_rd s i n hdr jump rd v lat, fun _ => issued_writeReg_other s i n hdr jump rd v lat,
      fun _ => issued_writeReg_ctx s i n hdr jump rd v lat, fun _ => issued_writeReg_core s i n hdr jump rd v lat⟩,
   fun s i n hdr jump rd v lat => issued_writeReg_own s i n hdr jump rd v lat,
   fun s i n hdr jump rd v lat => issued_writeReg_rest s i n hdr jump rd v lat⟩

/-! ### What an instruction means in a slot and on a processor -/

/-- The instruction `c` means `m` in a slot, whose bundle may be tagged (R319), and `p` on an Adsiem-S processor. -/
structure Means (c : Iss → W32 → Instr) (m : Sem) (p : PIn) : Prop where
  slot : ∀ w op, slotInstr (c w op) = some (w, op, m)
  taggable : ∀ w op, specClosed (c w op) = false
  issue : ∃ code, ∀ w op s, exec (c w op) s = ok (issueAt w (c w op) code p op s)

/-- A slot instruction whose only checks are those of its fields. -/
theorem clears_of_judge {m : Sem} {b : BC} (fields : m.judge b = []) (values : m.judgeV b = []) (goes : m.stall b = false) :
    clears m b = true := (clears_iff m b).mpr ⟨fields, values, goes⟩

/-- An instruction of any slot but X that clears under `pre` has the branch and the effect of its meaning, in a tagged bundle too. -/
theorem coreSlot_of_means {c : Iss → W32 → Instr} {m : Sem} {p : PIn} {sl : Slot} {pre : State → Nat → Nat → W16 → W32 → Bool}
    {jump : State → Nat → Nat → W32 → Option (W32 × Nat)} {eff : State → Nat → Nat → W16 → W32 → State → State}
    (means : Means c m p) (notX : sl ≠ .x) (slot : m.slots.contains sl = true)
    (clear : ∀ b : BC, pre b.s b.core b.ctx b.hdr b.op = true → clears m b = true)
    (branch : ∀ b : BC, (if sl = .s0 then m.jump b else none) = jump b.s b.core b.ctx b.op)
    (effect : ∀ b : BC, m.eff b = eff b.s b.core b.ctx b.hdr b.op) : CoreSlot c sl pre jump eff := by
  obtain ⟨code, issue⟩ := means.issue
  exact coreSlot_of_clears (m := m)
    (fun s i n hdr op h => ⟨.inr ⟨notX, fun w => means.taggable w op⟩, clear ⟨s, i, n, sl, hdr, op⟩ h⟩) means.slot
    (fun _ _ _ _ _ => issue _ _ _) slot (fun _ _ _ _ _ => branch _) (fun _ _ _ _ _ => effect _)

/-- A scalar instruction with legal fields has the effect of its meaning in either scalar slot. -/
theorem coreScalar_of_means {c : Iss → W32 → Instr} {m : Sem} {p : PIn} {legal : W32 → Bool}
    {eff : State → Nat → Nat → W32 → State → State} (means : Means c m p)
    (clear : ∀ b : BC, legal b.op = true → clears m b = true) (slots : m.slots = [.s0, .s1]) (noJump : m.jump = fun _ => none)
    (effect : ∀ b : BC, m.eff b = eff b.s b.core b.ctx b.op) : CoreScalar c legal eff := by
  intro s i n sl hdr op ready scalar
  have notX : sl ≠ .x := by rcases scalar with rfl | rfl <;> decide
  have slot : m.slots.contains sl = true := by rw [slots]; rcases scalar with rfl | rfl <;> rfl
  exact coreSlot_of_means (pre := fun _ _ _ _ op => legal op) (jump := fun _ _ _ _ => none) (eff := fun s i n _ op => eff s i n op)
    means notX slot clear (fun _ => by rw [noJump, ite_self]) effect s i n hdr op ready

/-- A processor instruction that makes no access: it raises no exception of one, waits for none and starts no load. -/
structure PIn.NoAccess (m : PIn) : Prop where
  noFault : m.fault = fun _ _ _ => none
  noStall : m.stall = fun _ _ _ => false
  noLoad : ∀ s p op, ((m.eff s p op).proc p).load = (s.proc p).load

section Processor
variable {c : Iss → W32 → Instr} {sem : Sem} {m : PIn}

/-- On a running processor, an instruction that makes no access completes with its effect and its branch. -/
theorem exec_of_noAccess {s after : State} {p : ProcIx} {op : W32} {named : List Nat} {jump : Option (W32 × Nat)}
    (means : Means c sem m) (noAccess : m.NoAccess) (running : (s.proc p).st = 1) (idle : (s.proc p).load = none)
    (legal : m.legal (s.proc p) op = true) (names : (m.reads op).filter (· < 32) ++ (m.dest op).toList = named)
    (noInterrupt : (s.procIssue p named).interrupts p = false) (effect : m.eff (s.procIssue p named) p op = after)
    (branch : m.jump (s.procIssue p named) p op = jump) :
    exec (c (.proc p) op) s = .next (after.procDone p (s.procIssue p named).rootNow jump) := by
  obtain ⟨code, issue⟩ := means.issue
  rw [issue, ← effect, ← branch]
  exact congrArg ok (procRun_ready running idle legal names noInterrupt (by rw [noAccess.noFault]) (by rw [noAccess.noStall])
    (by rw [noAccess.noLoad, State.procIssue_proc, idle]))

/-- A processor instruction that makes no access and takes no branch has the effect of its meaning. -/
theorem procScalar_of_means {legal : W32 → Bool} {named : W32 → List Nat} {eff : Nat → W32 → State → State}
    (means : Means c sem m) (noAccess : m.NoAccess) (fields : m.legal = fun _ => legal)
    (names : ∀ op, (m.reads op).filter (· < 32) ++ (m.dest op).toList = named op)
    (noJump : m.jump = fun _ _ _ => none) (effect : ∀ s p op, m.eff s p op = eff p op s) : ProcScalar c legal named eff := by
  intro s p op running idle noInterrupt hlegal
  exact exec_of_noAccess means noAccess running idle (by rw [fields]; exact hlegal) (names op) noInterrupt (effect _ _ _) (by rw [noJump])

end Processor

/-- Writing a register of a processor starts no load. -/
theorem State.load_procWrite (s : State) (p r lat : Nat) (v : W64) : ((s.procWrite p r lat v).proc p).load = (s.proc p).load := by
  rw [State.procWrite, State.proc_modProc]; rfl

/-! ### Register and immediate forms (R78–R80) -/

theorem rSem_clears {f : W64 → W64 → W64} {lat : Nat} {b : BC}
    (h : (srcOk (fSrc1 b.op) && srcOk (fSrc2 b.op) && fSrc3 b.op == 0) = true) : clears (rSem f lat) b = true :=
  clears_of_judge (by simpa [rSem, and_assoc] using h) rfl rfl

theorem iSem_clears {f : W64 → W64 → W64} {lat : Nat} {b : BC} (h : srcOk (fSrc1 b.op) = true) : clears (iSem f lat) b = true :=
  clears_of_judge (by simpa [iSem] using h) rfl rfl

theorem rdSem_clears {v : BC → W64} {b : BC} (h : (bits b.op 26 0 == 0) = true) : clears (rdSem v) b = true :=
  clears_of_judge (by simpa [rdSem] using h) rfl rfl

theorem pR_noAccess (f : W64 → W64 → W64) (lat : Nat) : (pR f lat).NoAccess :=
  ⟨rfl, rfl, fun _ _ _ => State.load_procWrite ..⟩

theorem pI_noAccess (f : W64 → W64 → W64) (lat : Nat) : (pI f lat).NoAccess :=
  ⟨rfl, rfl, fun _ _ _ => State.load_procWrite ..⟩

theorem pRd_noAccess (v : State → Nat → W64) : (pRd v).NoAccess :=
  ⟨rfl, rfl, fun _ _ _ => State.load_procWrite ..⟩

theorem runsR_of_means {c : Iss → W32 → Instr} {f : W64 → W64 → W64} {lat : Nat} (means : Means c (rSem f lat) (pR f lat)) :
    RunsR c f lat :=
  ⟨coreScalar_of_means means (fun _ => rSem_clears) rfl rfl fun _ => rfl,
   procScalar_of_means means (pR_noAccess f lat) rfl (fun _ => rfl) rfl fun _ _ _ => rfl⟩

theorem runsI_of_means {c : Iss → W32 → Instr} {f : W64 → W64 → W64} {lat : Nat} (means : Means c (iSem f lat) (pI f lat)) :
    RunsI c f lat :=
  ⟨coreScalar_of_means means (fun _ => iSem_clears) rfl rfl fun b => by rw [← fImm18_eq]; rfl,
   procScalar_of_means means (pI_noAccess f lat) rfl (fun _ => rfl) rfl fun _ _ _ => by rw [← fImm18_eq]; rfl⟩

/-- Settles O41: each register form is `rSem` and `pR` of its value. -/
theorem scalarRegisterForms : Obligations.ScalarRegisterForms := by
  refine ⟨runsR_of_means ?_, runsR_of_means ?_, runsR_of_means ?_, runsR_of_means ?_, runsR_of_means ?_, runsR_of_means ?_,
    runsR_of_means ?_, runsR_of_means ?_, runsR_of_means ?_, runsR_of_means ?_, runsR_of_means ?_, runsR_of_means ?_,
    runsR_of_means ?_, runsR_of_means ?_⟩ <;>
  exact ⟨fun _ _ => rfl, fun _ _ => rfl, _, fun _ _ _ => rfl⟩

theorem sLi_means : Means .sLi semSLi pLi := ⟨fun _ _ => rfl, fun _ _ => rfl, _, fun _ _ _ => rfl⟩
theorem sLix_means : Means .sLix semSLix pLix := ⟨fun _ _ => rfl, fun _ _ => rfl, _, fun _ _ _ => rfl⟩

/-- Settles O42: each immediate form is `iSem` and `pI` of its value; S.LI and S.LIX have meanings of their own, without a check. -/
theorem scalarImmediateForms : Obligations.ScalarImmediateForms := by
  refine ⟨runsI_of_means ?_, runsI_of_means ?_, runsI_of_means ?_, runsI_of_means ?_, runsI_of_means ?_, runsI_of_means ?_,
    runsI_of_means ?_, runsI_of_means ?_, ⟨?liCore, ?liProc⟩, ⟨?lixCore, ?lixProc⟩⟩
  case liCore =>
    exact coreScalar_of_means sLi_means (fun _ _ => clears_of_judge rfl rfl rfl) rfl rfl fun b => by rw [← fImm27_eq]; rfl
  case liProc =>
    exact procScalar_of_means sLi_means ⟨rfl, rfl, fun _ _ _ => State.load_procWrite ..⟩
      rfl (fun _ => rfl) rfl fun _ _ _ => by rw [← fImm27_eq]; rfl
  case lixCore => exact coreScalar_of_means sLix_means (fun _ _ => clears_of_judge rfl rfl rfl) rfl rfl fun _ => rfl
  case lixProc =>
    exact procScalar_of_means sLix_means ⟨rfl, rfl, fun _ _ _ => State.load_procWrite ..⟩
      rfl (fun _ => rfl) rfl fun _ _ _ => rfl
  all_goals exact ⟨fun _ _ => rfl, fun _ _ => rfl, _, fun _ _ _ => rfl⟩

/-! ### Reads of time, counters and status (R79, R81, R192) -/

theorem readsCore_of_means {c : Iss → W32 → Instr} {v : State → Nat → Nat → W64} {p : PIn}
    (means : Means c (rdSem fun b => v b.s b.core b.ctx) p) : ReadsCore c v :=
  coreScalar_of_means means (fun _ => rdSem_clears) rfl rfl fun _ => rfl

theorem readsProc_of_means {c : Iss → W32 → Instr} {sem : Sem} {v : State → Nat → W64}
    (means : Means c sem (pRd v)) : ReadsProc c v :=
  procScalar_of_means means (pRd_noAccess v) rfl (fun _ => rfl) rfl fun _ _ _ => rfl

theorem sRdct_means : Means .sRdct semSRdct pRdct := ⟨fun _ _ => rfl, fun _ _ => rfl, _, fun _ _ _ => rfl⟩
theorem sRdjt_means : Means .sRdjt semSRdjt pRdjt := ⟨fun _ _ => rfl, fun _ _ => rfl, _, fun _ _ _ => rfl⟩
theorem sRdcyc_means : Means .sRdcyc semSRdcyc pRdcyc := ⟨fun _ _ => rfl, fun _ _ => rfl, _, fun _ _ _ => rfl⟩
theorem sRdrep_means : Means .sRdrep semSRdrep pNone := ⟨fun _ _ => rfl, fun _ _ => rfl, _, fun _ _ _ => rfl⟩
theorem sRdns_means : Means .sRdns semSRdns pNone := ⟨fun _ _ => rfl, fun _ _ => rfl, _, fun _ _ _ => rfl⟩
theorem sRdctx_means : Means .sRdctx semSRdctx pNone := ⟨fun _ _ => rfl, fun _ _ => rfl, _, fun _ _ _ => rfl⟩
theorem sClrns_means : Means .sClrns semSClrns pNone := ⟨fun _ _ => rfl, fun _ _ => rfl, _, fun _ _ _ => rfl⟩

theorem semSClrns_clears {b : BC} (h : (fRd b.op == 0 && bits b.op 26 5 == 0) = true) : clears semSClrns b = true :=
  clears_of_judge (by simpa [semSClrns] using h) rfl rfl

/-- Settles O43: each read is `rdSem` of what it reads, and of the three that a processor has, `pRd` of the same; S.CLRNS has a
meaning of its own. -/
theorem scalarStateReads : Obligations.ScalarStateReads :=
  ⟨⟨readsCore_of_means sRdct_means, readsProc_of_means sRdct_means⟩,
   ⟨readsCore_of_means sRdjt_means, readsProc_of_means sRdjt_means⟩,
   ⟨readsCore_of_means sRdcyc_means, readsProc_of_means sRdcyc_means⟩, readsCore_of_means sRdrep_means,
   readsCore_of_means sRdns_means, readsCore_of_means sRdctx_means,
   coreScalar_of_means sClrns_means (fun _ => semSClrns_clears) rfl rfl fun _ => rfl⟩

/-! ### Comparators and NOP (R74, R82) -/

theorem nop_means : Means .nop semNop pNop := ⟨fun _ _ => rfl, fun _ _ => rfl, _, fun _ _ _ => rfl⟩
theorem cSet_means : Means .cSet semCSet pCSet := ⟨fun _ _ => rfl, fun _ _ => rfl, _, fun _ _ _ => rfl⟩
theorem cSeti_means : Means .cSeti semCSeti pCSeti := ⟨fun _ _ => rfl, fun _ _ => rfl, _, fun _ _ _ => rfl⟩
theorem cStep_means : Means .cStep semCStep pCStep := ⟨fun _ _ => rfl, fun _ _ => rfl, _, fun _ _ _ => rfl⟩
theorem cRd_means : Means .cRd semCRd pCRd := ⟨fun _ _ => rfl, fun _ _ => rfl, _, fun _ _ _ => rfl⟩

theorem semCSet_clears {b : BC}
    (h : (bits b.op 31 29 == 0 && srcOk (fSrc1 b.op) && srcOk (fSrc2 b.op) && bits b.op 8 3 == 0) = true) :
    clears semCSet b = true := clears_of_judge (by simpa [semCSet, and_assoc] using h) rfl rfl

theorem semCSeti_clears {b : BC} (h : srcOk (fSrc1 b.op) = true) : clears semCSeti b = true :=
  clears_of_judge (by simpa [semCSeti] using h) rfl rfl

theorem semCStep_clears {b : BC} (h : (bits b.op 31 29 == 0 && fSrc1 b.op == 48) = true) : clears semCStep b = true :=
  clears_of_judge (by simpa [semCStep] using h) rfl rfl

theorem semCRd_clears {b : BC} (h : (bits b.op 26 20 == 0 && fSrc2 b.op == 48 && fSrc3 b.op == 0) = true) :
    clears semCRd b = true := clears_of_judge (by simpa [semCRd, and_assoc] using h) rfl rfl

/-- NOP stands in every slot, of a tagged bundle too (R74, R319). -/
theorem exec_nop_slot {s : State} {i : CoreIx} {n : CtxIx} {hdr : W16} (ready : s.readyFor i n hdr = true) (sl : Slot) :
    exec (.nop (.slot i n sl hdr false) 0) s = .next (s.issued i n hdr none id) := by
  have issue : exec (.nop (.slot i n sl hdr false) 0) s = ok (s.issueSlot i n hdr false (.nop (.slot i n sl hdr false) 0)) := rfl
  rw [issue, issueSlot_ready ready (nop_means.slot _ _) (by cases sl <;> rfl) rfl rfl (.inr ⟨.inr rfl, rfl⟩) rfl]
  exact congrArg (fun jump => ok (s.issued i n hdr jump id)) (ite_self none)

/-- A comparator written on a processor starts no load. -/
theorem State.load_setCmp (s : State) (p n : Nat) (v : Proc → Cmp) :
    ((s.modProc p fun k => k.setCmp n (v k)).proc p).load = (s.proc p).load := by
  rw [State.proc_modProc]; rfl

/-- Settles O44: each comparator form is the effect of its meaning, once its fields are seen to raise no cause; NOP has no effect. -/
theorem comparatorInstructions : Obligations.ComparatorInstructions := by
  refine ⟨⟨?setCore, ?setProc⟩, ⟨?setiCore, ?setiProc⟩, ⟨?stepCore, ?stepProc⟩, ⟨?rdCore, ?rdProc⟩, ⟨?nopCore, ?nopProc⟩⟩
  case setCore => exact coreScalar_of_means cSet_means (fun _ => semCSet_clears) rfl rfl fun _ => rfl
  case setProc =>
    exact procScalar_of_means cSet_means ⟨rfl, rfl, fun _ _ _ => State.load_setCmp ..⟩
      rfl (fun _ => List.append_nil _) rfl fun _ _ _ => rfl
  case setiCore => exact coreScalar_of_means cSeti_means (fun _ => semCSeti_clears) rfl rfl fun b => by rw [← fImm18_eq]; rfl
  case setiProc =>
    exact procScalar_of_means cSeti_means ⟨rfl, rfl, fun _ _ _ => State.load_setCmp ..⟩
      rfl (fun _ => List.append_nil _) rfl fun _ _ _ => by rw [← fImm18_eq]; rfl
  case stepCore => exact coreScalar_of_means cStep_means (fun _ => semCStep_clears) rfl rfl fun b => by rw [← fImm18_eq]; rfl
  case stepProc =>
    exact procScalar_of_means cStep_means ⟨rfl, rfl, fun _ _ _ => State.load_setCmp ..⟩
      rfl (fun _ => rfl) rfl fun _ _ _ => by rw [← fImm18_eq]; rfl
  case rdCore => exact coreScalar_of_means cRd_means (fun _ => semCRd_clears) rfl rfl fun _ => rfl
  case rdProc =>
    exact procScalar_of_means cRd_means ⟨rfl, rfl, fun _ _ _ => State.load_procWrite ..⟩
      rfl (fun _ => rfl) rfl fun _ _ _ => rfl
  case nopCore => exact fun s i n sl hdr ready => exec_nop_slot ready sl
  case nopProc =>
    exact procScalar_of_means nop_means ⟨rfl, rfl, fun _ _ _ => rfl⟩
      rfl (fun _ => rfl) rfl fun _ _ _ => rfl

end Sys2Proof.Machine
end

section
/-! PROOFS.
Adsiem bundles: branches, loops and the instruction cache of a core, and branches, loops, loads and stores of an Adsiem-S processor
(spec 03 R83–R104, 19 R530, R541). -/

namespace Sys2Proof.Machine

/-! ### Branches and loops of a core (R83–R87, R643) -/

theorem br_means : Means .br semBr pBr := ⟨fun _ _ => rfl, fun _ _ => rfl, _, fun _ _ _ => rfl⟩
theorem brC_means : Means .brC semBrC pBrC := ⟨fun _ _ => rfl, fun _ _ => rfl, _, fun _ _ _ => rfl⟩
theorem brNc_means : Means .brNc semBrNc pBrNc := ⟨fun _ _ => rfl, fun _ _ => rfl, _, fun _ _ _ => rfl⟩
theorem brR_means : Means .brR semBrR pBrR := ⟨fun _ _ => rfl, fun _ _ => rfl, _, fun _ _ _ => rfl⟩
theorem call_means : Means .call semCall pCall := ⟨fun _ _ => rfl, fun _ _ => rfl, _, fun _ _ _ => rfl⟩
theorem loop_means : Means .loop semLoop pLoop := ⟨fun _ _ => rfl, fun _ _ => rfl, _, fun _ _ _ => rfl⟩

theorem relTarget_eq (b : BC) : relTarget b = (b.s.ctx b.core b.ctx).pc + (imm18 b.op).setWidth 32 := by
  rw [← fImm18_eq]; rfl

theorem semBr_clears {b : BC} (h : (fRd b.op == 0 && fSrc1 b.op == 0) = true) : clears semBr b = true :=
  clears_of_judge (by simpa [semBr] using h) rfl rfl

theorem semBrC_clears {b : BC} (h : (bits b.op 31 29 == 0 && fSrc1 b.op == 0) = true) : clears semBrC b = true :=
  clears_of_judge (by simpa [semBrC] using h) rfl rfl

theorem semBrNc_clears {b : BC} (h : (bits b.op 31 29 == 0 && fSrc1 b.op == 0) = true) : clears semBrNc b = true :=
  clears_of_judge (by simpa [semBrNc] using h) rfl rfl

theorem semBrR_clears {b : BC} (h : (fRd b.op == 0 && srcOk (fSrc1 b.op) && fSrc2 b.op == 48 && fSrc3 b.op == 0) = true) :
    clears semBrR b = true := clears_of_judge (by simpa [semBrR, and_assoc] using h) rfl rfl

theorem semCall_clears {b : BC} (h : (fRd b.op == 0 && fSrc1 b.op == 0) = true) : clears semCall b = true :=
  clears_of_judge (by simpa [semCall] using h) rfl rfl

/-- Settles O45: each branch is the jump of its meaning, to the target that `relTarget` names. -/
theorem branches : Obligations.Branches := by
  refine ⟨?br, ?brC, ?brNc, ?brR, ?call⟩
  case br =>
    exact coreSlot_of_means br_means (by decide) rfl (fun _ => semBr_clears) (fun _ => by rw [← relTarget_eq]; rfl) fun _ => rfl
  case brC =>
    exact coreSlot_of_means brC_means (by decide) rfl (fun _ => semBrC_clears) (fun _ => by rw [← relTarget_eq]; rfl) fun _ => rfl
  case brNc =>
    exact coreSlot_of_means brNc_means (by decide) rfl (fun _ => semBrNc_clears) (fun _ => by rw [← relTarget_eq]; rfl) fun _ => rfl
  case brR => exact coreSlot_of_means brR_means (by decide) rfl (fun _ => semBrR_clears) (fun _ => rfl) fun _ => rfl
  case call =>
    exact coreSlot_of_means call_means (by decide) rfl (fun _ => semCall_clears) (fun _ => by rw [← relTarget_eq]; rfl) fun _ => rfl

theorem semLoop_clears {b : BC} (reserved : bits b.op 31 30 = 0) (source : srcOk (fSrc1 b.op) = true) (body : bits b.op 17 0 ≠ 0)
    (atMost : bits b.op 17 0 ≤ 131071) (alone : loopNest b.x (fLoop b.op) (loopEnd b) = false) : clears semLoop b = true :=
  clears_of_judge (by simp [semLoop, fUimm18, reserved, source, body, Nat.not_lt.mpr atMost, alone]) rfl rfl

/-- The end action of a loop: the last pass clears the counter and goes on, every other counts down and goes back. -/
theorem Ctx.follow_of_loopAt {x : Ctx} {j : Nat} (ends : x.loopAt x.pc = some j) :
    x.follow x.pc none =
      if x.creg j = 1 then { x.setCreg j 0 with pc := x.pc + 1 }
      else { x.setCreg j (x.creg j - 1) with pc := (Tab.get ⟨0, 0⟩ x.loops j).start } := by
  simp only [Ctx.follow, ends]

/-- Settles O46: LOOP is the jump and the effect of its meaning, once its fields and the nesting are seen to raise no cause. -/
theorem hardwareLoop : Obligations.HardwareLoop := by
  refine ⟨coreSlot_of_means loop_means (by decide) rfl (fun b h => ?_) (fun _ => rfl) fun _ => rfl, fun _ _ => Ctx.follow_of_loopAt⟩
  simp only [Bool.and_eq_true, beq_iff_eq, bne_iff_ne, decide_eq_true_eq, Bool.not_eq_true'] at h
  obtain ⟨⟨⟨⟨reserved, source⟩, body⟩, atMost⟩, alone⟩ := h
  exact semLoop_clears reserved source body atMost alone

/-! ### The instruction cache (R63, R65, R99) -/

/-- The checks of an ICACHE instruction on its fields pass (R99). -/
theorem icJudge_of_legal {b : BC} (h : (untagged b.hdr && fRd b.op == 0 && srcOk (fSrc1 b.op) && bits b.op 17 0 != 0 &&
    decide (bits b.op 17 0 ≤ 1024)) = true) : untagged b.hdr = true ∧ icJudge b = [] := by
  simp only [Bool.and_eq_true, beq_iff_eq, bne_iff_ne, decide_eq_true_eq] at h
  obtain ⟨⟨⟨⟨tag, noDest⟩, source⟩, lines⟩, atMost⟩ := h
  exact ⟨tag, by simp [icJudge, fUimm18, noDest, source, lines, Nat.not_lt.mpr atMost]⟩

/-- The last line named lies in the Cellar (R99). -/
theorem icBeyond_of_inCellar {b : BC}
    (inCellar : b.k.lineRow (b.a.toNat % 2 ^ 32 / 8 + bits b.op 17 0 - 1) ≤ lastCellarRow) : icBeyond b = [] :=
  (illegalIf_eq_nil _).mpr (decide_eq_false (Nat.not_lt.mpr inCellar))

/-- Settles O49: each instruction is the effect of its meaning, once its fields and, for PRELOAD and LOCK, its last line are seen to
raise no cause. -/
theorem cacheInstructions : Obligations.CacheInstructions := by
  refine ⟨?preload, ?lock, ?unlock⟩
  case preload =>
    refine coreSlot_of_clears (m := semIcachePreload) fun s i n hdr op h => ?_
    obtain ⟨fields, inCellar⟩ := Bool.and_eq_true_iff.mp h
    obtain ⟨tag, judged⟩ := icJudge_of_legal (b := ⟨s, i, n, .s0, hdr, op⟩) fields
    exact ⟨.inl tag, clears_of_judge judged (icBeyond_of_inCellar (of_decide_eq_true inCellar)) rfl⟩
  case lock =>
    refine coreSlot_of_clears (m := semIcacheLock) fun s i n hdr op h => ?_
    obtain ⟨fields, inCellar⟩ := Bool.and_eq_true_iff.mp h
    obtain ⟨tag, judged⟩ := icJudge_of_legal (b := ⟨s, i, n, .s0, hdr, op⟩) fields
    exact ⟨.inl tag, clears_of_judge judged (icBeyond_of_inCellar (of_decide_eq_true inCellar)) rfl⟩
  case unlock =>
    refine coreSlot_of_clears (m := semIcacheUnlock) fun s i n hdr op h => ?_
    obtain ⟨tag, judged⟩ := icJudge_of_legal (b := ⟨s, i, n, .s0, hdr, op⟩) h
    exact ⟨.inl tag, clears_of_judge judged rfl rfl⟩

/-! ### Branches and LOOP on a processor (R83, R84, R101–R104) -/

/-- The target of a relative branch in the state in which it issues. -/
theorem State.procTarget_procIssue (s : State) (p : Nat) (named : List Nat) (op : W32) :
    (s.procIssue p named).procTarget p op = (s.proc p).pc + (imm18 op).setWidth 32 := by
  rw [← fImm18_eq, State.procTarget, State.procIssue_proc]

theorem pLoop_noAccess : pLoop.NoAccess := ⟨rfl, rfl, fun _ _ _ => by rw [pLoop, State.proc_modProc]⟩

/-- Settles O57: none of the six makes an access, so each completes with its effect and its branch. -/
theorem processorBranches : Obligations.ProcessorBranches := by
  refine ⟨?br, ?brC, ?brNc, ?brR, ?call, ?loop⟩
  case br =>
    intro s p op running idle fields t noInterrupt
    exact exec_of_noAccess br_means ⟨rfl, rfl, fun _ _ _ => rfl⟩ running idle (by simpa [pBr] using fields) rfl noInterrupt rfl
      (by simp only [pBr, State.procTarget_procIssue])
  case brC =>
    intro s p op running idle fields t noInterrupt
    exact exec_of_noAccess brC_means ⟨rfl, rfl, fun _ _ _ => rfl⟩ running idle (by simpa [pBrC] using fields) rfl noInterrupt rfl
      (by simp only [pBrC, fCmp, State.procIssue_proc, State.procTarget_procIssue])
  case brNc =>
    intro s p op running idle fields t noInterrupt
    exact exec_of_noAccess brNc_means ⟨rfl, rfl, fun _ _ _ => rfl⟩ running idle (by simpa [pBrNc] using fields) rfl noInterrupt rfl
      (by simp only [pBrNc, fCmp, State.procIssue_proc, State.procTarget_procIssue])
  case brR =>
    intro s p op running idle fields t noInterrupt
    exact exec_of_noAccess brR_means ⟨rfl, rfl, fun _ _ _ => rfl⟩ running idle (by simpa [pBrR, and_assoc] using fields)
      (List.append_nil _) noInterrupt rfl (by simp only [pBrR, State.procIssue_proc])
  case call =>
    intro s p op running idle fields t noInterrupt
    exact exec_of_noAccess call_means ⟨rfl, rfl, fun _ _ _ => State.load_procWrite ..⟩ running idle (by simpa [pCall] using fields)
      rfl noInterrupt (by simp only [pCall, State.procIssue_proc, t]) (by simp only [pCall, State.procTarget_procIssue])
  case loop =>
    intro s p op running idle ⟨reserved, source, body, atMost, alone⟩ t noInterrupt
    exact exec_of_noAccess loop_means pLoop_noAccess running idle
      (by
        simp only [pLoop, Bool.and_eq_true, beq_iff_eq, bne_iff_ne, decide_eq_true_eq, Bool.not_eq_true']
        exact ⟨⟨⟨⟨reserved, source⟩, body⟩, atMost⟩, alone⟩) (List.append_nil _) noInterrupt rfl
      (by simp only [pLoop, Proc.bodyEnd, fUimm18, State.procIssue_proc])

/-! ### Loads and stores of a processor (R103, R104, R530, R541) -/

theorem sLd8_means : Means .sLd8 semAbsent (pLoad 1) := ⟨fun _ _ => rfl, fun _ _ => rfl, _, fun _ _ _ => rfl⟩
theorem sLd16_means : Means .sLd16 semAbsent (pLoad 2) := ⟨fun _ _ => rfl, fun _ _ => rfl, _, fun _ _ _ => rfl⟩
theorem sLd32_means : Means .sLd32 semAbsent (pLoad 4) := ⟨fun _ _ => rfl, fun _ _ => rfl, _, fun _ _ _ => rfl⟩
theorem sLd64_means : Means .sLd64 semAbsent (pLoad 8) := ⟨fun _ _ => rfl, fun _ _ => rfl, _, fun _ _ _ => rfl⟩
theorem sSt8_means : Means .sSt8 semAbsent (pStore 1) := ⟨fun _ _ => rfl, fun _ _ => rfl, _, fun _ _ _ => rfl⟩
theorem sSt16_means : Means .sSt16 semAbsent (pStore 2) := ⟨fun _ _ => rfl, fun _ _ => rfl, _, fun _ _ _ => rfl⟩
theorem sSt32_means : Means .sSt32 semAbsent (pStore 4) := ⟨fun _ _ => rfl, fun _ _ => rfl, _, fun _ _ _ => rfl⟩
theorem sSt64_means : Means .sSt64 semAbsent (pStore 8) := ⟨fun _ _ => rfl, fun _ _ => rfl, _, fun _ _ _ => rfl⟩

theorem Proc.dataAddr_eq (k : Proc) (op : W32) : k.dataAddr op = k.a op + imm18 op := by rw [← fImm18_eq]; rfl

theorem accessStall_of_room {s : State} {p : Nat} {op : W32} (room : s.busRoom (procInput p) = true) :
    (bit ((s.proc p).dataAddr op) 63 && !s.busRoom (procInput p)) = false := by
  simp [room]

section Access
variable {s : State} {p n : Nat} {op : W32} {a : W64} (addr : (s.proc p).dataAddr op = a)
include addr

theorem pLoad_eff_of_sram (sram : bit a 63 = false) : (pLoad n).eff s p op =
    s.procWrite p (fRd op) 2 (BitVec.ofNat 64 ((s.proc p).portRead false (s.procCycle p) a.toNat n)) := by
  simp [pLoad, addr, sram]

theorem pLoad_eff_of_service (service : bit a 63 = true) : (pLoad n).eff s p op =
    (s.modProc p (fun k => { k with load := some (fRd op, n, a) })).busPush (procInput p)
      ⟨false, bits a 47 0, n, 0, .load p (s.proc p).epoch⟩ := by
  simp [pLoad, addr, service]

theorem pStore_eff_of_sram (sram : bit a 63 = false) : (pStore n).eff s p op =
    s.modProc p (fun k => k.portWrite false (s.procCycle p) a.toNat n (((s.proc p).sreg (fRd op)).toNat % 2 ^ (8 * n))) := by
  simp [pStore, addr, sram]

theorem pStore_eff_of_service (service : bit a 63 = true) : (pStore n).eff s p op =
    s.busPush (procInput p)
      ⟨true, bits a 47 0, n, ((s.proc p).sreg (fRd op)).toNat % 2 ^ (8 * n), .store p (s.proc p).epoch⟩ := by
  simp [pStore, addr, service]

theorem accessStall_of_sram (sram : bit a 63 = false) : (bit ((s.proc p).dataAddr op) 63 && !s.busRoom (procInput p)) = false := by
  simp [addr, sram]

theorem accessFault_of_sram (aligned : a.toNat % n = 0) (sram : bit a 63 = false) (inside : bits a 62 0 < sramSize p) :
    accessFault p n ((s.proc p).dataAddr op) = none := by simp [accessFault, addr, aligned, sram, inside]

theorem accessFault_of_service (aligned : a.toNat % n = 0) (service : bit a 63 = true) (high : bits a 62 48 = 0) :
    accessFault p n ((s.proc p).dataAddr op) = none := by simp [accessFault, addr, aligned, service, high]

end Access

/-- A load, whose registers are written by the state in which it issues: from the SRAM it completes, from the service space its read is
pushed and the processor waits. -/
theorem exec_load {c : Iss → W32 → Instr} {sem : Sem} {n : Nat} (means : Means c sem (pLoad n))
    (s : State) (p : ProcIx) (op : W32) (running : (s.proc p).st = 1) (idle : (s.proc p).load = none)
    (source : srcOkP (fSrc1 op) = true) :
    let a := (s.proc p).a op + imm18 op
    let t := s.procIssue p ([fSrc1 op].filter (· < 32) ++ [fRd op])
    t.interrupts p = false →
    a.toNat % n = 0 →
    (bit a 63 = false → bits a 62 0 < sramSize p → exec (c (.proc p) op) s =
      .next ((t.procWrite p (fRd op) 2
        (BitVec.ofNat 64 ((s.proc p).portRead false (t.procCycle p) a.toNat n))).procDone p t.rootNow none)) ∧
    (bit a 63 = true → bits a 62 48 = 0 → t.busRoom (procInput p) = true → exec (c (.proc p) op) s =
      .next ((t.modProc p (fun k => { k with load := some (fRd op, n, a) })).busPush (procInput p)
        ⟨false, bits a 47 0, n, 0, .load p (s.proc p).epoch⟩)) := by
  intro a t noInterrupt aligned
  have same : t.proc p = s.proc p := State.procIssue_proc s p _ p
  have addr : (t.proc p).dataAddr op = a := by rw [same, Proc.dataAddr_eq]
  have names : ((pLoad n).reads op).filter (· < 32) ++ ((pLoad n).dest op).toList = [fSrc1 op].filter (· < 32) ++ [fRd op] := rfl
  obtain ⟨code, issue⟩ := means.issue
  rw [issue]
  refine ⟨fun sram inside => congrArg ok ?sram, fun service high room => congrArg ok ?service⟩
  case sram =>
    have effect := pLoad_eff_of_sram (n := n) addr sram
    refine (procRun_ready running idle source names noInterrupt (accessFault_of_sram addr aligned sram inside)
      (accessStall_of_sram addr sram) (by rw [effect, State.load_procWrite, same, idle])).trans ?_
    rw [effect, same]; rfl
  case service =>
    have effect := pLoad_eff_of_service (n := n) addr service
    refine (procRun_load running idle source names noInterrupt (accessFault_of_service addr aligned service high)
      (accessStall_of_room room) (by rw [effect, State.proc_busPush, State.proc_modProc]; rfl)).trans ?_
    rw [effect, same]

/-- A store, whose registers are written by the state in which it issues: to the SRAM it writes, to the service space its write is
pushed; either way it completes. -/
theorem exec_store {c : Iss → W32 → Instr} {sem : Sem} {n : Nat} (means : Means c sem (pStore n))
    (s : State) (p : ProcIx) (op : W32) (running : (s.proc p).st = 1) (idle : (s.proc p).load = none)
    (source : srcOkP (fSrc1 op) = true) :
    let a := (s.proc p).a op + imm18 op
    let t := s.procIssue p ([fSrc1 op, fRd op].filter (· < 32))
    t.interrupts p = false →
    a.toNat % n = 0 →
    (bit a 63 = false → bits a 62 0 < sramSize p → exec (c (.proc p) op) s =
      .next ((t.modProc p (fun k => k.portWrite false (t.procCycle p) a.toNat n
        (((s.proc p).sreg (fRd op)).toNat % 2 ^ (8 * n)))).procDone p t.rootNow none)) ∧
    (bit a 63 = true → bits a 62 48 = 0 → t.busRoom (procInput p) = true → exec (c (.proc p) op) s =
      .next ((t.busPush (procInput p) ⟨true, bits a 47 0, n, ((s.proc p).sreg (fRd op)).toNat % 2 ^ (8 * n),
        .store p (s.proc p).epoch⟩).procDone p t.rootNow none)) := by
  intro a t noInterrupt aligned
  have same : t.proc p = s.proc p := State.procIssue_proc s p _ p
  have addr : (t.proc p).dataAddr op = a := by rw [same, Proc.dataAddr_eq]
  obtain ⟨code, issue⟩ := means.issue
  rw [issue]
  refine ⟨fun sram inside => congrArg ok ?sram, fun service high room => congrArg ok ?service⟩
  case sram =>
    have effect := pStore_eff_of_sram (n := n) addr sram
    refine (procRun_ready running idle source (List.append_nil _) noInterrupt (accessFault_of_sram addr aligned sram inside)
      (accessStall_of_sram addr sram) (by rw [effect, State.proc_modProc, Proc.portWrite_load, same, idle])).trans ?_
    rw [effect, same]; rfl
  case service =>
    have effect := pStore_eff_of_service (n := n) addr service
    refine (procRun_ready running idle source (List.append_nil _) noInterrupt (accessFault_of_service addr aligned service high)
      (accessStall_of_room room) (by rw [effect, State.proc_busPush, same, idle])).trans ?_
    rw [effect, same]; rfl

/-- Settles O58: the loads are `pLoad` and the stores `pStore` of their widths. -/
theorem processorMemory : Obligations.ProcessorMemory :=
  ⟨exec_load sLd8_means, exec_store sSt8_means, exec_load sLd16_means, exec_store sSt16_means,
   exec_load sLd32_means, exec_store sSt32_means, exec_load sLd64_means, exec_store sSt64_means⟩

end Sys2Proof.Machine
end

section
/-! PROOFS.
The matrix arrays: the instructions of slot M that form, mask, use and dissolve a gang, and the cycles of a pass from its first
accumulate cycle to the last column of its drain (spec 04 R106–R141). -/

namespace Sys2Proof.Machine

/-! ### The gang instructions (R107–R110, R120, R121, R141) -/

/-- An instruction of any slot but X takes no branch and has the effect of its meaning wherever that raises no cause and does not
stall, in a tagged bundle too. -/
theorem coreSlot_of_means_clears {c : Iss → W32 → Instr} {m : Sem} {p : PIn} {sl : Slot}
    {eff : State → Nat → Nat → W16 → W32 → State → State} (means : Means c m p) (notX : sl ≠ .x)
    (slot : m.slots.contains sl = true) (noJump : m.jump = fun _ => none)
    (effect : ∀ s i n hdr op, m.eff ⟨s, i, n, sl, hdr, op⟩ = eff s i n hdr op) :
    CoreSlot c sl (fun s i n hdr op => clears m ⟨s, i, n, sl, hdr, op⟩) (fun _ _ _ _ => none) eff := by
  obtain ⟨code, issue⟩ := means.issue
  exact coreSlot_of_clears (m := m) (fun _ _ _ _ _ clear => ⟨.inr ⟨notX, fun w => means.taggable w _⟩, clear⟩) means.slot
    (fun _ _ _ _ _ => issue _ _ _) slot (fun _ _ _ _ _ => by rw [noJump, ite_self]) effect

theorem mGang_means : Means .mGang semMGang pNone := ⟨fun _ _ => rfl, fun _ _ => rfl, _, fun _ _ _ => rfl⟩
theorem mMask_means : Means .mMask semMMask pNone := ⟨fun _ _ => rfl, fun _ _ => rfl, _, fun _ _ _ => rfl⟩
theorem mPass_means : Means .mPass semMPass pNone := ⟨fun _ _ => rfl, fun _ _ => rfl, _, fun _ _ _ => rfl⟩
theorem mPassr_means : Means .mPassr semMPassr pNone := ⟨fun _ _ => rfl, fun _ _ => rfl, _, fun _ _ _ => rfl⟩
theorem mFree_means : Means .mFree semMFree pNone := ⟨fun _ _ => rfl, fun _ _ => rfl, _, fun _ _ _ => rfl⟩

/-- Settles O50: each of the five has the effect of its meaning; M.PASSR's is that of M.PASS with the word its source holds. -/
theorem matrixInstructions : Obligations.MatrixInstructions :=
  ⟨coreSlot_of_means_clears mGang_means (by decide) rfl rfl fun _ _ _ _ _ => rfl,
   coreSlot_of_means_clears mMask_means (by decide) rfl rfl fun _ _ _ _ _ => rfl,
   coreSlot_of_means_clears mPass_means (by decide) rfl rfl fun _ _ _ _ _ => rfl,
   coreSlot_of_means_clears mPassr_means (by decide) rfl rfl fun _ _ _ _ _ => rfl,
   coreSlot_of_means_clears mFree_means (by decide) rfl rfl fun _ _ _ _ _ => rfl⟩

/-! ### The commands of a pass (R118, R121) -/

section Commands
variable {s : State} {i b : Nat} {g : Gang} {p : Pass} (gang : (s.core i).gang b = some g)
include gang

theorem passStart_of_pend (pend : g.pend = some p) : passStart s i b = s.toCyc i (g.startCycle p) := by
  simp only [passStart, gang, pend]

theorem passDrain_of_drn {d : Drain} {l : List Drain} (drn : g.drn = d :: l) :
    passDrain s i b = s.through i (d.swap + 2 + 32 * (shapeRC g.shape).2) := by
  simp only [passDrain, gang, drn]

variable (acc : g.acc = some p)
include acc

theorem passBlock_of_acc (goes : p.done < g.cycles p) :
    passBlock s i b = s.toCyc i (Nat.max p.first (s.cycOf i) + g.blockLeft p) := by
  simp only [passBlock, gang, acc, if_neg (Nat.not_le.mpr goes)]

theorem passResume_of_hold (holds : p.hold = true) : passResume s i b = s.toCyc i (s.cycOf i + 1) := by
  simp only [passResume, gang, acc, holds, if_true]

theorem passSwap_of_acc : passSwap s i b = s.through i (g.swapCycle p) := by
  simp only [passSwap, gang, acc]

end Commands

/-! ### A cycle of the accumulating pass (R105, R118, R119, R129–R135) -/

theorem Gang.start_of_pend {g : Gang} {p : Pass} (pend : g.pend = some p) (free : g.acc = none) (c : Nat) :
    g.start c = if p.issued + 3 ≤ c then { g with pend := none, acc := some { p with first := c } } else g := by
  simp only [Gang.start, pend, free]

/-- What the next accumulate cycle of pass `p` needs of an operand of format `f` with `32 * side` elements per step. -/
def Gang.nextNeed (g : Gang) (p : Pass) (f : Fmt) (side : Nat) : CycleNeed :=
  cycleNeed (32 * side) f p.k (stepsIn g.fmtA g.fmtB p.done).1 (stepsIn g.fmtA g.fmtB p.done).2 (stepsBy g.fmtA g.fmtB (p.done + 1))

section Accumulating
variable {s : State} {i b c : Nat} {g : Gang} {p : Pass} {fa fb : Fmt} {lA lB : Look} (gang : (s.core i).gang b = some g)
  (started : g.start c = g) (acc : g.acc = some p) (fmtA : fmtOf g.fmtA = some fa) (fmtB : fmtOf g.fmtB = some fb)
  (goes : p.done < g.cycles p)
  (lookA : lookNeed ((s.modCore i fun k => k.setGang b g).core i) p.qa p.tag c p.popA p.hold
    (g.nextNeed p fa (shapeRC g.shape).1) = lA)
  (lookB : lookNeed ((s.modCore i fun k => k.setGang b g).core i) p.qb p.tag c p.popB p.hold
    (g.nextNeed p fb (shapeRC g.shape).2) = lB)
include gang started acc fmtA fmtB goes lookA lookB

/-- With the rows of both queues at hand the pass takes its step. -/
theorem passCycle_of_here {rA rB : List QRow} (hereA : lA = .here rA) (hereB : lB = .here rB) :
    passCycle s i b c = (s.modCore i fun k => k.setGang b g).modCore i fun k =>
      passStep k b g p fa fb (g.nextNeed p fa (shapeRC g.shape).1) (g.nextNeed p fb (shapeRC g.shape).2) rA rB := by
  subst hereA hereB
  simp only [Gang.nextNeed] at lookA lookB
  simp only [passCycle, gang, started, acc, fmtA, fmtB, if_neg (Nat.not_le.mpr goes), lookA, lookB, Gang.nextNeed]

/-- With a row of a tag it may not use in either queue the pass is dropped and its context faults (R119). -/
theorem passCycle_of_leak (leak : lA = .leak ∨ lB = .leak) :
    passCycle s i b c =
      ((s.modCore i fun k => k.setGang b g).modCore i fun k => passDrop k b g p).faultAsync i g.ctx fSPECLEAK 3 := by
  simp only [Gang.nextNeed] at lookA lookB
  simp only [passCycle, gang, started, acc, fmtA, fmtB, if_neg (Nat.not_le.mpr goes), lookA, lookB]
  rcases leak with rfl | rfl
  · rfl
  · cases lA <;> rfl

/-- With a row missing, and none of a tag it may not use, the cycle is a hold. -/
theorem passCycle_of_lack (noLeakA : lA ≠ .leak) (noLeakB : lB ≠ .leak) (lack : lA = .lack ∨ lB = .lack) :
    passCycle s i b c = ((s.modCore i fun k => k.setGang b g).count48 i 0x408 1).modCore i fun k =>
      k.setGang b { g with acc := some { p with hold := true, holds := p.holds + 1 } } := by
  simp only [Gang.nextNeed] at lookA lookB
  simp only [passCycle, gang, started, acc, fmtA, fmtB, if_neg (Nat.not_le.mpr goes), lookA, lookB]
  rcases lack with rfl | rfl
  · cases lB with
    | here _ | lack => rfl
    | leak => contradiction
  · cases lA with
    | here _ | lack => rfl
    | leak => contradiction

end Accumulating

/-- A row enters at the end of its cycle; a unit that holds sees it one cycle later (R118). -/
theorem QRow.here_iff (r : QRow) (hold : Bool) (c : Nat) : r.here hold c = true ↔ r.at_ + hold.toNat + 1 ≤ c := by
  simp only [QRow.here, decide_eq_true_eq, Nat.succ_le_iff]

/-! ### The swap and the drain (R106, R121, R122, R136, R137) -/

theorem Gang.swapAt_of_acc {g : Gang} {p : Pass} (acc : g.acc = some p) (c : Nat) :
    g.swapAt c =
      if g.cycles p ≤ p.done ∧ (match g.swap with | some x => x + 32 * (shapeRC g.shape).2 | none => 0) ≤ c
      then { g with acc := none, drn := g.drn ++ [⟨p, c, g.live⟩], live := [], swap := some c } else g := by
  simp only [Gang.swapAt, acc] <;> rfl

section Drain
variable {s : State} {i b c : Nat} {g : Gang} {d : Drain} {path : Path} (gang : (s.core i).gang b = some g)
  (formats : pairing g.fmtA g.fmtB = some path) (written : d.swap + 3 ≤ c)
include gang formats written

/-- A cycle before the last writes its column and keeps the drain, with the flags so far. -/
theorem drainCycle_of_before (before : c < d.swap + 2 + 32 * (shapeRC g.shape).2) :
    let r := drainColumn (s.core i) g d path (c - d.swap - 3)
    drainCycle i b c s d = s.setCore i (r.1.setGang b { g with drn := g.drn.map fun x =>
      if x.swap = d.swap then { d with pass := { d.pass with flags := d.pass.flags ||| r.2 } } else x }) := by
  have more : c + 1 < d.swap + 3 + 32 * (shapeRC g.shape).2 := by omega
  simp only [drainCycle, gang, formats, if_neg (Nat.not_lt.mpr written), if_pos more]

/-- The last cycle writes its column and ends the drain: its entry frees, its flags enter and the pass counts. -/
theorem drainCycle_of_last (last : ¬ c < d.swap + 2 + 32 * (shapeRC g.shape).2) :
    let r := drainColumn (s.core i) g d path (c - d.swap - 3)
    drainCycle i b c s d =
      ((s.setCore i ((r.1.freeSb d.pass.entry).setGang b { g with drn := g.drn.filter fun x => x.swap ≠ d.swap })).raiseFlags i
        g.ctx d.pass.tag (d.pass.flags ||| r.2)).count48 i 0x410 1 := by
  have noMore : ¬ c + 1 < d.swap + 3 + 32 * (shapeRC g.shape).2 := by omega
  simp only [drainCycle, gang, formats, if_neg (Nat.not_lt.mpr written), if_neg noMore]

end Drain

/-- A column with one cell: the cell's tile element takes the drained value, and the tiles of the column the pass's tag. -/
theorem drainColumn_of_cell {d : Drain} {i j : Nat} {v : W32} (k : Core) (g : Gang) (path : Path) (column : j < 256)
    (cell : d.cells.filter (fun e => e.1 % 256 == j) = [(256 * i + j, v)]) :
    let t := d.pass.tiles.getD ((i / 32) * (shapeRC g.shape).2 + j / 32) 0
    let w := drainValue path g.sat d.pass.add (k.tileEl t (i % 32) (j % 32)) v
    drainColumn k g d path j =
      ((k.setTileEl t (i % 32) (j % 32) w.1).tagTiles
        ((List.range (shapeRC g.shape).1).map fun x => d.pass.tiles.getD (x * (shapeRC g.shape).2 + j / 32) 0) d.pass.tag, w.2) := by
  have row : (256 * i + j) / 256 = i := by omega
  simp only [drainColumn, cell, List.foldl_cons, List.foldl_nil, row, BitVec.ofNat_eq_ofNat, BitVec.zero_or]

/-- Settles O12: each command is the branch of its operation that its hypotheses pick, and so is each cycle: the looks at the two
queues pick the branch of an accumulate cycle, and the place in the drain that of a drain cycle. -/
theorem matrixPassEvents : Obligations.MatrixPassEvents := by
  refine ⟨?start, ?block, ?resume, ?swap, ?drain, ?starts, ?cycle, ?step, ?rowSeen, ?swaps, ?drainCycle, ?column⟩
  case start => exact fun _ _ _ _ _ gang pend => congrArg ok (passStart_of_pend gang pend)
  case block => exact fun _ _ _ _ _ gang acc goes => congrArg ok (passBlock_of_acc gang acc goes)
  case resume => exact fun _ _ _ _ _ gang acc holds => congrArg ok (passResume_of_hold gang acc holds)
  case swap => exact fun _ _ _ _ _ gang acc => congrArg ok (passSwap_of_acc gang acc)
  case drain => exact fun _ _ _ _ _ _ gang drn => congrArg ok (passDrain_of_drn gang drn)
  case starts => exact fun _ _ c pend free => Gang.start_of_pend pend free c
  case cycle =>
    intro s i b c g p fa fb gang begun fmtA fmtB goes started
    have acc : g.acc = some p := by rwa [started] at begun
    exact ⟨fun _ _ => passCycle_of_here gang started acc fmtA fmtB goes rfl rfl,
      passCycle_of_lack gang started acc fmtA fmtB goes rfl rfl, passCycle_of_leak gang started acc fmtA fmtB goes rfl rfl⟩
  case step =>
    intro k b g p fa fb dA dB rA rB n m blk
    refine ⟨fun lastOfBlock => ?added, fun insideBlock => ?kept⟩
    case added =>
      simp only [blk] at lastOfBlock
      simp only [passStep, lastOfBlock, decide_true, if_true]
      rfl
    case kept =>
      have notLast := Nat.not_le.mpr insideBlock
      simp only [blk] at notLast
      simp only [passStep, notLast, decide_false, Bool.false_eq_true, if_false, BitVec.ofNat_eq_ofNat, BitVec.or_zero]
      rfl
  case rowSeen => exact fun r c => ⟨r.here_iff false c, r.here_iff true c⟩
  case swaps => exact fun _ _ c acc => Gang.swapAt_of_acc acc c
  case drainCycle =>
    intro s i b c g d path gang formats written r
    split
    case isTrue before => exact drainCycle_of_before gang formats written before
    case isFalse last => exact drainCycle_of_last gang formats written last
  case column => exact fun k g _ path _ _ _ _ column cell => drainColumn_of_cell k g path column cell

end Sys2Proof.Machine
end

section
/-! PROOFS.
Tiles and the matrix-vector path: the instructions of slot M that move tiles, load vectors and stream weights, the tile range of
a context, and the cycles of a move, of a vector load and of a pass (spec 05 R146–R169). -/

namespace Sys2Proof.Machine

/-! ### The instructions (R148–R150, R154–R159, R162) -/

theorem tmLd_means : Means .tmLd semTmLd pNone := ⟨fun _ _ => rfl, fun _ _ => rfl, _, fun _ _ _ => rfl⟩
theorem tmSt_means : Means .tmSt semTmSt pNone := ⟨fun _ _ => rfl, fun _ _ => rfl, _, fun _ _ _ => rfl⟩
theorem mvCfg_means : Means .mvCfg semMvCfg pNone := ⟨fun _ _ => rfl, fun _ _ => rfl, _, fun _ _ _ => rfl⟩
theorem mvLdv_means : Means .mvLdv semMvLdv pNone := ⟨fun _ _ => rfl, fun _ _ => rfl, _, fun _ _ _ => rfl⟩
theorem mvPass_means : Means .mvPass semMvPass pNone := ⟨fun _ _ => rfl, fun _ _ => rfl, _, fun _ _ _ => rfl⟩
theorem mvFree_means : Means .mvFree semMvFree pNone := ⟨fun _ _ => rfl, fun _ _ => rfl, _, fun _ _ _ => rfl⟩

/-- Settles O51: each of the six has the effect of its meaning, tagged or not; both moves are one issue, in the two directions. -/
theorem tileMoveAndMatVecInstructions : Obligations.TileMoveAndMatVecInstructions :=
  ⟨coreSlot_of_means_clears tmLd_means (by decide) rfl rfl fun _ _ _ _ _ => rfl,
   coreSlot_of_means_clears tmSt_means (by decide) rfl rfl fun _ _ _ _ _ => rfl,
   coreSlot_of_means_clears mvCfg_means (by decide) rfl rfl fun _ _ _ _ _ => rfl,
   coreSlot_of_means_clears mvLdv_means (by decide) rfl rfl fun _ _ _ _ _ => rfl,
   coreSlot_of_means_clears mvPass_means (by decide) rfl rfl fun _ _ _ _ _ => rfl,
   coreSlot_of_means_clears mvFree_means (by decide) rfl rfl fun _ _ _ _ _ => rfl⟩

/-! ### A write to CORE.CTXn.TILES (R146, R169) -/

/-- The range that a value of CORE.CTXn.TILES gives may become that of context `n`: the context holds no task and has no tile
left to clear, and the range lies inside the 512 tiles and shares none with another context. -/
def Core.mayOwnTiles (k : Core) (n : Nat) (v : W64) : Bool :=
  k.holdsTask n == false && (k.uncleared (k.tileRange n).1 (k.tileRange n).2).isEmpty &&
    decide (bits v 8 0 + bits v 25 16 ≤ 512) &&
    [0, 1, 2, 3].all fun m => m == n || !overlap (bits v 8 0) (bits v 25 16) (k.tileRange m).1 (k.tileRange m).2

/-- A write that changes the range and does not clear REFUSED takes effect where it may, and else sets REFUSED. -/
theorem tilesWrite_of_change {s : State} {i n : Nat} {v : W64} (keeps : bit v 63 = false)
    (changes : bits ((s.core i).reg (offTiles n)) 32 0 ≠ bits v 32 32 * 2 ^ 32 + bits v 25 16 * 2 ^ 16 + bits v 8 0) :
    tilesWrite s i n v =
      if (s.core i).mayOwnTiles n v then s.modCore i fun k =>
        ((k.setFld (offTiles n) 8 0 (bits v 8 0)).setFld (offTiles n) 25 16 (bits v 25 16)).setFld (offTiles n) 32 32 (bits v 32 32)
      else s.coreEvent i (offTiles n) 63 := by
  simp only [tilesWrite, keeps, Bool.false_eq_true, if_false, if_neg changes]
  rfl

/-! ### The commands of a move and of the matrix-vector path (R150, R155, R157, R163) -/

section Commands
variable {s : State} {i : Nat}

theorem tileMoveDone_of_move {m : TileMove} (move : (s.core i).move = some m) :
    tileMoveDone s i = s.through i (m.issued + 8 * m.nt + (if m.ld then 3 else 2)) := by
  simp only [tileMoveDone, move]

theorem mvLoadDone_of_load {l : VLoad} (load : (s.core i).mvp.load = some l) :
    mvLoadDone s i = s.through i (l.issued + vecSpan (s.core i).mvp.fmtV (s.core i).mvp.k * l.c + l.holds) := by
  simp only [mvLoadDone, load]

theorem mvBlock_of_passes {p : VPass} {rest : List VPass} (passes : (s.core i).mvp.passes = p :: rest) :
    mvBlock s i = s.through i
      (p.issued + 5 + (p.block + 1) * mvD (s.core i).mvp.fmtW (s.core i).mvp.k * mvF (s.core i).mvp.ports) := by
  simp only [mvBlock, passes]

theorem mvPassDone_of_passes {p : VPass} {rest : List VPass} (passes : (s.core i).mvp.passes = p :: rest) :
    mvPassDone s i = s.through i
      (p.issued + 5 + p.nb * mvD (s.core i).mvp.fmtW (s.core i).mvp.k * mvF (s.core i).mvp.ports) := by
  simp only [mvPassDone, passes]

theorem mvpClearDone_of_clearEnd {e : Nat} (clearEnd : (s.core i).mvp.clearEnd = some e) : mvpClearDone s i = s.toCyc i e := by
  simp only [mvpClearDone, clearEnd]

end Commands

/-! ### A cycle of a tile move (R150, R261) -/

section Move
variable {s s1 : State} {i c : Nat} {m : TileMove} (move : (s.core i).move = some m)
include move

section LoadRead
variable (load : m.ld = true) (first : m.issued + 2 ≤ c) (last : c < m.issued + 2 + 8 * m.nt)
include load first last

theorem moveRead_of_row {v : Row} (read : s.readLocal i m.ctx (m.row + (c - (m.issued + 2))) c 3 = (s1, some v)) :
    moveRead s i c = s1.modCore i fun k => { k with move := some { m with got := m.got ++ [v] } } := by
  have inside : ¬ (c < m.issued + 2 ∨ 8 * m.nt ≤ c - (m.issued + 2)) := by omega
  simp only [moveRead, move, load, if_true, if_neg inside, read]

theorem moveRead_of_uncorrectable (read : s.readLocal i m.ctx (m.row + (c - (m.issued + 2))) c 3 = (s1, none)) :
    moveRead s i c = s1.modCore i fun k => k.endMove m := by
  have inside : ¬ (c < m.issued + 2 ∨ 8 * m.nt ≤ c - (m.issued + 2)) := by omega
  simp only [moveRead, move, load, if_true, if_neg inside, read]

end LoadRead

theorem moveRead_of_store (store : m.ld = false) (first : m.issued + 1 ≤ c) (last : c < m.issued + 1 + 8 * m.nt) :
    let x := c - (m.issued + 1)
    moveRead s i c = s.modCore i fun k => { k with move := some { m with
      got := m.got ++ [packRow 32 ((k.tileQuarter (m.tile + x / 8) (x % 8)).map (·.toNat))] } } := by
  have inside : ¬ (c < m.issued + 1 ∨ 8 * m.nt ≤ c - (m.issued + 1)) := by omega
  simp only [moveRead, move, store, Bool.false_eq_true, if_false, if_neg inside]

variable {v : Row} {rest : List Row} (got : m.got = v :: rest)
include got

theorem moveWrite_of_load (load : m.ld = true) (first : m.issued + 4 ≤ c) :
    let x := c - (m.issued + 4)
    moveWrite s i c = (s.modCore i fun k =>
        (k.putQuarter (m.tile + x / 8) (x % 8) (rowWords v)).tagTiles [m.tile + x / 8] m.tag).modCore i fun k =>
      if x + 1 = 8 * m.nt then k.endMove m else { k with move := some { m with got := rest } } := by
  simp only [moveWrite, move, got, load, if_true, if_neg (Nat.not_lt.mpr first)]

theorem moveWrite_of_store (store : m.ld = false) (first : m.issued + 3 ≤ c) :
    let x := c - (m.issued + 3)
    moveWrite s i c = (s.writeOwn i m.ctx m.tag (m.row + x) v).modCore i fun k =>
      if x + 1 = 8 * m.nt then k.endMove m else { k with move := some { m with got := rest } } := by
  simp only [moveWrite, move, got, store, Bool.false_eq_true, if_false, if_neg (Nat.not_lt.mpr first)]

end Move

/-! ### A vector load (R156–R158) -/

/-- A read after the same value is written at every key from `a` to `a + len - 1`. -/
theorem Tab.get_foldl_put_range {α : Type} (d v : α) (t : Tab α) (a len j : Nat) :
    Tab.get d ((List.range len).foldl (fun m x => Tab.put m (a + x) v) t) j =
      if a ≤ j ∧ j < a + len then v else Tab.get d t j := by
  induction len with
  | zero => rw [if_neg (by omega)]; rfl
  | succ len ih =>
    have inRange : a ≤ j ∧ j < a + (len + 1) ↔ j = a + len ∨ a ≤ j ∧ j < a + len := by omega
    simp only [List.range_succ, List.foldl_append, List.foldl_cons, List.foldl_nil, Tab.get_put, ih, inRange, ite_or]

theorem Mvp.slots_loaded (v : Mvp) (l : VLoad) (all : List Row) (j : Nat) :
    Tab.get {} (v.loaded l all).slots j =
      if l.s ≤ j ∧ j < l.s + l.c then ⟨true, v.fmtV, v.k, l.tag⟩ else Tab.get {} v.slots j :=
  Tab.get_foldl_put_range _ _ _ _ _ _

section Load
variable {s : State} {i c : Nat} {l : VLoad} (load : (s.core i).mvp.load = some l) (after : l.issued < c)
  (goes : l.got.length < vecSpan (s.core i).mvp.fmtV (s.core i).mvp.k * l.c)
include load after goes

theorem loadCycle_of_here {rows : List QRow} (look : lookRows l.tag c l.hold 1 ((s.core i).free l.q) = .here rows) :
    loadCycle s i c = s.modCore i fun k => { k.useRows l.q 1 with
      mvp := { k.mvp with load := some { l with got := l.got ++ rows.map (·.row), hold := false } } } := by
  simp only [loadCycle, load, Nat.not_le.mpr after, Nat.not_le.mpr goes, or_self, if_false, look]

theorem loadCycle_of_lack (look : lookRows l.tag c l.hold 1 ((s.core i).free l.q) = .lack) :
    loadCycle s i c = s.modCore i fun k => { k with
      mvp := { k.mvp with load := some { l with holds := l.holds + 1, hold := true } } } := by
  simp only [loadCycle, load, Nat.not_le.mpr after, Nat.not_le.mpr goes, or_self, if_false, look]

/-- A row of a tag the load may not use drops the load, and its context faults (R158). -/
theorem loadCycle_of_leak (look : lookRows l.tag c l.hold 1 ((s.core i).free l.q) = .leak) :
    loadCycle s i c =
      (s.modCore i fun k => { k with mvp := { k.mvp with load := none } }).faultAsync i l.ctx fSPECLEAK 3 := by
  simp only [loadCycle, load, Nat.not_le.mpr after, Nat.not_le.mpr goes, or_self, if_false, look]

end Load

theorem loadEnd_of_load {k : Core} {l : VLoad} (load : k.mvp.load = some l) :
    loadEnd k = if vecSpan k.mvp.fmtV k.mvp.k * l.c ≤ l.got.length then { k with mvp := k.mvp.loaded l l.got } else k := by
  simp only [loadEnd, load]

theorem loadEnd_of_none {k : Core} (load : k.mvp.load = none) : loadEnd k = k := by
  simp only [loadEnd, load]

/-! ### A cycle of a pass (R160, R161, R163) -/

section Pass
variable {s : State} {i c : Nat} {p : VPass}

/-- Pass `p` once its next output block is written with the flags `f`: the rows of that block are used up. -/
def VPass.next (p : VPass) (v : Mvp) (f : Flags) : VPass :=
  { p with block := p.block + 1, flags := p.flags ||| f, rows := p.rows.drop (2 * mvD v.fmtW v.k) }

/-- The core with the next output block of pass `p` written, and the flags of that block. -/
def Core.writeBlock (k : Core) (p : VPass) : Core × Flags := mvBlockInto k p (p.rows.take (2 * mvD k.mvp.fmtW k.mvp.k))

/-- The state with the next output block of pass `p` written, and the pass gone on. -/
def State.passNext (s : State) (i : Nat) (p : VPass) : State :=
  let r := (s.core i).writeBlock p
  s.setCore i { r.1 with mvp := r.1.mvp.setPass p.entry (some (p.next (s.core i).mvp r.2)) }

/-- The end of a cycle writes the next output block of a pass where its cycle has come, and ends the pass with its last one. -/
theorem passWrite_eq (remains : p.block < p.nb) :
    passWrite i c s p =
      if c = p.issued + 5 + (p.block + 1) * mvD (s.core i).mvp.fmtW (s.core i).mvp.k * mvF (s.core i).mvp.ports then
        if p.block + 1 < p.nb then s.passNext i p
        else passOver (s.passNext i p) i (p.next (s.core i).mvp ((s.core i).writeBlock p).2)
      else s := by
  simp only [passWrite, remains, and_true]
  rfl

/-- At one port a pass reads one row a cycle. -/
theorem passRows_of_one_port {v : Mvp} (port : mvF v.ports = 2) (first : p.issued + 2 ≤ c)
    (last : c < p.issued + 2 + p.nb * mvD v.fmtW v.k * 2) : passRows v p c = [p.wrow + (c - (p.issued + 2))] := by
  have inside : p.issued + 2 ≤ c ∧ c - (p.issued + 2) < p.nb * mvD v.fmtW v.k * 2 := by omega
  simp only [passRows, port, if_pos inside, if_neg (show ¬ (2 = 1) by decide)]

theorem passRead_of_row {s1 : State} {v : Row} {r : Nat} (rows : passRows (s.core i).mvp p c = [r])
    (listed : (s.core i).mvp.passes.find? (fun x => x.entry == p.entry) = some p)
    (read : s.readLocal i p.ctx r c 3 = (s1, some v)) :
    passRead i c s p = s1.modCore i fun k => { k with
      mvp := k.mvp.setPass p.entry (some { p with rows := p.rows ++ [v] }) } := by
  simp only [passRead, rows, List.foldl_cons, List.foldl_nil, listed, read]

end Pass

/-- With no pass and no load in progress, a clear is over at the end of the cycle before its end. -/
theorem clearEnd_mvpEnd {s : State} {i c e : Nat} (passes : (s.core i).mvp.passes = []) (load : (s.core i).mvp.load = none)
    (clear : (s.core i).mvp.clearEnd = some e) :
    ((mvpEnd s i c).core i).mvp.clearEnd = if e ≤ c + 1 then none else some e := by
  simp only [mvpEnd, passes, List.foldl_nil, core_modCore, loadEnd_of_none load, clear]
  split
  · rfl
  · exact clear

/-- Settles O13: each command comes to the cycle of its event, and each cycle is the branch of its operation that its hypotheses
pick. -/
theorem tileRangeAndMoveEvents : Obligations.TileRangeAndMoveEvents := by
  refine ⟨?range, ?moveDone, ?reads, ?writes, ?slots, ?loadDone, ?loads, ?loaded, ?passDone, ?passWrites, ?passReads, ?clearDone,
    ?clears⟩
  case range => exact fun _ _ _ _ _ keeps changes => congrArg ok (tilesWrite_of_change keeps changes)
  case moveDone => exact fun _ _ _ move => congrArg ok (tileMoveDone_of_move move)
  case reads =>
    exact fun _ _ _ _ move => ⟨fun load first last _ _ => moveRead_of_row move load first last,
      fun load first last _ => moveRead_of_uncorrectable move load first last, moveRead_of_store move⟩
  case writes => exact fun _ _ _ _ _ _ move got => ⟨moveWrite_of_load move got, moveWrite_of_store move got⟩
  case slots => exact Mvp.slots_loaded
  case loadDone => exact fun _ _ _ load => congrArg ok (mvLoadDone_of_load load)
  case loads =>
    exact fun _ _ _ _ load after goes => ⟨fun _ => loadCycle_of_here load after goes, loadCycle_of_lack load after goes,
      loadCycle_of_leak load after goes⟩
  case loaded => exact fun _ _ load => loadEnd_of_load load
  case passDone =>
    exact fun _ _ _ _ passes => ⟨congrArg ok (mvBlock_of_passes passes), congrArg ok (mvPassDone_of_passes passes)⟩
  case passWrites =>
    intro s i c p remains v d r q s1
    refine ⟨fun due more => ?_, fun due last => ?_, fun notDue => ?_⟩
    · rw [passWrite_eq remains, if_pos due, if_pos more]; rfl
    · rw [passWrite_eq remains, if_pos due, if_neg (Nat.not_lt.mpr last)]; rfl
    · rw [passWrite_eq remains, if_neg notDue]
  case passReads =>
    exact fun _ _ _ _ _ _ listed first last port => passRead_of_row (passRows_of_one_port port first last) listed
  case clearDone => exact fun _ _ _ clear => congrArg ok (mvpClearDone_of_clearEnd clear)
  case clears => exact fun _ _ _ _ => clearEnd_mvpEnd

end Sys2Proof.Machine
end

section
/-! PROOFS.
The vector unit and the epilogue: the instructions of slot V, the commands of a vector operation, its stream cycles and its
element-wise results, and the end of a cycle of both units (spec 06 R190–R195, 07 R201–R225). -/

namespace Sys2Proof.Machine

/-! ### The instructions (R201, R202, R205, R213, R214, R216) -/

theorem vOp_means : Means .vOp semVOp pNone := ⟨fun _ _ => rfl, fun _ _ => rfl, _, fun _ _ _ => rfl⟩
theorem vBld_means : Means .vBld semVBld pNone := ⟨fun _ _ => rfl, fun _ _ => rfl, _, fun _ _ _ => rfl⟩
theorem vExt_means : Means .vExt semVExt pNone := ⟨fun _ _ => rfl, fun _ _ => rfl, _, fun _ _ _ => rfl⟩
theorem vSeed_means : Means .vSeed semVSeed pNone := ⟨fun _ _ => rfl, fun _ _ => rfl, _, fun _ _ _ => rfl⟩
theorem epRun_means : Means .epRun semEpRun pNone := ⟨fun _ _ => rfl, fun _ _ => rfl, _, fun _ _ _ => rfl⟩

/-- V.EXT of an element in a format that the table knows writes its value and raises NAN where it is one. -/
theorem semVExt_eff_of_fmt {b : BC} {f : Fmt} (format : extFmt b.op = some f) (t : State) :
    semVExt.eff b t =
      (t.writeReg b.core b.ctx (fRd b.op) (extValue f (b.k.buf (extBuf b.op)).data (extElem b.op)) 3).raiseFlags b.core b.ctx b.tag
        (if extNan f (b.k.buf (extBuf b.op)).data (extElem b.op) then flagNAN else 0) := by
  simp only [semVExt, format]

/-- V.EXT has the effect of its meaning. -/
theorem vExt_slot : CoreSlot .vExt .v (fun s i n hdr op => clears semVExt ⟨s, i, n, .v, hdr, op⟩) (fun _ _ _ _ => none)
    (fun s i n hdr op => semVExt.eff ⟨s, i, n, .v, hdr, op⟩) :=
  coreSlot_of_means_clears vExt_means (by decide) rfl rfl fun _ _ _ _ _ => rfl

/-- Settles O52: each of the five has the effect of its meaning; that of V.EXT is the one of its format. -/
theorem vectorInstructions : Obligations.VectorInstructions := by
  refine ⟨coreSlot_of_means_clears vOp_means (by decide) rfl rfl fun _ _ _ _ _ => rfl,
    coreSlot_of_means_clears vBld_means (by decide) rfl rfl fun _ _ _ _ _ => rfl, ?ext,
    coreSlot_of_means_clears vSeed_means (by decide) rfl rfl fun _ _ _ _ _ => rfl,
    coreSlot_of_means_clears epRun_means (by decide) rfl rfl fun _ _ _ _ _ => rfl⟩
  case ext =>
    intro s i n hdr op f ready clear format
    have effect := funext (semVExt_eff_of_fmt (b := ⟨s, i, n, .v, hdr, op⟩) format)
    exact (vExt_slot s i n hdr op ready clear).trans (congrArg (fun eff => ok (s.issued i n hdr none eff)) effect)

/-! ### The commands of an operation (R206, R210, R225) -/

/-- A command that runs `svuRun` of a function takes the operation that streams to its last stream cycle, where it is one of the
function. -/
theorem runsVector_of_svuRun {c : CoreIx → Instr} {func : Nat} (runs : ∀ i s, exec (c i) s = ok (svuRun s i func)) :
    RunsVector c func := fun s i => runs i s

theorem svuDone_of_oldest {s : State} {i : Nat} {o : SvuOp} {l : List SvuOp}
    (oldest : (s.core i).svuTail ++ (s.core i).svu.toList = o :: l) :
    svuDone s i = s.through i (o.issued + o.holds + o.lastAge) := by
  simp only [svuDone, oldest]

theorem epDone_of_oldest {s : State} {i : Nat} {o : EpOp} {l : List EpOp}
    (oldest : (s.core i).epTail ++ (s.core i).ep.toList = o :: l) :
    epDone s i = s.through i (o.issued + o.holds + o.lastAge) := by
  simp only [epDone, oldest]

/-! ### Element-wise results (R206) -/

section Results
variable {o : SvuOp} {f : Nat} (func : o.func = f)
include func

/-- An element-wise function gives in each element the value of `svuElem` at the elements of the sources it reads. -/
theorem SvuOp.results_of_elementwise (elementwise : f ≤ 12) (l m : List Machine.Num) (ix : List Nat) :
    (o.results l m ix).map (·.2) =
      if o.usesB then (List.zip l m).map fun p => (svuElem f o.cond (ofFp32 o.scalar) p.1 p.2).2
      else l.map fun a => (svuElem f o.cond (ofFp32 o.scalar) a a).2 := by
  have noReduction : ¬ o.reduces = true := by
    simp only [SvuOp.reduces, func, Bool.and_eq_true, decide_eq_true_eq]; omega
  have notGath : ¬ f = 16 := by omega
  have notTrn : ¬ f = 17 := by omega
  simp only [SvuOp.results, func, if_neg noReduction, if_neg notGath, if_neg notTrn]
  split <;> exact List.map_map

theorem SvuOp.results_of_two {value : Machine.Num → Machine.Num → Machine.Num} (two : f ≤ 5 ∨ f = 10 ∨ f = 11)
    (elem : ∀ a b, (svuElem f o.cond (ofFp32 o.scalar) a b).2 = value a b) (l m : List Machine.Num) (ix : List Nat) :
    (o.results l m ix).map (·.2) = (List.zip l m).map fun p => value p.1 p.2 := by
  have readsB : o.usesB = true := by
    simp only [SvuOp.usesB, func, Bool.or_eq_true, decide_eq_true_eq, beq_iff_eq]; omega
  simp only [SvuOp.results_of_elementwise func (by omega), if_pos readsB, elem]

theorem SvuOp.results_of_one {value : Machine.Num → Machine.Num} (one : 6 ≤ f ∧ f ≤ 9 ∨ f = 12)
    (elem : ∀ a, (svuElem f o.cond (ofFp32 o.scalar) a a).2 = value a) (l m : List Machine.Num) (ix : List Nat) :
    (o.results l m ix).map (·.2) = l.map value := by
  have leavesB : ¬ o.usesB = true := by
    simp only [SvuOp.usesB, func, Bool.or_eq_true, decide_eq_true_eq, beq_iff_eq]; omega
  simp only [SvuOp.results_of_elementwise func (by omega), if_neg leavesB, elem]

end Results

/-- Every function but GATH encodes the results on the values read, without indices. -/
theorem SvuOp.encodeBy_of_values {o : SvuOp} (notGath : o.func ≠ 16) (x : Nat) :
    o.encodeBy x = encodeStream o.fmtD o.gl (NC.ofField o.nc) o.seed
      ((o.results (o.valuesOf o.sa o.fmtA o.inA o.elA (o.performed x))
        (if o.usesB then o.valuesOf o.sb o.fmtB o.inB o.elB (o.performed x) else []) []).map (·.2)) := by
  simp only [SvuOp.encodeBy, SvuOp.resultsBy, notGath, if_false, ne_eq, not_false_eq_true, decide_true,
    Bool.and_true]

/-! ### A stream cycle (R210, R211) -/

section Stream
variable {s : State} {i c : Nat} {o : SvuOp} {look : Look × Look} (streams : (s.core i).svu = some o) (begun : 2 ≤ o.age c)
  (looks : (s.core i).lookTwo o.tag c o.hold o.sa (o.rowsA (o.age c - 2) - o.inA.length) o.sb
    (o.rowsB (o.age c - 2) - o.inB.length) = look)
include streams begun looks

/-- With the rows of both sources at hand the operation reads them. -/
theorem svuCycle_of_here {rA rB : List QRow} (here : look = (.here rA, .here rB)) :
    svuCycle s i c = s.modCore i fun k => k.svuRead o (o.age c - 2) rA rB := by
  subst here
  simp only [svuCycle, streams, if_neg (Nat.not_lt.mpr begun), looks]

/-- With a row missing, and none of a tag it may not use, the cycle is a hold, which counts. -/
theorem svuCycle_of_lack (noLeakA : look.1 ≠ .leak) (noLeakB : look.2 ≠ .leak) (lack : look.1 = .lack ∨ look.2 = .lack) :
    svuCycle s i c = (s.count48 i 0x588 1).modCore i fun k =>
      { k with svu := some { o with holds := o.holds + 1, hold := true } } := by
  obtain ⟨lookA, lookB⟩ := look
  simp only [svuCycle, streams, if_neg (Nat.not_lt.mpr begun), looks]
  rcases lack with rfl | rfl
  · cases lookB with
    | here _ | lack => rfl
    | leak => contradiction
  · cases lookA with
    | here _ | lack => rfl
    | leak => contradiction

/-- With a row of a tag it may not use in either source the operation is dropped and its context faults (R228). -/
theorem svuCycle_of_leak (leak : look.1 = .leak ∨ look.2 = .leak) :
    svuCycle s i c =
      (s.modCore i fun k => { (match o.entry with | some e => (k.freeSb e).freePort e | none => k) with svu := none }).faultAsync i
        o.ctx fSPECLEAK 4 := by
  obtain ⟨lookA, lookB⟩ := look
  simp only [svuCycle, streams, if_neg (Nat.not_lt.mpr begun), looks]
  rcases leak with rfl | rfl
  · rfl
  · cases lookA <;> rfl

end Stream

/-- An operation whose sources are queues reads no element of tiles or buffers. -/
theorem Core.svuRead_of_queues {o : SvuOp} (queueA : isQueue o.sa = true) (queueB : isQueue o.sb = true) (k : Core) (x : Nat)
    (rA rB : List QRow) :
    k.svuRead o x rA rB = { (k.useRows o.sa rA.length).useRows o.sb rB.length with svu := some { o with
      inA := o.inA ++ rA.map (·.row), inB := o.inB ++ rB.map (·.row), hold := false, elA := [], elB := [] } } := by
  simp only [Core.svuRead, queueA, queueB, Bool.or_true, if_true]

/-- Settles O14: each command is `svuRun` of its function, each element-wise function the value of `svuElem`, and each stream
cycle the branch that the looks at the two sources pick. -/
theorem vectorFunctions : Obligations.VectorFunctions := by
  refine ⟨?_, ?_, ?_, ?_, ?_, ?_, ?_, ?_, ?_, ?_, ?_, ?_, ?_, ?_, ?_, ?_, ?_, ?_, ?results, ?encodes, ?cycle, ?reads⟩
  case results =>
    intro o l m ix x
    refine ⟨?_, ?_, ?_, ?_, ?_, ?_, ?cmp, ?sel, ?_, ?_, ?_, ?_, ?_⟩
    case cmp => exact fun func => SvuOp.results_of_two func (by decide) (fun _ _ => rfl) l m ix
    case sel => exact fun func => SvuOp.results_of_two func (by decide) (fun a b => apply_ite Prod.snd ..) l m ix
    iterate 6 exact fun func => SvuOp.results_of_two func (by decide) (fun _ _ => rfl) l m ix
    all_goals exact fun func => SvuOp.results_of_one func (by decide) (fun _ => rfl) l m ix
  case encodes => exact fun o x notGath => congrArg Prod.fst (SvuOp.encodeBy_of_values notGath x)
  case cycle =>
    intro s i c o streams begun x look
    exact ⟨fun _ _ => svuCycle_of_here streams begun rfl, svuCycle_of_lack streams begun rfl, svuCycle_of_leak streams begun rfl⟩
  case reads => exact fun k _ x rA rB queueA queueB => Core.svuRead_of_queues queueA queueB k x rA rB
  all_goals exact runsVector_of_svuRun fun _ _ => rfl

/-! ### The end of a cycle (R192, R195, R210, R213, R215, R225) -/

section VectorEnd
variable (i c : Nat) (s : State) (o : SvuOp)

/-- The end of the last cycle of an operation: what it writes, then its entry and port free and its flags enter. -/
theorem svuEndOne_of_last (goes : o.hold = false) (last : o.age c = o.lastAge) :
    svuEndOne i c s o = ((svuWrite i c s o).modCore i fun k =>
      let k2 := match o.entry with | some e => ((k.trnOver o).freeSb e).freePort e | none => k.trnOver o
      { k2 with svuTail := k2.svuTail.filter fun x => x.issued ≠ o.issued }).raiseFlags i o.ctx o.tag o.flags :=
  if_neg (by simp [goes, last])

theorem svuEndOne_of_before (more : o.hold = true ∨ o.age c ≠ o.lastAge) : svuEndOne i c s o = svuWrite i c s o :=
  if_pos more

/-- A row destination takes the rows due at the end of the cycle. -/
theorem svuWrite_of_rows (goes : o.hold = false) (begun : o.age c ≠ 0) (rows : o.dk = 0) :
    svuWrite i c s o = (o.writes c).foldl (fun s r =>
      s.writeOwn i o.ctx o.tag (o.daddr + r) ((o.encodeBy (o.age c - 2)).1.getD r 0)) s := by
  simp only [svuWrite, goes, begun, rows, Bool.false_eq_true, or_self, if_false, if_true]

end VectorEnd

section EpilogueEnd
variable (i c : Nat) (s : State) (o : EpOp)

/-- The state with the rows written that are due for an epilogue operation at the end of cycle `c`. -/
def epWritten : State :=
  (o.writes c).foldl (fun s r => s.writeOwn i o.ctx o.tag (o.drow + r) ((epCompute o (epResid o)).1.getD r 0)) s

/-- The end of the last cycle of an operation: what it writes, then its entry and port free and its flags enter. -/
theorem epEndOne_of_last (goes : o.hold = false) (last : o.age c = o.lastAge) :
    epEndOne i c s o = ((epWritten i c s o).modCore i fun k => { (k.freeSb o.entry).freePort o.entry with
      epTail := k.epTail.filter fun x => x.entry ≠ o.entry }).raiseFlags i o.ctx o.tag (epCompute o (epResid o)).2 :=
  if_neg (by simp [goes, last])

theorem epEndOne_of_before (more : o.hold = true ∨ o.age c ≠ o.lastAge) : epEndOne i c s o = epWritten i c s o :=
  if_pos more

end EpilogueEnd

/-- Settles O15: each command comes to the end of the last cycle of the oldest operation, and the end of a cycle is the branch
that the operation's age picks. -/
theorem vectorAndEpilogueCompletion : Obligations.VectorAndEpilogueCompletion := by
  refine ⟨?vectorDone, ?epilogueDone, ?vectorEnds, ?vectorWrites, ?epilogueEnds⟩
  case vectorDone => exact fun _ _ _ _ oldest => congrArg ok (svuDone_of_oldest oldest)
  case epilogueDone => exact fun _ _ _ _ oldest => congrArg ok (epDone_of_oldest oldest)
  case vectorEnds => exact fun i c s o => ⟨svuEndOne_of_last i c s o, svuEndOne_of_before i c s o⟩
  case vectorWrites => exact svuWrite_of_rows
  case epilogueEnds => exact fun i c s o => ⟨epEndOne_of_last i c s o, epEndOne_of_before i c s o⟩

end Sys2Proof.Machine
end

section
/-! PROOFS.
The Comb and its slice: whole-row writes and checked reads, the instructions that open and close windows and run streams, remote
accesses at the port and the sequencers, and the row care of the slice controller (spec 08 R231–R269, 09 R273–R293, 13 R385–R387). -/

namespace Sys2Proof.Machine

/-! ### Whole-row writes and checked reads (R231, R232, R234) -/

section Rows
variable (s : State) (i r : Nat) (v : Row)

theorem State.physRow_writeComb : (s.writeComb i r v).physRow i ((s.core i).phys r) = v := by
  rw [State.physRow, writeComb_comb, readRow_writeRow]

theorem State.get_writeComb_other (a : Nat) (outside : a < combAddr i ((s.core i).phys r) ∨ combAddr i ((s.core i).phys r) + 512 ≤ a) :
    Tab.get 0 (s.writeComb i r v).comb a = Tab.get 0 s.comb a := by
  rw [writeComb_comb]
  exact writeLE_other _ _ _ _ _ outside

theorem State.writeComb_cellar : (s.writeComb i r v).cellar = s.cellar :=
  congrArg K4.cellar (State.watchWrite_k4 (s.putPhys i ((s.core i).phys r) v) i r)

theorem State.writeComb_nv : (s.writeComb i r v).nv = s.nv :=
  congrArg K4.nv (State.watchWrite_k4 (s.putPhys i ((s.core i).phys r) v) i r)

end Rows

/-- A row without an error is delivered as it is held, and its read reports nothing. -/
theorem State.readComb_of_clean {s : State} {i r : Nat} (clean : (s.core i).badWords ((s.core i).phys r) = []) :
    s.readComb i r = (s, some (s.rowOf i r)) := by
  simp only [State.readComb, clean, List.isEmpty_nil, if_true, State.rowOf]

/-- Settles O3: the row written is read back, `writeLE` leaves the bytes outside it, and neither the watches of a write nor the
error reports of a read touch a memory. -/
theorem combRowWrites : Obligations.CombRowWrites := by
  refine ⟨State.physRow_writeComb, State.get_writeComb_other, ?frame, ?read, ?clean⟩
  case frame => exact fun s i r v => ⟨s.writeComb_cellar i r v, s.writeComb_nv i r v⟩
  case read =>
    intro s i r
    have kept := State.readComb_k4 s i r
    exact ⟨congrArg K4.comb kept, congrArg K4.cellar kept, congrArg K4.nv kept⟩
  case clean => exact fun _ _ _ => State.readComb_of_clean

/-! ### The instructions of windows and streams (R246–R250, R281, R292, R293) -/

/-- An instruction of slot X in an untagged bundle takes no branch and has the effect of its meaning wherever that raises no cause
and does not stall. -/
theorem coreSlot_of_untagged_clears {c : Iss → W32 → Instr} {m : Sem} {eff : State → Nat → Nat → W16 → W32 → State → State}
    (meaning : ∀ w op, slotInstr (c w op) = some (w, op, m) := by intros; rfl)
    (issues : ∀ (s : State) (i : CoreIx) (n : CtxIx) (hdr : W16) (op : W32), exec (c (.slot i n .x hdr false) op) s =
      ok (s.issueSlot i n hdr false (c (.slot i n .x hdr false) op)) := by intros; rfl)
    (slot : m.slots.contains .x = true := by rfl)
    (effect : ∀ s i n hdr op, m.eff ⟨s, i, n, .x, hdr, op⟩ = eff s i n hdr op := by intros; rfl) :
    CoreSlot c .x (fun s i n hdr op => untagged hdr && clears m ⟨s, i, n, .x, hdr, op⟩) (fun _ _ _ _ => none) eff := by
  refine coreSlot_of_clears (fun s i n hdr op legal => ?_) meaning issues slot (fun _ _ _ _ _ => rfl) effect
  obtain ⟨tag, clear⟩ := Bool.and_eq_true_iff.mp legal
  exact ⟨.inl tag, clear⟩

theorem fStart_means : Means .fStart semFStart pNone := ⟨fun _ _ => rfl, fun _ _ => rfl, _, fun _ _ _ => rfl⟩
theorem fStop_means : Means .fStop semFStop pNone := ⟨fun _ _ => rfl, fun _ _ => rfl, _, fun _ _ _ => rfl⟩
theorem fTake_means : Means .fTake semFTake pNone := ⟨fun _ _ => rfl, fun _ _ => rfl, _, fun _ _ _ => rfl⟩

/-- Settles O53: each of the five has the effect of its meaning; those of slot F may stand in a tagged bundle. -/
theorem foragerInstructions : Obligations.ForagerInstructions :=
  ⟨coreSlot_of_untagged_clears (m := semWOpen), coreSlot_of_untagged_clears (m := semWClose),
   coreSlot_of_means_clears fStart_means (by decide) rfl rfl fun _ _ _ _ _ => rfl,
   coreSlot_of_means_clears fStop_means (by decide) rfl rfl fun _ _ _ _ _ => rfl,
   coreSlot_of_means_clears fTake_means (by decide) rfl rfl fun _ _ _ _ _ => rfl⟩

/-! ### A row presented at the port, and the head of its buffer (R241–R243, R245) -/

section Port
variable {s s1 : State} {i c : Nat} {a : Access} {rest : List Access}

theorem remoteArrival_of_landed {id : Nat} {f0 f : Flight} {a0 : Access} (flies : s.flights.find? (fun f => f.id == id) = some f0)
    (row : f0.cargo = .access a0) (here : f0.target = i) (landed : s.landed i id = (s1, some f)) (cargo : f.cargo = .access a) :
    remoteArrival s i id =
      let s2 := s1.dropFlight id
      if s2.refuses i && a.kind != .copy then s2.refusedRow i f f.due else s2.arrive i a (Nat.max f.due (s2.cycOf i)) := by
  simp only [remoteArrival, flies, row, if_neg (not_not_intro here), landed, cargo]

/-- A row that a router on its way drops is presented nowhere. -/
theorem remoteArrival_of_lost {id : Nat} {f0 : Flight} {a0 : Access} (flies : s.flights.find? (fun f => f.id == id) = some f0)
    (row : f0.cargo = .access a0) (here : f0.target = i) (lost : s.landed i id = (s1, none)) : remoteArrival s i id = s1 := by
  simp only [remoteArrival, flies, row, if_neg (not_not_intro here), lost]

theorem remoteApply_of_queued (queued : (s.core i).rbuf = a :: rest) :
    remoteApply s i = s.toCyc i (Nat.max (s.cycOf i) (s.core i).rport + 1) := by
  simp only [remoteApply, queued]

theorem State.tryAccess_of_free (free : (s.usesBank i a c && (s.core i).bankBusy a.row c) = false) :
    s.tryAccess i a c =
      ((s.modCore i fun k => k.takePort_ c (if s.usesBank i a c then some a.row else none)).takeAccess i a c, true) := by
  simp only [State.tryAccess, free, Bool.false_eq_true, if_false]

/-- A local access in the bank defers the access, takes the port all the same, and counts (R242). -/
theorem State.tryAccess_of_busy (busy : (s.usesBank i a c && (s.core i).bankBusy a.row c) = true) :
    s.tryAccess i a c = ((s.count48 i 0x8028 1).modCore i fun k => k.takePort_ c none, false) := by
  simp only [State.tryAccess, busy, if_true]

theorem State.portHead_of_free (queued : (s.core i).rbuf = a :: rest) (port : (s.core i).rport ≤ c)
    (free : (s.usesBank i a c && (s.core i).bankBusy a.row c) = false) :
    s.portHead i c =
      ((s.modCore i fun k => k.takePort_ c (if s.usesBank i a c then some a.row else none)).takeAccess i a c).modCore i
        fun k => { k with rbuf := rest } := by
  simp only [State.portHead, queued, if_neg (Nat.not_lt.mpr port), State.tryAccess_of_free free]

theorem State.portHead_of_busy (queued : (s.core i).rbuf = a :: rest) (port : (s.core i).rport ≤ c)
    (busy : (s.usesBank i a c && (s.core i).bankBusy a.row c) = true) :
    s.portHead i c = (s.count48 i 0x8028 1).modCore i fun k => k.takePort_ c none := by
  simp only [State.portHead, queued, if_neg (Nat.not_lt.mpr port), State.tryAccess_of_busy busy]

theorem State.portHead_of_empty (empty : (s.core i).rbuf = []) : s.portHead i c = s := by
  simp only [State.portHead, empty]

/-- While the port is taken the head of the buffer waits. -/
theorem State.portHead_of_taken (taken : c < (s.core i).rport) : s.portHead i c = s := by
  unfold State.portHead
  split
  · rfl
  · exact if_pos taken

theorem State.wakeArray_of_active (active : (s.core i).array = none) : s.wakeArray i = s := by
  simp [State.wakeArray, active]

section Arrive
variable (active : (s.core i).array = none)
include active

theorem State.arrive_of_free (empty : (s.core i).rbuf = []) (port : (s.core i).rport ≤ c)
    (free : s.usesBank i a c = false ∨ (s.core i).bankBusy a.row c = false) :
    s.arrive i a c = (s.modCore i fun k => k.takePort_ c (if s.usesBank i a c then some a.row else none)).takeAccess i a c := by
  have goes : (s.core i).rbuf.isEmpty = true ∧ (s.core i).rport ≤ c := ⟨by rw [empty]; rfl, port⟩
  simp only [State.arrive, State.wakeArray_of_active active, State.portHead_of_empty empty, if_pos goes,
    State.tryAccess_of_free (Bool.and_eq_false_iff.mpr free)]

variable (taken : c < (s.core i).rport)
include taken

/-- Where the port is taken the row enters the buffer, or finds its four places held. -/
theorem State.arrive_of_taken :
    s.arrive i a c =
      if (s.core i).rbuf.length < 4 then s.modCore i fun k => { k with rbuf := k.rbuf ++ [a] } else s.resolve i a 6 c := by
  have waits : ¬ ((s.core i).rbuf.isEmpty = true ∧ (s.core i).rport ≤ c) := fun h => Nat.not_le.mpr taken h.2
  simp only [State.arrive, State.wakeArray_of_active active, State.portHead_of_taken taken, if_neg waits]

end Arrive

end Port

/-! ### An access that the port takes (R252, R254, R385) -/

/-- What a checked read of a row leaves to do: `refused` where the row is uncorrectable, else `applied` to the row. -/
def State.onRead (s : State) (i r : Nat) (refused : State → State) (applied : State → Row → State) : State :=
  let q := s.readComb i r
  if q.2.isNone then refused q.1 else applied q.1 (q.2.getD 0)

section Take
variable {s : State} {i c m : Nat} {a : Access} {w : Win}

theorem State.takeAccess_of_judged (refused : s.judge i a c ≠ 0) (remote : a.kind ≠ .copy) :
    s.takeAccess i a c = s.resolve i a (s.judge i a c) c := by
  unfold State.takeAccess
  split
  · exact absurd ‹_› remote
  · exact if_pos refused

variable (admitted : s.judge i a c = 0) (window : (s.core i).winOf a.row c = some (m, w))
include admitted window

theorem State.takeAccess_of_read (read : a.kind = .read) :
    s.takeAccess i a c = s.onRead i a.row (·.resolve i a 5 c) fun t v => t.returnRow i a v c := by
  simp only [State.takeAccess, read, admitted, window, ne_eq, not_true_eq_false, if_false, State.onRead]
  obtain ⟨t, v⟩ := s.readComb i a.row
  cases v <;> rfl

theorem State.takeAccess_of_ordered_add (add : a.kind = .add) (ordered : w.ord = true) :
    s.takeAccess i a c = s.admitOrdered i m a c := by
  simp only [State.takeAccess, add, admitted, window, ne_eq, not_true_eq_false, if_false, ordered, if_true]

/-- An add-write reads the row, adds in the window's format and writes the sum. -/
theorem State.takeAccess_of_add (add : a.kind = .add) (unordered : w.ord = false) :
    s.takeAccess i a c =
      s.onRead i a.row (·.resolve i a 5 c) fun t old => (t.writeComb i a.row (addRows w.afmt old a.data)).resolve i a 0 c := by
  simp only [State.takeAccess, add, admitted, window, ne_eq, not_true_eq_false, if_false, unordered, Bool.false_eq_true,
    State.onRead]
  obtain ⟨t, v⟩ := s.readComb i a.row
  cases v <;> rfl

theorem State.takeAccess_of_write (write : a.kind = .write) :
    s.takeAccess i a c = (s.writeComb i a.row a.data).resolve i a 0 c := by
  simp only [State.takeAccess, write, admitted, window, ne_eq, not_true_eq_false, if_false]

end Take

/-! ### The sequencers (R387) -/

theorem sequencerApply_of_rows {s : State} {i : Nat} (rows : (s.core i).toApply ≠ 0) :
    sequencerApply s i = s.await i (fun t => decide ((t.core i).toApply < (s.core i).toApply)) bankFuel := by
  simp only [sequencerApply, if_neg rows]

/-- The ready sequencer takes the port for its row, whose window's next comes four cycles later, and adds it to the row held. -/
theorem seqCycle_of_ready {s : State} {i c n : Nat} {w : Win} {a : Access} (port : (s.core i).rport ≤ c)
    (ready : (s.core i).readySeq c = some (n, w, a)) :
    seqCycle s i c =
      let s1 := s.modCore i fun k => { k.takePort_ c (some a.row) with
        wins := Tab.put k.wins n { w with apply := w.apply.drop 1 }, seqNext := Tab.put k.seqNext n (c + 4) }
      let s2 := s1.onRead i a.row (·.resolve i a 5 c) fun t old =>
        (t.writeComb i a.row (addRows w.afmt old a.data)).resolve i a 0 c
      if a.endsTurn && a.src == w.turn then s2.passTurn i n else s2 := by
  simp only [seqCycle, if_neg (Nat.not_lt.mpr port), ready, State.onRead]
  obtain ⟨t, v⟩ := State.readComb _ i a.row
  cases v <;> rfl

/-- Settles O16: each command is the branch of its operation that its hypotheses pick, and so is each access at the port. -/
theorem remoteAccessesAtASlice : Obligations.RemoteAccessesAtASlice := by
  refine ⟨?arrival, ?buffer, ?head, ?judged, ?taken, ?sequencer, ?cycle, ?arrives, ?refused⟩
  case arrival =>
    exact fun _ _ _ _ _ _ flies row here =>
      ⟨fun _ _ landed cargo => congrArg ok (remoteArrival_of_landed flies row here landed cargo),
       fun lost => congrArg ok (remoteArrival_of_lost flies row here lost)⟩
  case buffer => exact fun _ _ _ _ queued => congrArg ok (remoteApply_of_queued queued)
  case head =>
    exact fun _ _ _ _ _ queued port => ⟨State.portHead_of_free queued port, State.portHead_of_busy queued port⟩
  case judged => exact fun _ _ _ _ => State.takeAccess_of_judged
  case taken =>
    exact fun _ _ _ _ _ _ admitted window =>
      ⟨State.takeAccess_of_read admitted window, State.takeAccess_of_ordered_add admitted window,
       State.takeAccess_of_add admitted window, State.takeAccess_of_write admitted window⟩
  case sequencer => exact fun _ _ rows => congrArg ok (sequencerApply_of_rows rows)
  case cycle => exact fun _ _ _ _ _ _ port ready => seqCycle_of_ready port ready
  case arrives =>
    exact fun _ _ _ _ active => ⟨State.arrive_of_free active,
      fun taken places => (State.arrive_of_taken active taken).trans (if_pos places)⟩
  case refused =>
    intro s i c a active taken full
    exact (State.arrive_of_taken active taken).trans (if_neg (by omega))

/-! ### Rewrite, scrub and repair (R260, R263–R266) -/

section Care
variable {s : State} {i : Nat}

section Commands
variable (active : (s.core i).array = none)
include active

theorem rowRewrite_of_queued {p : Nat} {rest : List Nat} (queued : (s.core i).rewrites = p :: rest) :
    rowRewrite s i = s.await i (fun t => (t.core i).rewrites.head? != some p) bankFuel := by
  simp only [rowRewrite, queued, active, Option.isSome_none, Bool.false_eq_true, if_false]

theorem repairDone_of_repair {r : Nat} (repair : (s.core i).repair = some r) :
    repairDone s i = s.await i (fun t => (t.core i).repair.isNone) bankFuel := by
  simp only [repairDone, repair, active, Option.isNone_some, Option.isSome_none, Bool.or_self, Bool.false_eq_true, if_false]

end Commands

theorem scrubStep_of_scrubs (scrubs : (s.core i).scrubs = true) :
    scrubStep s i = ((s.toCt (s.scrubDue i)).modCore i fun k =>
      { k with scrubAt := s.scrubDue i, scrubbing := some (k.fld 0x8050 15 0) }).await i
        (fun t => (t.core i).scrubbing.isNone) bankFuel := by
  simp only [scrubStep, scrubs, Bool.true_eq_false, if_false]

section Cycle
variable {c : Nat} (active : (s.core i).array = none)
include active

theorem maintEnd_of_rewrite {p : Nat} {rest : List Nat} (queued : (s.core i).rewrites = p :: rest) :
    maintEnd s i c =
      if (s.core i).bankIdle (p / 3136) c then s.modCore i fun k => { k.correct p with rewrites := rest } else s := by
  simp only [maintEnd, active, Option.isSome_none, Bool.false_eq_true, if_false, queued]

variable (noRewrite : (s.core i).rewrites = [])
include noRewrite

theorem maintEnd_of_repair {r : Nat} (repair : (s.core i).repair = some r) (idle : (s.core i).bankIdle r c = true) :
    maintEnd s i c = s.repairRow i r := by
  simp only [maintEnd, active, Option.isSome_none, Bool.false_eq_true, if_false, noRewrite, repair, idle, if_true]

theorem maintEnd_of_scrub {p : Nat} (noRepair : (s.core i).repair = none) (scrubbing : (s.core i).scrubbing = some p)
    (idle : (s.core i).bankIdle (p / 3136) c = true) :
    maintEnd s i c = (s.scrubRow i p).modCore i fun k => { k with scrubbing := none } := by
  simp only [maintEnd, active, Option.isSome_none, Bool.false_eq_true, if_false, noRewrite, noRepair, scrubbing, idle, if_true]

end Cycle

/-- A repair moves the bits, the errors and the map entry of its row to the spare row, and is done (R265–R267). -/
theorem State.repairRow_of_spare {r q : Nat} (spare : (s.core i).spareRow (r % 16) = some q) :
    s.repairRow i r =
      let k := s.core i
      let p := k.phys r
      let s3 := ({ s with comb := writeRow s.comb (combAddr i q) (s.physRow i p) }).modCore i fun k' => { k' with
        repair := none, rowMap := Tab.put k'.rowMap r q
        defects := (k.badWords p).foldl (fun d (w : Nat × Bool) => Tab.put d (q * 64 + w.1) w.2)
          (k.defects.filter fun e => e.1 / 64 != p && e.1 / 64 != q)
        dead := k'.dead ++ [p], spareUsed := Tab.put k'.spareUsed (r % 16) (Tab.get [] k'.spareUsed (r % 16) ++ [q]) }
      ((if (k.badWords p).any (·.2) then s3.coreEvent i 0x8060 18 else s3).coreEvent i 0x8060 16).recordRepair i r := by
  simp only [State.repairRow, spare]

end Care

/-! ### The copy engine (R268, R269) -/

section CopyEngine
variable {s : State} {i : Nat} {y : Copy} (copy : (s.core i).copy = some y)
include copy

theorem Core.copying_iff_of_copy : (s.core i).copying = true ↔ (s.core i).copyFrom y.row ≤ 49151 := by
  simp only [Core.copying, copy, decide_eq_true_eq]

theorem copyRow_of_rows (rows : (s.core i).copyFrom y.row ≤ 49151) :
    copyRow s i = s.await i (fun t => (t.core i).copyRow_ != y.row) bankFuel := by
  have goes := (Core.copying_iff_of_copy copy).mpr rows
  have row : (s.core i).copyRow_ = y.row := by simp only [Core.copyRow_, copy]
  simp only [copyRow, goes, Bool.true_eq_false, if_false, row]

theorem copyDone_of_written (read : 49151 < (s.core i).copyFrom y.row) (written : y.flying = 0) :
    copyDone s i =
      (s.modCore i fun k => { k.setFld 0x8078 16 16 1 with copy := none }).mark (blkCORE i + 0x8078) 16 := by
  have noMore : (s.core i).copying = false :=
    Bool.eq_false_iff.mpr fun goes => Nat.not_le.mpr read ((Core.copying_iff_of_copy copy).mp goes)
  simp only [copyDone, copy, noMore, written, and_self, if_true]

/-- With the port free and nothing before it, the copy engine reads its next row, which enters its route; an uncorrectable one
stops it. -/
theorem copyEnd_of_free {c r : Nat} (row : (s.core i).copyFrom y.row = r) (rows : r ≤ 49151) (active : (s.core i).array = none)
    (port : (s.core i).rport ≤ c) (empty : (s.core i).rbuf = []) (free : (s.core i).bankBusy r c = false) :
    copyEnd s i c = (s.modCore i fun k => k.takePort_ c (some r)).onRead i r (·.copyStop i r) fun t v =>
      (t.modCore i fun k =>
        let next := Nat.min 49152 (k.copyFrom (r + 1))
        { k.setFld 0x8078 15 0 next with copy := some { y with row := next, flying := y.flying + 1 } }).launch y.target
          (.copy i) (.access ⟨.copy, r, v, 0, .copy i, 0, 1, none⟩) (rowHops i y.target (c + 3) outRemote) := by
  have goes : ¬ (c < (s.core i).rport ∨ (!(s.core i).rbuf.isEmpty) = true ∨ (s.core i).bankBusy r c = true) := by
    simp [port, empty, free]
  simp only [copyEnd, copy, row, if_neg (Nat.not_lt.mpr rows), State.wakeArray_of_active active, if_neg goes, State.onRead]
  obtain ⟨t, v⟩ := State.readComb _ i r
  cases v <;> rfl

end CopyEngine

/-- Settles O17: REPAIR, SHADOW_WRITE and COPY_GO are their operations as they stand, every other command and cycle the branch
that its hypotheses pick. -/
theorem rowCareOfASlice : Obligations.RowCareOfASlice := by
  refine ⟨?rewrite, ?scrub, ?repair, ?repairDone, ?shadow, ?copyGo, ?copyRow, ?copyDone, ?rewrites, ?scrubs, ?repairs, ?copies⟩
  case rewrite => exact fun _ _ _ _ queued active => congrArg ok (rowRewrite_of_queued active queued)
  case scrub =>
    intro s i enabled noRepair noCopy active
    have scrubs : (s.core i).scrubs = true := by simp [Core.scrubs, enabled, noRepair, noCopy, active]
    exact congrArg ok (scrubStep_of_scrubs scrubs)
  case repair => exact fun _ _ _ _ => rfl
  case repairDone => exact fun _ _ _ repair active => congrArg ok (repairDone_of_repair active repair)
  case shadow => exact fun _ _ _ _ => rfl
  case copyGo => exact fun _ _ _ _ go => congrArg ok (if_neg (Bool.eq_false_iff.not.mpr (not_not_intro go)))
  case copyRow => exact fun _ _ _ copy rows => congrArg ok (copyRow_of_rows copy rows)
  case copyDone => exact fun _ _ _ copy read written => congrArg ok (copyDone_of_written copy read written)
  case rewrites => exact fun _ _ _ _ _ queued active => maintEnd_of_rewrite active queued
  case scrubs =>
    exact fun _ _ _ _ noRewrite noRepair scrubbing active idle => maintEnd_of_scrub active noRewrite noRepair scrubbing idle
  case repairs =>
    exact fun _ _ _ _ _ noRewrite repair active idle spare =>
      (maintEnd_of_repair active noRewrite repair idle).trans (State.repairRow_of_spare spare)
  case copies => exact fun _ _ _ _ copy rows active port empty free => copyEnd_of_free copy rfl rows active port empty free

end Sys2Proof.Machine
end

section
/-! PROOFS.
Streams of the Forager: the program read, the grants of row operations, FWAIT and SIGNAL (spec 09 R278–R286, R291, R302, R303,
10 R318). -/

namespace Sys2Proof.Machine

/-! ### What one row operation finds (R283) -/

/-- Only a write to a host window asks anything of the link and the page. -/
theorem State.hostTakes_of_not_host {s : State} {o : MoveOp} (elsewhere : (o.toReg && o.dst == 2) = false) :
    s.hostTakes o = true := by
  simp only [State.hostTakes, elsewhere, Bool.not_false, Bool.true_or]

section TryGrant
variable (s : State) (k : Core) (c : Nat) (a : Avail) {x : Stream}

theorem State.tryGrant_home_to_queue (home : x.moveOp.src = 0) (queue : x.moveOp.toReg = false) :
    s.tryGrant k c a x =
      if !(k.fqRoom a x.moveOp.dq x.ctx) then (.lacks, a)
      else if a.ports = 0 then (.lacksPort, a)
      else (.given, k.fqTake { a with ports := a.ports - 1 } x.moveOp.dq x.ctx) := by
  have takes : s.hostTakes x.moveOp = true := State.hostTakes_of_not_host (by rw [queue, Bool.false_and])
  simp only [State.tryGrant, if_pos home, queue, takes, Bool.false_eq_true, if_false, Bool.not_true, Bool.or_false]

theorem State.tryGrant_home_to_register (home : x.moveOp.src = 0) (register : x.moveOp.toReg = true) (notHost : x.moveOp.dst ≠ 2) :
    s.tryGrant k c a x =
      if 16 ≤ (k.wqueue x.moveOp.cq).length + Tab.get 0 a.wq x.moveOp.cq then (.lacks, a)
      else if a.ports = 0 then (.lacksPort, a)
      else (.given, { a with
        ports := a.ports - 1, wq := Tab.put a.wq x.moveOp.cq (Tab.get 0 a.wq x.moveOp.cq + 1) }) := by
  have takes : s.hostTakes x.moveOp = true :=
    State.hostTakes_of_not_host (by rw [register, Bool.true_and, beq_eq_false_iff_ne.mpr notHost])
  simp only [State.tryGrant, if_pos home, register, takes, if_true, Bool.not_true, Bool.or_false, Bool.not_eq_true',
    decide_eq_false_iff_not, Nat.not_lt]

theorem State.tryGrant_cellar_to_queue (cellar : x.moveOp.src = 1) (queue : x.moveOp.toReg = false) :
    s.tryGrant k c a x =
      if 16 ≤ (k.rqueue x.moveOp.cq).held c + Tab.get 0 a.rq x.moveOp.cq ∨ k.fqRoom a x.moveOp.dq x.ctx = false ∨
          a.cellar = false ∨ a.credits = 0 then (.lacks, a)
      else (.given, { k.fqTake { a with rq := Tab.put a.rq x.moveOp.cq (Tab.get 0 a.rq x.moveOp.cq + 1) } x.moveOp.dq x.ctx with
        cellar := false, credits := a.credits - 1 }) := by
  simp only [State.tryGrant, cellar, queue, one_ne_zero, if_false, if_true, Bool.false_eq_true, Bool.false_or, Bool.or_eq_true,
    decide_eq_true_eq, Bool.not_eq_true', beq_iff_eq]
  by_cases entry : 16 ≤ (k.rqueue x.moveOp.cq).held c + Tab.get 0 a.rq x.moveOp.cq ∨ k.fqRoom a x.moveOp.dq x.ctx = false
  · rw [if_pos entry, if_pos (entry.imp_right Or.inl)]
  · rw [if_neg entry]
    refine if_congr ?_ rfl rfl
    rw [← or_assoc, or_iff_right entry]

/-- A host read that finds a read queue entry, room at its destination, the host grant, room on its channel, the link and its
page is granted, and takes the host grant of the cycle. -/
theorem State.tryGrant_host_to_queue {pa : Nat} (host : x.moveOp.src = 2) (queue : x.moveOp.toReg = false)
    (entry : (k.rqueue x.moveOp.cq).held c + Tab.get 0 a.rq x.moveOp.cq < 16) (room : k.fqRoom a x.moveOp.dq x.ctx = true)
    (free : a.host = true) (channel : (s.hrows x.moveOp.schan).length + Tab.get 0 a.chan x.moveOp.schan < 64)
    (link : s.lineUp = true) (page : s.translate x.moveOp.srow false = .inl pa) :
    (s.tryGrant k c a x).1 = .given ∧ (s.tryGrant k c a x).2.host = false := by
  have entryFree : ¬ 16 ≤ (k.rqueue x.moveOp.cq).held c + Tab.get 0 a.rq x.moveOp.cq := Nat.not_le.mpr entry
  have channelFree : ¬ 64 ≤ (s.hrows x.moveOp.schan).length + Tab.get 0 a.chan x.moveOp.schan := Nat.not_le.mpr channel
  simp [State.tryGrant, host, queue, entryFree, room, free, channelFree, link, page]

end TryGrant

/-! ### The grants of a cycle (R284) -/

/-- The slots granted, and those that lack only a port, where slot `slot` alone asks and finds `g`. -/
def Grant.plan (slot : Nat) : Grant → List Nat × List Nat
  | .given => ([slot], [])
  | .lacksPort => ([], [slot])
  | .lacks => ([], [])

theorem State.grantPlan_of_one {s : State} {i c slot : Nat} {x : Stream}
    (one : ((s.core i).inOrder c).filter (fun p => p.2.asks c) = [(slot, x)]) :
    s.grantPlan i c = (s.tryGrant (s.core i) c ((s.core i).avail c) x).1.plan slot := by
  simp only [State.grantPlan, one, List.foldl_cons, List.foldl_nil]
  obtain ⟨g, b⟩ := s.tryGrant (s.core i) c ((s.core i).avail c) x
  cases g <;> rfl

/-! ### A granted operation (R278, R285, R291, R302, R303, R318) -/

section Given
variable {s : State} {i slot : Nat} {x : Stream}

theorem State.rowGiven_of_out_of_range (outside : x.moveOp.inRange = false) :
    s.rowGiven i slot x = s.streamFault i slot x.ctx fSTREAMRANGE := by
  simp only [State.rowGiven, if_pos outside]

variable (inside : x.moveOp.inRange = true)
include inside

theorem State.rowGiven_of_leak (leaks : (s.core i).streamLeak x x.moveOp = true) :
    s.rowGiven i slot x = s.streamFault i slot x.ctx fSPECLEAK := by
  simp only [State.rowGiven, inside, Bool.true_eq_false, if_false, leaks, if_true]

variable (sound : (s.core i).streamLeak x x.moveOp = false)
include sound

theorem State.rowGiven_home (home : x.moveOp.src = 0) :
    s.rowGiven i slot x = s.grantHomeRead i slot x x.moveOp (s.cycOf i) := by
  simp only [State.rowGiven, inside, sound, Bool.true_eq_false, Bool.false_eq_true, if_false, if_pos home]

theorem State.rowGiven_cellar (cellar : x.moveOp.src = 1) :
    s.rowGiven i slot x =
      (s.modCore i fun k => (k.grant (s.cycOf i) grantCellar).openRead slot x x.moveOp (s.cycOf i)
        (.cellar x.moveOp.srow)).count48 i 0x710 1 := by
  simp only [State.rowGiven, inside, sound, cellar, Bool.true_eq_false, Bool.false_eq_true, one_ne_zero, if_false, if_true]

theorem State.rowGiven_host {pa : Nat} (host : x.moveOp.src = 2) (page : s.translate x.moveOp.srow false = .inl pa) :
    s.rowGiven i slot x =
      ({ s.modCore i (fun k => (k.grant (s.cycOf i) grantHost).openRead slot x x.moveOp (s.cycOf i)
          (.host x.moveOp.schan x.moveOp.srow)) with nextFlight := s.nextFlight + 1 } : State).issueHost x.moveOp.schan
        { id := s.nextFlight, core := i, slot := slot, stream := x.id, write := false, w := x.moveOp.srow, pa := pa
          queue := x.moveOp.cq, entry := (s.core i).nextId, idx := x.idx, action := x.action, m := x.m, data := 0, lines := []
          since := s.ct } := by
  simp only [State.rowGiven, inside, sound, host, page, Bool.true_eq_false, Bool.false_eq_true, OfNat.ofNat_ne_zero,
    OfNat.ofNat_ne_one, if_false]

end Given

/-- A row read from the home slice for a Forager queue enters it at the end of the cycle after its grant (R285). -/
theorem State.grantHomeRead_to_queue {s s2 : State} {i slot c : Nat} {x : Stream} {o : MoveOp} {v : Row} (queue : o.toReg = false)
    (read : (s.modCore i fun k => (k.grant c slot).noteBank o.srow c).readComb i o.srow = (s2, some v)) :
    s.grantHomeRead i slot x o c = s2.modCore i fun k => { k.setStream slot { x.granted c with doneAt := c + 2 } with
      fq := Tab.put k.fq o.dq { k.queue o.dq with
        rows := (k.queue o.dq).rows ++ [{ row := v, tag := x.tag, at_ := c + 1 }], owner := some x.ctx } } := by
  simp only [State.grantHomeRead, read, if_pos queue]

/-! ### The commands of a stream (R279, R280, R282, R286) -/

theorem State.stands_of_stream {s : State} {i slot : Nat} {x : Stream} (stream : (s.core i).stream slot = some x) :
    s.stands i slot x = true := decide_eq_true stream

theorem Stream.word_pending {x : Stream} {n : Nat} (runs : x.runs = true) (word : wordOp x.word = n) :
    ¬ (x.runs = false ∨ wordOp x.word ≠ n) := by
  simp [runs, word]

section Commands
variable {s : State} {i slot : Nat} {x : Stream} (stream : (s.core i).stream slot = some x)
include stream

/-- The program of a stream that still stands when a port comes free is read and, where it has no load error, runs from its
first open action. -/
theorem programRead_of_loaded {s1 s3 : State} {w : Row} (starts : x.st = 1)
    (port : (s.toCyc i x.from_).await i (fun t => decide (0 < (t.core i).portsLeft (t.cycOf i))) bankFuel = s1)
    (still : (s1.core i).stream slot = some x)
    (own : ((s1.core i).shares x.prow 1 && !((s1.core i).inExtent x.ctx x.tag x.prow 1)) = false)
    (read : (s1.modCore i fun k => (k.grant (s1.cycOf i) (16 + slot)).noteBank x.prow (s1.cycOf i)).readComb i x.prow =
      (s3, some w))
    (loads : s3.loadFaults i { x with words := (programWords w x.half).1, from_ := s1.cycOf i + 3 }
      (programWords w x.half).2 = []) :
    let x1 : Stream := { x with words := (programWords w x.half).1, from_ := s1.cycOf i + 3 }
    programRead s i slot = s3.modCore i fun k => k.setStream slot { x1 with st := 2, action := x1.actionFrom x1.idx 0 } := by
  simp only [programRead, stream, if_neg (not_not_intro starts), port, State.stands_of_stream still, Bool.true_eq_false, own,
    Bool.false_eq_true, if_false, read, loads]

theorem rowGrant_of_pending {u : State} {y : Stream} (runs : x.runs = true) (move : wordOp x.word = 4)
    (comes : s.toCyc i x.next = u) (stream' : (u.core i).stream slot = some y) (runs' : y.runs = true)
    (move' : wordOp y.word = 4) :
    rowGrant s i slot =
      if (u.grantPlan i (u.cycOf i)).1.contains slot then u.rowGiven i slot y else u.holdStream i slot y := by
  simp only [rowGrant, stream, if_neg (Stream.word_pending runs move), comes, stream', if_neg (Stream.word_pending runs' move')]

section Fwait
variable {u : State} (runs : x.runs = true) (fwait : wordOp x.word = 5) (comes : s.toCyc i x.from_ = u)
  (still : (u.core i).stream slot = some x)
include runs fwait comes still

theorem fwaitGrant_of_set (waited : x.from_ < u.cycOf i) (set : (u.core i).flagWas (bits x.word 5 0) (u.cycOf i) = true) :
    fwaitGrant s i slot = u.modCore i fun k =>
      (if bit x.word 50 then k.takeFlag (bits x.word 5 0) (u.cycOf i) else k).setStream slot (x.granted (u.cycOf i)) := by
  simp only [fwaitGrant, stream, comes, if_neg (Stream.word_pending runs fwait), State.stands_of_stream still, Bool.true_eq_false,
    if_false, if_pos (And.intro waited set)]

theorem fwaitGrant_of_clear (was : (u.core i).flagWas (bits x.word 5 0) (u.cycOf i) = false)
    (clear : (u.core i).flag (bits x.word 5 0) = false) : fwaitGrant s i slot = u.holdStream i slot x := by
  simp only [fwaitGrant, stream, comes, if_neg (Stream.word_pending runs fwait), State.stands_of_stream still, Bool.true_eq_false,
    Bool.false_eq_true, and_false, if_false, was, clear]

end Fwait

/-- With every earlier operation completed, a SIGNAL is granted once the last of them was, and sets its flag 3 cycles on. -/
theorem signalGrant_of_completed {t : Nat} (runs : x.runs = true) (signal : wordOp x.word = 6) (opened : x.open_ = 0)
    (committed : x.uncommitted = 0) (comes : Nat.max (s.cycOf i) (Nat.max x.from_ x.doneAt) = t)
    (still : ((s.toCyc i t).core i).stream slot = some x) :
    signalGrant s i slot =
      ((s.toCyc i t).modCore i fun k => k.setStream slot (x.granted t)).sendCtl i (.signal (bits x.word 5 0)) ([], t + 3) := by
  have completed : ¬ (x.open_ ≠ 0 ∨ x.uncommitted ≠ 0) := by simp [opened, committed]
  simp only [signalGrant, stream, if_neg (Stream.word_pending runs signal), if_neg completed, comes, State.stands_of_stream still,
    Bool.true_eq_false, if_false]

end Commands

/-- Settles O19: each command is the branch of its operation that its hypotheses pick, and so are the conditions and the effect
of a grant. -/
theorem streamOperations : Obligations.StreamOperations := by
  refine ⟨?program, ?row, ?home, ?cellar, ?host, ?plan, ?given, ?fwait, ?holds, ?signal, ?homeRead⟩
  case program =>
    exact fun _ _ _ _ _ _ stream starts port still own read loads =>
      congrArg ok (programRead_of_loaded stream starts port still own (Prod.ext rfl read) loads)
  case row =>
    exact fun _ _ _ _ _ _ stream runs move comes stream' runs' move' =>
      congrArg ok (rowGrant_of_pending stream runs move comes stream' runs' move')
  case home =>
    exact fun s k c a _ home => ⟨s.tryGrant_home_to_queue k c a home, s.tryGrant_home_to_register k c a home⟩
  case cellar => exact fun s k c a _ cellar queue => s.tryGrant_cellar_to_queue k c a cellar queue
  case host => exact fun s k c a _ _ host queue => s.tryGrant_host_to_queue k c a host queue
  case plan =>
    intro s i c slot x one
    rw [State.grantPlan_of_one one]
    cases (s.tryGrant (s.core i) c ((s.core i).avail c) x).1 <;> rfl
  case given =>
    exact fun _ _ _ _ => ⟨State.rowGiven_of_out_of_range, State.rowGiven_of_leak, State.rowGiven_home, State.rowGiven_cellar,
      fun _ inside sound => State.rowGiven_host inside sound⟩
  case fwait =>
    exact fun _ _ _ _ _ stream runs fwait comes still waited set =>
      congrArg ok (fwaitGrant_of_set stream runs fwait comes still waited set)
  case holds =>
    exact fun _ _ _ _ _ stream runs fwait comes still was clear =>
      congrArg ok (fwaitGrant_of_clear stream runs fwait comes still was clear)
  case signal =>
    exact fun _ _ _ _ stream runs signal opened committed still =>
      congrArg ok (signalGrant_of_completed stream runs signal opened committed rfl still)
  case homeRead => exact fun _ _ _ _ _ _ _ _ queue read => State.grantHomeRead_to_queue queue read

end Sys2Proof.Machine
end

section
/-! PROOFS.
Shares, retraining and post-package repair of the Cellar (spec 09 R298, 17 R506, R507, R509). -/

namespace Sys2Proof.Machine

section Requests
variable {s : State}

theorem shareChange_of_pending {t : Nat} (pending : s.flag rShare 28 = true) (boundary : s.clearingMultiple 300 = some t) :
    shareChange s = ((s.toCt t).setFld rShare 27 16 ((s.toCt t).fld rShare 11 0)).clrFlag rShare 28 := by
  simp only [shareChange, pending, if_true, boundary]

theorem retrainEnd_of_held {d : Nat} (held : s.devHeld d = true) :
    retrainEnd s d =
      let s2 := (({ s with retraining := Tab.erase s.retraining d } : State).refreshAnew d).event rCellStat 6
      if s2.retraining.isEmpty then s2.clrFlag rCellStat 0 else s2 :=
  if_pos held

theorem pprWrite_of_go {v : W64} (go : bit v 63 = true) :
    pprWrite s v =
      let c := bits v 47 41
      if decide (95 < c) || s.devHeld (devOf c) || (Tab.find s.pprs (devOf c)).isSome || s.fld (rDev (devOf c)) 55 48 == 0 then
        s.event rCellStat 4
      else { s with pprs := Tab.put s.pprs (devOf c) (c, bit v 40, bits v 39 36, bits v 17 0) } := by
  simp only [pprWrite, go, Bool.true_eq_false, if_false]

variable {p : Nat × Nat × Bool × Nat × Nat}

theorem pprBegin_of_requested
    (first : s.pprs.find? (fun p => (Tab.find s.pprBusy p.1).isNone && !s.devHeld p.1) = some p) :
    pprBegin s =
      if s.inClearing then { s.setFlag rCellStat 1 with pprBusy := Tab.put s.pprBusy p.1 s.ct } else s := by
  simp only [pprBegin, first]

/-- The repair in progress ends: it leaves the requests, its single-bit errors are corrected, and it is counted (R507). -/
theorem pprEnd_of_busy (busy : s.pprs.find? (fun p => (Tab.find s.pprBusy p.1).isSome) = some p) :
    pprEnd s =
      let s1 := { s with
        pprs := Tab.erase s.pprs p.1, pprBusy := Tab.erase s.pprBusy p.1
        cdef := s.cdef.filter fun e => !(inDramRow p.2 e.1 && !e.2) }
      let s2 := (s1.setFld (rDev p.1) 55 48 (s1.fld (rDev p.1) 55 48 - 1)).event rCellStat 3
      let s3 := if s.cdef.any (fun e => inDramRow p.2 e.1 && e.2) then s2.event rCellStat 5 else s2
      if s3.pprBusy.isEmpty then s3.clrFlag rCellStat 1 else s3 := by
  simp only [pprEnd, busy]

end Requests

/-- Settles O32: SHARE_WRITE, RETRAIN and FULL_RETRAINING are their operations as they stand, every other command the branch
that its hypotheses pick. -/
theorem cellarSharesRetrainingAndRepair : Obligations.CellarSharesRetrainingAndRepair := by
  refine ⟨?share, ?change, ?retrain, ?begins, ?ends, ?ppr, ?repair, ?complete⟩
  case share => exact fun _ _ _ => rfl
  case change => exact fun _ _ pending boundary => congrArg ok (shareChange_of_pending pending boundary)
  case retrain => exact fun _ _ _ => rfl
  case begins => exact fun _ _ => rfl
  case ends => exact fun _ _ held => congrArg ok (retrainEnd_of_held held)
  case ppr => exact fun _ _ _ go => congrArg ok (pprWrite_of_go go)
  case repair => exact fun _ _ first => congrArg ok (pprBegin_of_requested first)
  case complete => exact fun _ _ busy => congrArg ok (pprEnd_of_busy busy)

end Sys2Proof.Machine
end

section
/-! PROOFS.
Speculation: the instructions of tags and of the expert history table, in slot S0 of an untagged bundle (spec 10 R311, R315, R319,
R320, R322, R327). -/

namespace Sys2Proof.Machine

/-- An instruction of any slot that names no target takes no branch and has the effect of its meaning wherever the bundle is
untagged and that raises no cause and does not stall: tagged bundles may be closed to it (R319). -/
theorem coreSlot_of_untagged_clears_noJump {c : Iss → W32 → Instr} {sl : Slot} {m : Sem}
    {eff : State → Nat → Nat → W16 → W32 → State → State}
    (effect : ∀ s i n hdr op, m.eff ⟨s, i, n, sl, hdr, op⟩ = eff s i n hdr op)
    (meaning : ∀ w op, slotInstr (c w op) = some (w, op, m) := by intros; rfl)
    (issues : ∀ (s : State) (i : CoreIx) (n : CtxIx) (hdr : W16) (op : W32), exec (c (.slot i n sl hdr false) op) s =
      ok (s.issueSlot i n hdr false (c (.slot i n sl hdr false) op)) := by intros; rfl)
    (slot : m.slots.contains sl = true := by rfl)
    (noJump : m.jump = fun _ => none := by rfl) :
    CoreSlot c sl (fun s i n hdr op => untagged hdr && clears m ⟨s, i, n, sl, hdr, op⟩) (fun _ _ _ _ => none) eff := by
  refine coreSlot_of_clears (fun s i n hdr op legal => ?_) meaning issues slot (fun _ _ _ _ _ => by rw [noJump, ite_self]) effect
  obtain ⟨tag, clear⟩ := Bool.and_eq_true_iff.mp legal
  exact ⟨.inl tag, clear⟩

/-- Settles O54: each of the four has the effect of its meaning, and the last clause is the resolution of R311 with the table
entry's place and fields written out. -/
theorem speculationInstructions : Obligations.SpeculationInstructions := by
  refine ⟨?opens, ?train, ?confirm, ?squash, ?resolution⟩
  case opens => exact coreSlot_of_untagged_clears_noJump (m := semSpOpen) fun _ _ _ _ _ => rfl
  case train => exact coreSlot_of_untagged_clears_noJump (m := semSpTrain) fun _ _ _ _ _ => rfl
  case confirm => exact coreSlot_of_untagged_clears_noJump (m := semConfirm) fun _ _ _ _ _ => rfl
  case squash => exact coreSlot_of_untagged_clears_noJump (m := semSquash) fun _ _ _ _ _ => rfl
  case resolution => exact fun _ _ _ => rfl

end Sys2Proof.Machine
end

section
/-! PROOFS.
Row transfers, sync flags and waggle queues: rows, statuses and signals that arrive, the writes that give flags, queues and
bindings to contexts, a message judged, and the instructions of slot X that begin them (spec 11 R334–R354). -/

namespace Sys2Proof.Machine

/-! ### A row returned for a GET (R338, R339) -/

/-- A good row of an operation still awaited is queued as a home-slice write; the last one completes the operation. -/
theorem getRowReturn_of_good {s s1 : State} {i id m0 r0 m z n op : Nat} {f0 f : Flight} {v0 d : Row} {x : XferOp}
    (found : s.flights.find? (fun f => f.id == id) = some f0) (cargo : f0.cargo = .ret m0 v0 r0) (target : f0.target = i)
    (lands : s.landed i id = (s1, some f)) (takes : (s1.dropFlight id).refuses i = false) (row : f.cargo = .ret m d 0)
    (origin : f.origin = .core z n op)
    (awaited : ((s1.dropFlight id).core i).xfers.find? (fun x => x.id == op) = some x) :
    getRowReturn s i id = (s1.dropFlight id).modCore i fun k =>
      let rest := k.xfers.filter (fun y => y.id ≠ op)
      let x1 := { x with got := x.got + 1 }
      { k with
        fwrites := k.fwrites ++ [⟨x.srow + m, d, 0, n, none, x.entry⟩]
        xfers := if x1.got < x1.n then rest ++ [x1] else rest } := by
  simp only [getRowReturn, found, cargo, if_neg (not_not_intro target), lands, takes, Bool.false_eq_true, if_false, row, origin,
    awaited, ne_eq, not_true_eq_false]

/-! ### Statuses, losses and records (R339, R340, R353) -/

/-- The first status of an operation ends it with the reason it carries. -/
theorem statusArrival_of_awaited {s s1 : State} {i id op r : Nat} {x : XferOp}
    (arrives : s.ctlArrives i id = (s1, some (.status op r)))
    (awaited : (s1.core i).xfers.find? (fun x => x.id == op) = some x) : statusArrival s i id = s1.xferDone i x r := by
  simp only [statusArrival, arrives, awaited]

theorem xferStatusArrival_of_transfer {s : State} {i id : Nat} (status : s.isStatus id = true)
    (transfer : s.noteKind i id ≠ some 3) : xferStatusArrival s i id = statusArrival s i id := by
  have answers : (s.isStatus id && s.noteKind i id != some 3) = true := by rw [status, bne_iff_ne.mpr transfer]; rfl
  exact if_pos answers

theorem sendStatusArrival_of_send {s : State} {i id : Nat} (send : s.noteKind i id = some 3) :
    sendStatusArrival s i id = statusArrival s i id := if_pos send

theorem xferLost_of_awaited {s : State} {i n id : Nat} {x : XferOp}
    (awaited : (s.core i).xfers.find? (fun x => x.id == id && x.ctx == n) = some x) :
    xferLost s i n id = (s.toCyc i x.deadline).xferDone i x 12 := by
  simp only [xferLost, awaited]

theorem recordDiscard_of_record {s : State} {i id : Nat} {r : OpRecord}
    (kept : (s.core i).records.find? (fun r => r.id == id) = some r) :
    recordDiscard s i id =
      (s.toCyc i (r.last + 4096)).modCore i fun k => { k with records := k.records.filter (fun x => x.id ≠ id) } := by
  simp only [recordDiscard, kept, recordAfter]

/-! ### Signals and bindings (R343, R344, R349) -/

theorem signalArrival_of_signal {s s1 : State} {i id f : Nat} (signal : s.isStatus id = false)
    (arrives : s.ctlArrives i id = (s1, some (.signal f))) :
    signalArrival s i id =
      if (s1.core i).flagInClear f then s1.count48 i 0xB08 1
      else (s1.modCore i (fun k => k.signalFlag f (s1.cycOf i))).wakeSource i 1 := by
  simp only [signalArrival, signal, arrives, Bool.false_eq_true, if_false]

/-- Bindings are open to writes with no task, and at REPLAY.WAIT. -/
theorem CtxMode.bindOpen_iff (m : CtxMode) : m.bindOpen = true ↔ m = .noTask ∨ m = .waiting .replay := by
  cases m with
  | waiting w => cases w <;> simp [CtxMode.bindOpen]
  | _ => simp [CtxMode.bindOpen]

/-! ### The waggle store (R334, R350, R351) -/

section Store
variable {s s1 : State} {i id q ns m n : Nat} {f0 f : Flight} {e : W32} {d : Row}
  (found : s.flights.find? (fun f => f.id == id) = some f0) (cargo : f0.cargo = .msg q e ns m n d) (target : f0.target = i)
  (lands : s.landed i id = (s1, some f))
include found cargo target lands

theorem waggleJudge_of_refused (refuses : s1.refuses i = true) :
    waggleJudge s i id = (s1.dropFlight id).sendStatus i f.origin 8 f.due := by
  simp only [waggleJudge, found, if_neg (not_not_intro target), cargo, lands, if_pos refuses]

/-- With its last row, a message whose rows have all arrived leaves the fabric and is judged. -/
theorem waggleJudge_of_complete (takes : s1.refuses i = false) (last : n ≤ m + 1)
    (complete : n ≤ (s1.msgRows i f.op f.due).length) :
    waggleJudge s i id =
      ({ s1 with flights := s1.flights.filter (fun g => !(g.target == i && g.isMsg && g.op == f.op)) } : State).judgeMsg i
        f.origin q e ns (rowsNat ((s1.msgRows i f.op f.due).filterMap Flight.msgRow) % 2 ^ (512 * ns)) f.due := by
  simp only [waggleJudge, found, if_neg (not_not_intro target), cargo, lands, takes, Bool.false_eq_true, if_false,
    if_neg (Nat.not_lt.mpr last), if_neg (Nat.not_lt.mpr complete)]

end Store

section Judge
variable {s : State} {i : Nat} {o : Origin} {q ns data a : Nat} {epoch : W32}

theorem State.judgeMsg_of_closed (closed : (s.core i).wqOpen q = false ∨ ((s.core i).wq_ q).epoch ≠ epoch) :
    s.judgeMsg i o q epoch ns data a = s.sendStatus i o 9 (a + 1) := by
  have refused : (!(s.core i).wqOpen q || ((s.core i).wq_ q).epoch != epoch) = true := by simpa using closed
  exact if_pos refused

theorem State.judgeMsg_of_open (opened : (s.core i).wqOpen q = true) (current : ((s.core i).wq_ q).epoch = epoch) :
    s.judgeMsg i o q epoch ns data a =
      (s.modCore i fun k => { k with waggle := Tab.put k.waggle q (((s.core i).wq_ q).place ns data a).1 }).sendStatus i o
        (((s.core i).wq_ q).place ns data a).2 (a + 1) := by
  simp only [State.judgeMsg, opened, current, bne_self_eq_false, Bool.not_true, Bool.or_false, Bool.false_eq_true, if_false]

end Judge

/-- Settles O18: each command is the branch of its operation that its hypotheses pick; the writes of FLAGOWN and WQOWN are their
operations as they stand. -/
theorem transfersReturn : Obligations.TransfersReturn := by
  refine ⟨?row, ?record, ?flagown, ?bind, ?wqown, ?status, ?send, ?lost, ?signal, ?message, ?judge⟩
  case row =>
    exact fun _ _ _ _ _ _ _ _ _ _ _ _ _ _ _ found cargo target lands takes row origin awaited =>
      congrArg ok (getRowReturn_of_good found cargo target lands takes row origin awaited)
  case record => exact fun _ _ _ _ kept => congrArg ok (recordDiscard_of_record kept)
  case flagown => exact fun _ _ _ _ _ => rfl
  case bind => exact fun s _ i n _ _ => congrArg ok (if_congr (CtxMode.bindOpen_iff (s.ctx i n).mode) rfl rfl)
  case wqown => exact fun _ _ _ _ => rfl
  case status =>
    exact fun _ _ _ _ _ _ status transfer arrives awaited =>
      congrArg ok ((xferStatusArrival_of_transfer status transfer).trans (statusArrival_of_awaited (Prod.ext rfl arrives) awaited))
  case send =>
    exact fun _ _ _ _ _ _ send arrives awaited =>
      congrArg ok ((sendStatusArrival_of_send send).trans (statusArrival_of_awaited (Prod.ext rfl arrives) awaited))
  case lost => exact fun _ _ _ _ _ awaited => congrArg ok (xferLost_of_awaited awaited)
  case signal => exact fun _ _ _ _ signal arrives => congrArg ok (signalArrival_of_signal signal (Prod.ext rfl arrives))
  case message =>
    exact fun _ _ _ _ _ _ _ _ _ _ _ _ found cargo target lands =>
      ⟨fun refuses => congrArg ok (waggleJudge_of_refused found cargo target lands refuses),
       fun takes last complete => congrArg ok (waggleJudge_of_complete found cargo target lands takes last complete)⟩
  case judge => exact fun _ _ _ _ _ _ _ _ => ⟨State.judgeMsg_of_closed, State.judgeMsg_of_open⟩

/-! ### The instructions of transfers and signals (R334–R336, R338, R340, R343) -/

/-- Settles O55: each of the five has the effect of its meaning. -/
theorem transferInstructions : Obligations.TransferInstructions :=
  ⟨coreSlot_of_untagged_clears (m := semPut), coreSlot_of_untagged_clears (m := semPutAdd),
   coreSlot_of_untagged_clears (m := semGet), coreSlot_of_untagged_clears (m := semXSig),
   coreSlot_of_untagged_clears (m := semXSigr)⟩

/-! ### The instructions of waggle queues (R348–R350, R354, R360) -/

/-- With a message at the head, Q.POP writes the word at the cursor and advances it, or frees the message with its last word. -/
theorem semQPop_eff_of_head {b : BC} {m : Msg} (head : (b.k.wq_ (qQueue b.op)).head? b.cyc = some m) :
    semQPop.eff b = fun t =>
      let w := b.k.wq_ (qQueue b.op)
      let w1 := if w.cursor + 1 = 8 * m.ns then w.pop b.cyc else { w with cursor := w.cursor + 1 }
      (t.modCore b.core fun k => { k with waggle := Tab.put k.waggle (qQueue b.op) w1 }).writeReg b.core b.ctx (fRd b.op)
        (BitVec.ofNat 64 (field m.data (64 * w.cursor) 64)) 2 := by
  funext t
  simp only [semQPop, head]

/-- Settles O56: each of the five has the effect of its meaning; Q.POP's is written out for the message at the head. -/
theorem waggleInstructions : Obligations.WaggleInstructions := by
  refine ⟨?send, ?pop, ?skip, ?stat, ?sstat⟩
  case send => exact coreSlot_of_untagged_clears (m := semQSend)
  case pop =>
    intro s i n hdr op m ready tag clear head
    have means : CoreSlot .qPop .x (fun s i n hdr op => untagged hdr && clears semQPop ⟨s, i, n, .x, hdr, op⟩)
      (fun _ _ _ _ => none) (fun s i n hdr op => semQPop.eff ⟨s, i, n, .x, hdr, op⟩) := coreSlot_of_untagged_clears
    exact (means s i n hdr op ready (Bool.and_eq_true_iff.mpr ⟨tag, clear⟩)).trans
      (congrArg (fun e => ok (s.issued i n hdr none e)) (semQPop_eff_of_head (b := ⟨s, i, n, .x, hdr, op⟩) head))
  case skip => exact coreSlot_of_untagged_clears (m := semQSkip)
  case stat => exact coreSlot_of_untagged_clears (m := semQStat)
  case sstat => exact coreSlot_of_untagged_clears (m := semQSstat)

end Sys2Proof.Machine
end

section
/-! PROOFS.
The commit unit: the barrier before a step, arrivals and readiness within it, failure tokens and the decision (spec 12 R376, R377,
16 R479–R491). -/

namespace Sys2Proof.Machine

/-- The first RELEASE for the next release sets CMT.REL and schedules the step; it fails the release if it comes too late (R486). -/
theorem release_of_next {s : State} {rel : W32} {t : Nat} (next : rel = w32 (s.relno + 1)) (unset : s.cmt.release = none) :
    release s rel t =
      let s1 := (s.setReg rCmtRel (BitVec.ofNat 64 t)).modCmt fun c => { c with release := some t }
      let s2 := (List.range 320).foldl (fun s i => s.wakeSource i 2) ((s1.raiseAll 649).msix 11)
      if t < s.ct + bits (s.reg rCmtT0) 63 32 then s2.failRel (s.relno + 1) 10 else s2 := by
  have first : ¬(rel ≠ w32 (s.relno + 1) ∨ s.cmt.release.isSome) := by simp [next, unset]
  exact if_neg first

/-- The oldest core arrival leaves the way to the commit unit and counts, and one with FAIL set fails the step (R376, R481). -/
theorem commitArrival_of_oldest {s : State} {x y z : Nat} {fail : Bool} {rest : List (Nat × Nat × Bool × Nat)}
    (oldest : s.cmt.arrivals = (x, y, fail, z) :: rest) :
    commitArrival s =
      let s0 := s.modCmt fun c => { c with arrivals := rest }
      let s1 := s0.setReg rCmtStat (plainCount 26 16 1 (s0.reg rCmtStat))
      (if fail then s1.failStep 8 else s1).tryReady := by
  simp only [commitArrival, oldest]

/-- A token is a split against a COMMIT, no more than a recorded cause against a FAIL, and held while the decision is still to
come (R481, R484). -/
theorem failToken_by_decision (s : State) (rel : W32) :
    failToken s rel =
      let s1 := if s.cmt.failed.contains rel || s.failRecorded rel.toNat then s else s.recordFail rel.toNat 13
      if s.decision rel = some true then s1.split
      else if s.decision rel = some false then s1
      else if s.cmt.failed.contains rel then s
      else s1.modCmt fun c => { c with failed := rel :: c.failed } := by
  unfold failToken
  cases s.decision rel with
  | none => rfl
  | some commit => cases commit <;> rfl

/-- Settles O30: ARRIVE, FAIL, ARRIVED, READY and ALLREADY are their operations as they stand, a write of the configuration is the
one of its register, and every other command is the branch of its operation that its hypotheses pick. -/
theorem swarmBarrierAndCommit : Obligations.SwarmBarrierAndCommit := by
  refine ⟨?arrive, ?fail, ?arrived, ?release, ?step, ?ready, ?allready, ?token, ?arrival, ?deadline, ?commit,
    ?tree, ?t0, ?t1, ?expect⟩
  case arrive => exact fun _ _ => rfl
  case fail => exact fun _ _ => rfl
  case arrived => exact fun _ _ _ _ => rfl
  case release => exact fun _ _ _ next unset => congrArg ok (release_of_next next unset)
  case step => exact fun _ _ released => congrArg ok (by simp only [stepRelease, released])
  case ready => exact fun _ _ _ => rfl
  case allready => exact fun _ _ => rfl
  case token => exact fun s rel _ => congrArg ok (failToken_by_decision s rel)
  case arrival => exact fun _ _ _ _ _ _ oldest => congrArg ok (commitArrival_of_oldest oldest)
  case deadline => exact fun _ running => congrArg ok (if_neg (Nat.not_lt.mpr running))
  case commit => exact fun _ running => congrArg ok (if_neg (Nat.not_lt.mpr running))
  case tree => exact fun | _, _, _, _, rfl => rfl
  case t0 => exact fun | _, _, _, _, rfl => rfl
  case t1 => exact fun | _, _, _, _, rfl => rfl
  case expect => exact fun | _, _, _, _, rfl => rfl

end Sys2Proof.Machine
end

section
/-! PROOFS.
What every step keeps: the queue but for the command taken from it, the canonical form of the memories, the fuse counter's bound
and order, and the Retired state (spec 08, 17, 20 R561–R570). -/

namespace Sys2Proof.Machine

/-! ### One command -/

/-- Where an outcome goes on, the next state has kept what every command keeps of `s`. -/
def OutKeeps (s : State) (o : Out) : Prop := ∀ t, o = .next t → Kept s.k4 t.k4

theorem outKeeps_of_kept {s t : State} (kept : Kept s.k4 t.k4) : OutKeeps s (ok t) := by
  rintro _ ⟨⟩
  exact kept

theorem outKeeps_of_same {s t : State} (same : t.k4 = s.k4) : OutKeeps s (ok t) := outKeeps_of_kept (same ▸ Kept.refl _)

/-- Slots of a bundle leave the four parts, so a slot word keeps them where its meaning on a processor does. -/
theorem outKeeps_issueAt {s : State} {w : Iss} {ins : Instr} {code : Nat} {m : PIn} {op : W32} (keeps : m.keeps) :
    OutKeeps s (ok (issueAt w ins code m op s)) :=
  outKeeps_of_kept (issueAt_kept _ _ _ _ _ _ _ keeps (Kept.refl _))

/-- Every command keeps them: a slot word by its meaning on a processor; a command of the next list because its operation
touches none of the four parts; one of the last, in which time passes or a memory, the flash or a fuse is written, by the law
of its operation. -/
theorem exec_keeps (c : Instr) (s : State) : OutKeeps s (exec c s) := by
  cases c
  case br => exact outKeeps_issueAt pBr_keeps
  case brC => exact outKeeps_issueAt pBrC_keeps
  case brNc => exact outKeeps_issueAt pBrNc_keeps
  case brR => exact outKeeps_issueAt pBrR_keeps
  case call => exact outKeeps_issueAt pCall_keeps
  case loop => exact outKeeps_issueAt pLoop_keeps
  case sLd8 | sLd16 | sLd32 | sLd64 => exact outKeeps_issueAt (pLoad_keeps _)
  case sSt8 | sSt16 | sSt32 | sSt64 => exact outKeeps_issueAt (pStore_keeps _)
  case sWfe => exact outKeeps_issueAt pWfe_keeps
  case sRdcsr => exact outKeeps_issueAt pRdcsr_keeps
  case sWrcsr => exact outKeeps_issueAt pWrcsr_keeps
  case sEret => exact outKeeps_issueAt pEret_keeps
  case nop => exact outKeeps_issueAt pNop_keeps
  case sAdd | sSub | sAnd | sOr | sXor | sShl | sShr | sSra | sMul | sMulh | sMin | sMax | sMinu | sMaxu =>
    exact outKeeps_issueAt (pR_keeps _ _)
  case sAddi | sAndi | sOri | sXori | sShli | sShri | sSrai | sMuli => exact outKeeps_issueAt (pI_keeps _ _)
  case sLi => exact outKeeps_issueAt pLi_keeps
  case sLix => exact outKeeps_issueAt pLix_keeps
  case sRdct => exact outKeeps_issueAt pRdct_keeps
  case sRdjt => exact outKeeps_issueAt pRdjt_keeps
  case sRdcyc => exact outKeeps_issueAt pRdcyc_keeps
  case cSet => exact outKeeps_issueAt pCSet_keeps
  case cSeti => exact outKeeps_issueAt pCSeti_keeps
  case cStep => exact outKeeps_issueAt pCStep_keeps
  case cRd => exact outKeeps_issueAt pCRd_keeps
  case wOpen | wClose | fStart | fStop | fTake | spOpen | confirm | squash | spTrain | put | putAdd | get | xSig | xSigr | qSend
      | qPop | qSkip | qStat | qSstat | waitAt | waitQ | waitF | waitSb | taskStart | taskEnd | replayWait | icachePreload |
      icacheLock | icacheUnlock | cmtArrive | sRdrep | sRdns | sClrns | sRdctx | mGang | mMask | mPass | mPassr | mFree | tmLd |
      tmSt | mvCfg | mvLdv | mvPass | mvFree | vOp | vBld | vExt | vSeed | epRun =>
    exact outKeeps_issueAt pNone_keeps
  case coreReset | testPortInstruction | serviceCompletion | dmaGo | bankSwap | laneFailure | recal | canopyTrain |
      linkEccReread | shareWrite | retrain | fullRetraining | retrainingEnd | ppr | postPackageRepair | hpprComplete |
      droopAlarm | lag | opreqWrite | jobepochWrite | tctlWrite | hallPpsEdge | hallRefLoss | hallRefGood | start | endCmd | go
      | paramWrite | contextClearBegin | claim | complete | eventRaise | swraise | pendingClear | cpRun | cpHalt | cpReset |
      orderedWrite | imageWrite | mapWrite | probe | acquire | leaseRelease | adopt | rollback | readQueueDelivery | resume |
      abort | squashComplete | ehtClear | hchBindWrite | httsync | httsyncDone | dbell | roleSwap | restart | notice |
      comparatorTrip | comparatorClear | kstrResume | kstrAbort | mailboxMctpCommand | setEndpointId | pldmDiscovery |
      getVersion | getCapabilities | negotiateAlgorithms | getDigests | getCertificate | challenge | getMeasurements |
      keyExchange | finish | keyUpdate | heartbeat | endSession | ideKm | verifyComplete | transitionNonce | unlock |
      fenceRequest | hostMemoryRequest | configurationRequest | linkTraining | portReset | ideCheckFailed | hostLineResponse |
      snoop | msiXUnmask | doeDiscovery | tableAccess | getEventRecords | nap | deep | wake | coreWake | capWrite | budgetWrite
      | throttleTrip | throttleEnd | repair | shadowWrite | copyGo | copyDone | flagownWrite | wqownWrite | bindWrite |
      bucketWrite | bucketPartFull | stageWrite | redFlitAccept | commitArrival | arrive | runtimeFail | cmtConfigWrite |
      arrived | release | ready | allready | failToken | tilesWrite =>
    exact outKeeps_of_same (by simp)
  case v48Good | inputLost | stageComplete | stageTimeout | moduleReset | thermalTrip | combApertureAccess |
      cellarApertureAccess | serviceBusGrant | registerWrite | slot | slotReceive | retryRequestTimeout | sideResend |
      dmaRowRead | slotTableSwap | laneDegrade | schedEntry | fullRecalibration | checkBufferFlush | perBankRefresh | mr4Poll |
      refreshPatternChange | wck2dqTracking | shareChange | repay | operatingPointChange | ppsLost | linkEstimate | timeStep |
      acquireComplete | holdoverExpiry | waitAtTargetReached | waitConditionMet | contextSwitch | gatedWake | icacheMiss |
      icacheFillComplete | contextClearEnd | backgroundTileClear | tileRushComplete | storeError | interruptEntry | wfeWake |
      remap | gate | fenceDeepEntry | fenceReturn | returnComplete | streamProgramRead | rowOperationGrant | fwaitGrant |
      signalGrant | foragerWrite | cellarRowLand | writeQueueCommit | streamEnd | streamHalt | confirmResume | confirmComplete |
      hostLineTimeout | beat | takeover | standbyLost | sensorSampleSet | logAppend | sectorErase | keeperStreamPiece |
      requestUpdate | requestFirmwareData | activateFirmware | cpImageActivation | laneCodeBankSwitch | lifeCycleTransition |
      budgetWindow | entryComplete | timerWake | wakeStepReady | wakefail | arrayReady | budgetTakesEffect | powerAverage |
      throttleStart | gladeResume | remoteAccessArrival | remoteBufferApply | sequencerApply | rowRewrite | scrubStep |
      spareRowRepairDone | copyRow | getRowReturn | xferStatusArrival | xferLost | operationRecordDiscard | signalArrival |
      waggleMessageJudge | sendStatus | bucketDeadline | stageFlitForm | stepRelease | stepDeadline | commitPoint |
      passAccumulateStart | blockAccumulate | passResume | passSwap | passDrainComplete | tileMoveComplete | mvLdvComplete |
      mvBlockWrite | mvPassComplete | mvpClearComplete | vAdd | vSub | vMul | vFmas | vMax | vMin | vAbs | vNeg | vScl | vAdds |
      vCmp | vSel | vCvt | vRsum | vRmax | vRmin | vGath | vTrn | vOpComplete | epRunComplete =>
    exact outKeeps_of_kept (by simp)

/-! ### One step -/

theorem step_keeps {s t : State} (next : step s = .next t) : Kept { s with pending := s.pending.tail }.k4 t.k4 := by
  unfold step at next
  split at next
  case h_1 idle =>
    have queue : State.k4 { s with pending := s.pending.tail } = s.k4 := by simp [State.k4, idle]
    injection next with moved
    rw [queue, ← moved]
    exact State.toCt_kept _ _ _ (Kept.refl _)
  case h_2 c rest waiting =>
    rw [waiting]
    exact exec_keeps c _ t next

theorem Kept.memoryWf {s t : State} (kept : Kept s.k4 t.k4) (wf : s.memoryWf = true) : t.memoryWf = true := by
  simp only [State.memoryWf, Bool.and_eq_true] at wf ⊢
  obtain ⟨⟨comb, cellar⟩, flash⟩ := wf
  exact ⟨⟨kept.comb comb, kept.cellar cellar⟩, kept.flash flash⟩

theorem step_fuse {s t : State} (next : step s = .next t) (bound : s.nv.f ≤ 64) : t.nv.f ≤ 64 ∧ s.nv.f ≤ t.nv.f :=
  (step_keeps next).fuse bound

/-- Settles O5: one step is one command or one ct, and each keeps what every operation keeps. -/
theorem stepInvariant : Obligations.StepInvariant :=
  ⟨fun _ _ next wf => (step_keeps next).memoryWf wf, fun _ _ next bound => step_fuse next bound,
   fun _ _ next retired => (step_keeps next).retired retired, fun _ _ next => (step_keeps next).pending⟩

/-! ### The fuse counter (R562) -/

section Fuse
variable {s : State} {c : Nat}

theorem State.markActive_of_advance (advance : slotByte (s.newSlot c) 7 % 2 = 1) (above : s.nv.f < slotByte (s.newSlot c) 6)
    (bound : slotByte (s.newSlot c) 6 ≤ 64) : (s.markActive c).nv.f = slotByte (s.newSlot c) 6 := by
  have below : s.nv.f ≠ 64 := by omega
  simp only [State.markActive, advance, below, above, if_true, if_false, State.setNv]
  exact Nat.min_eq_right bound

theorem State.markActive_of_stay (below : s.nv.f ≠ 64)
    (stays : slotByte (s.newSlot c) 7 % 2 = 0 ∨ slotByte (s.newSlot c) 6 ≤ s.nv.f) : (s.markActive c).nv.f = s.nv.f := by
  rcases stays with plain | notAbove
  · simp only [State.markActive, plain, zero_ne_one, if_false, State.setNv, State.runs]
  · simp only [State.markActive, below, Nat.not_lt.mpr notAbove, if_false, ite_self, State.setNv, State.runs]

/-- At its limit the counter stays, and the refusal is logged. -/
theorem State.markActive_of_limit (limit : s.nv.f = 64) (advance : slotByte (s.newSlot c) 7 % 2 = 1) :
    s.markActive c = ((s.runs c (s.newSlot c)).setNv fun n => { n with
      dir := Tab.put n.dir (2 * c + s.spareHalf c)
        { active := true, seq := (Tab.get {} n.dir (2 * c + (1 - s.spareHalf c))).seq + 1 } }).log 1 2 4 := by
  simp only [State.markActive, advance, limit, if_true]
  rfl

theorem State.markActive_f_of_limit (limit : s.nv.f = 64) : (s.markActive c).nv.f = 64 := by
  have kept : Kept s.k4 (s.markActive c).k4 := by simp
  have range : (s.markActive c).nv.f ≤ 64 ∧ s.nv.f ≤ (s.markActive c).nv.f := kept.fuse (Nat.le_of_eq limit)
  omega

/-- An image whose SVN is the counter's limit is not below the counter, so its signature and digest alone decide. -/
theorem State.imageValid_of_limit (limit : s.nv.f = 64) (svn : slotByte (s.newSlot c) 6 = 64) :
    s.imageValid c = Config.imageSigned (s.newSlot c) := by
  unfold State.newSlot at svn
  simp [State.imageValid, Nv.slotValid, State.newSlot, limit, svn]

end Fuse

/-- Settles O6: the first clause is the step's, the others are the branches of an activation's end. -/
theorem fuseCounter : Obligations.FuseCounter :=
  ⟨fun _ _ next bound => step_fuse next bound, fun _ _ advance above bound => State.markActive_of_advance advance above bound,
   fun _ _ below stays => State.markActive_of_stay below stays,
   fun _ _ limit advance => ⟨State.markActive_of_limit limit advance, State.markActive_f_of_limit limit⟩,
   fun _ _ limit svn => State.imageValid_of_limit limit svn⟩

end Sys2Proof.Machine
end

section
/-! PROOFS.
Glades, the operating point and the time unit: droop alarms, references and steps of time (spec 14 R404–R429). -/

namespace Sys2Proof.Machine

/-! ### Operating points (R416, R417) -/

theorem opChange_of_due {s : State} {t : Nat} (due : s.opTime = some t) (armed : s.flag rOpreq 8 = true)
    (full : s.throttled = false) (noTrip : s.flag rPwrStatM 0 = false) :
    opChange s =
      let s1 := s.toCt (t - 1)
      let p := s1.fld rOpreq 1 0
      let s2 : State := { s1.clrFlag rOpreq 8 with point := p, ct := t, marks := [] }
      s2.regrid (nextMultiple (periodOf p) (t + 640)) (s2.cyc + 1) := by
  have goes : ¬(s.flag rOpreq 8 = false ∨ s.throttled = true ∨ s.flag rPwrStatM 0 = true) := by simp [armed, full, noTrip]
  simp only [opChange, due]
  exact if_neg goes

/-- Settles O25: an alarm, REPAY, LAG and the three writes are their operations as they stand, and the change of the operating
point is the branch in which a change is due and no throttle lasts. -/
theorem gladesAndOperatingPoint : Obligations.GladesAndOperatingPoint := by
  refine ⟨?alarm, ?repay, ?lag, ?opreq, ?change, ?epoch, ?tctl, ?regrid⟩
  case alarm => exact fun _ _ _ => rfl
  case repay => exact fun _ _ => rfl
  case lag => exact fun | _, _, _, rfl => rfl
  case opreq => exact fun _ _ _ => rfl
  case change => exact fun _ _ due armed full noTrip => congrArg ok (opChange_of_due due armed full noTrip)
  case epoch => exact fun _ _ _ => rfl
  case tctl => exact fun _ _ _ => rfl
  case regrid => exact fun _ _ _ => ⟨rfl, rfl, rfl⟩

/-! ### The time unit (R422–R427) -/

section References
variable {s : State}

theorem hallPps_of_source (source : s.ppsSource = true) :
    hallPps s =
      let u := s.setTu fun u => { u with ppsAt := s.ct }
      let o1 := if decide (s.timeState = 1) && !s.tu.stepped then
          (40000000000 * ((s.reg rTseed).toNat : Int) + signed 32 (bits (s.reg rTctl) 31 0)) - 4 * (s.ct : Int)
        else s.ppsOffset
      (u.setOffset o1).setTu fun u => { u with ppsRun := if o1.natAbs ≤ 8 then u.ppsRun + 1 else 0 } := if_pos source

theorem hallPps_of_other (other : s.ppsSource = false) :
    hallPps s =
      let u := s.setTu fun u => { u with ppsAt := s.ct }
      if 256 < s.ppsOffset.natAbs then (u.event rTstat 62).raiseKeep 6 else u :=
  if_neg (Bool.eq_false_iff.mp other)

/-- With neither reference nor a majority to follow, the unit holds on its own oscillator. -/
theorem State.timeSource_of_lost (noRef : s.tu.refGood = false) (noMajority : (s.majority && !s.ppsSource) = false) :
    (s.timeState = 2 → s.timeSource = s.enterTime 4) ∧ (s.timeState = 3 → s.timeSource = s.enterTime 4) ∧
      (s.timeState = 4 → s.timeSource = s) := by
  refine ⟨?_, ?_, ?_⟩ <;> intro state <;> simp [State.timeSource, state, noRef, noMajority]

/-- The one step of ACQUIRE. -/
theorem timeStep_of_acquire {z : Int} (offset : s.tu.offset = some z) (acquire : s.timeState = 1) (first : s.tu.stepped = false) :
    timeStep s =
      let d : Int := 240 * (z.tdiv 960)
      let s1 := (s.toCt (nextMultiple 240 s.ct)).setOffset (z - 4 * d)
      let s2 := s1.setTu fun u => { u with
        stepped := true, qualAt := shiftCt d u.qualAt, ppsAt := shiftCt d u.ppsAt, opAt := shiftCt d u.opAt
        inBand := u.inBand.map (shiftCt d) }
      if d = 0 then s2
      else { s2.event rTstat 63 with
        ct := shiftCt d s2.ct, root := s2.root + ((shiftCt d s2.ct : Nat) : Int) - s2.ct
        nextEdge := shiftCt d s2.nextEdge, prevEdge := shiftCt d s2.prevEdge
        thrBase := (shiftCt d s2.thrBase.1, s2.thrBase.2), thrEnd := shiftCt d s2.thrEnd
        cores := s2.cores.map fun p => (p.1, p.2.shift d)
        refAt := s2.refAt.map fun p => (p.1, shiftCt d p.2), mr4At := s2.mr4At.map fun p => (p.1, shiftCt d p.2)
        bankBlk := s2.bankBlk.map fun p => (p.1, shiftCt d p.2), osc := s2.osc.map fun p => (p.1, shiftCt d p.2)
        wokeAt := []
        retraining := s2.retraining.map fun p => (p.1, shiftCt d p.2), pprBusy := s2.pprBusy.map fun p => (p.1, shiftCt d p.2)
        flushAt := s2.flushAt.map fun p => (p.1, shiftCt d p.2)
        hch := s2.hch.map fun p => (p.1, p.2.map fun h => { h with since := shiftCt d h.since }) } := by
  have steps : ¬(s.timeState ≠ 1 ∨ s.tu.stepped = true) := by simp [acquire, first]
  simp only [timeStep, offset]
  exact if_neg steps

section Acquire
variable (acquire : s.timeState = 1) (stepped : s.tu.stepped = true)
include acquire stepped

theorem acquireComplete_of_source (source : s.ppsSource = true) (run : 3 ≤ s.tu.ppsRun) :
    acquireComplete s = s.enterTime (if s.tu.refGood then 2 else 3) := by
  simp only [acquireComplete, acquire, stepped, source, run, ne_eq, not_true_eq_false, Bool.true_eq_false, or_self, if_false,
    if_true]

theorem acquireComplete_of_band {t : Nat} (other : s.ppsSource = false) (band : s.tu.inBand = some t)
    (majority : s.majority = true) :
    acquireComplete s =
      (s.toCt (t + 100000000)).enterTime (if (s.toCt (t + 100000000)).tu.refGood then 2 else 3) := by
  simp only [acquireComplete, acquire, stepped, other, band, majority, ne_eq, not_true_eq_false, Bool.true_eq_false,
    Bool.false_eq_true, or_self, if_false, if_true]

end Acquire

end References

/-- Settles O26: PPS_LOST, the references' loss and return, the estimate and the expiry are their operations as they stand; the
other commands are the branch that their hypotheses pick. -/
theorem timeUnit : Obligations.TimeUnit := by
  refine ⟨?source, ?other, ?ppsLost, ?refLoss, ?refGood, ?lost, ?estimate, ?step, ?bySource, ?byMajority, ?expiry⟩
  case source => exact fun _ source => congrArg ok (hallPps_of_source source)
  case other => exact fun _ other => congrArg ok (hallPps_of_other other)
  case ppsLost => exact fun _ => rfl
  case refLoss => exact fun _ => rfl
  case refGood => exact fun _ => rfl
  case lost => exact fun _ => State.timeSource_of_lost
  case estimate => exact fun _ => rfl
  case step => exact fun _ _ offset acquire first => congrArg ok (timeStep_of_acquire offset acquire first)
  case bySource => exact fun _ acquire stepped source run => congrArg ok (acquireComplete_of_source acquire stepped source run)
  case byMajority =>
    exact fun _ _ acquire stepped other band majority =>
      congrArg ok (acquireComplete_of_band acquire stepped other band majority)
  case expiry => exact fun _ => rfl

end Sys2Proof.Machine
end

section
/-! PROOFS.
Power: the low-power states and the wakes out of them, the cap, budgets and the throttle (spec 12 R364–R367, 14 R414, 21
R574–R592). -/

namespace Sys2Proof.Machine

/-! ### Entering Nap and Deep (R574, R575) -/

section Control
variable {s : State} {inp i : Nat} (v : W64)

theorem bits_setBits_mode {m : Nat} (fits : m < 4) : bits (setBits v 1 0 m) 1 0 = m :=
  (bits_setBits_self v 1 0 m (by omega) (by omega)).trans (Nat.mod_eq_of_lt fits)

variable (input : inp ≠ 0)
include input

theorem pwrCtl_of_nap :
    pwrCtl s inp i (setBits v 1 0 1) =
      let u := s.setReg (rPwrCtl i) (setBits v 1 0 1 &&& 0xFF78)
      if u.napOk i then u.enter i false else u.event (rPwrStat i) 63 := by
  simp only [pwrCtl, input, if_false, bits_setBits_mode v (by omega : 1 < 4)]

theorem pwrCtl_of_deep :
    pwrCtl s inp i (setBits v 1 0 2) =
      let u := s.setReg (rPwrCtl i) (setBits v 1 0 2 &&& 0xFF78)
      if u.deepOk i then u.enter i true else u.event (rPwrStat i) 63 := by
  simp only [pwrCtl, input, if_false, bits_setBits_mode v (by omega : 2 < 4)]

theorem pwrCtl_of_wake :
    pwrCtl s inp i (setBits v 1 0 3) =
      let u := s.setReg (rPwrCtl i) (setBits v 1 0 3 &&& 0xFF78)
      if (u.core i).fuse = .off then u else u.wakeSource i 4 := by
  simp only [pwrCtl, input, if_false, bits_setBits_mode v (by omega : 3 < 4)]

end Control

theorem entryComplete_of_nap {s : State} {i t : Nat} (entering : (s.core i).power = .napEntry t) :
    entryComplete s i = (s.toCt t).modCore i fun k => { k with
      power := .nap, wakeDue := k.wakeDue.map fun w => (w.1, Nat.max w.2 t) } := by
  simp only [entryComplete, entering]

theorem entryComplete_of_deep {s : State} {i t : Nat} (entering : (s.core i).power = .deepEntry t) :
    entryComplete s i = (s.toCt t).modCore i fun k => { k with
      power := .deep, wakeDue := k.wakeDue.map fun w => (w.1, Nat.max w.2 t) } := by
  simp only [entryComplete, entering]

/-! ### Wakes (R579–R585) -/

section Wake
variable {s : State} {i src t : Nat}

theorem coreWake_of_nap (low : (s.core i).power = .nap) (due : (s.core i).wakeDue = some (src, t)) :
    coreWake s i src = s.setCore i { s.core i with power := .waking false 1 src, wakeAt := t, wakeDue := none } := by
  simp only [coreWake, low, due, if_true]

theorem coreWake_of_deep (low : (s.core i).power = .deep) (due : (s.core i).wakeDue = some (src, t)) :
    coreWake s i src = s.setCore i { s.core i with power := .waking true 1 src, wakeAt := t, wakeDue := none } := by
  simp only [coreWake, low, due, if_true]

theorem timerWake_of_timers {r : List Nat} (timers : s.timers i = t :: r) :
    timerWake s i = (s.toCt (r.foldl Nat.min t)).wakeSource i 5 := by
  simp only [timerWake, timers]

variable {deep : Bool} {step : Nat}

theorem wakeReady_of_waking (waking : (s.core i).power = .waking deep step src) :
    wakeReady s i =
      let t := (s.core i).wakeAt + (wakeStep deep step).1
      let s1 := s.toCt t
      let s2 := s1.setReg (rPwrStat i) (s1.reg (rPwrStat i) ||| BitVec.ofNat 64 ((wakeStep deep step).2 * 2 ^ 8))
      let s3 := s2.modCore i fun k => { k with
        array := if (wakeStep deep step).2 &&& 4 ≠ 0 then none else k.array
        power := .waking deep (step + 1) src, wakeAt := t }
      if step < wakeSteps deep ∨ s3.flag rPwrStatM 0 = true then s3 else s3.firstEdge i src deep := by
  simp only [wakeReady, waking, ite_or]

theorem wakeFail_of_waking (waking : (s.core i).power = .waking deep step src) (remains : step ≤ wakeSteps deep) :
    wakeFail s i =
      ((s.toCt ((s.core i).wakeAt + 2 * (wakeStep deep step).1)).event (rPwrStat i) 62).modCore i fun k =>
        { k with power := if deep then .deep else .nap } := by
  simp only [wakeFail, waking, if_neg (Nat.not_lt.mpr remains)]

theorem arrayReady_of_woken (woken : (s.core i).array = some (t + 1)) :
    arrayReady s i = (s.toCt (t + 1)).modCore i fun k => { k with array := none } := by
  simp only [arrayReady, woken]

/-- A source that the mask enables is due at once in a low state. -/
theorem wakeSource_of_low {code : Nat} (rails : s.hiveOff = false) (enabled : s.wakeOn i code = true)
    (first : (s.core i).wakeDue = none) (low : (s.core i).power = .nap ∨ (s.core i).power = .deep) :
    s.wakeSource i code = s.modCore i fun k => { k with wakeDue := some (code, s.ct) } := by
  rcases low with low | low <;> simp [State.wakeSource, low, rails, enabled, first]

/-- The core after its first edge from Nap: it runs, and a context whose wait is met issues after the wake's cycles. -/
theorem State.firstEdge_core_of_nap (present : s.ct = s.lastEdge) :
    ((s.firstEdge i src false).core i).power = .run ∧
      ((s.firstEdge i src false).core i).phase =
        if [0, 1, 2, 3].any fun n => match ((s.core i).getCtx n).mode with | .ready _ => true | _ => false then
          .waking (s.cyc + 3)
        else .gated := by
  simp only [State.firstEdge, present, if_true, Bool.false_eq_true, if_false, core_modCore]
  exact ⟨trivial, rfl⟩

end Wake

/-- Settles O23: the three writes act by the mode they write; an entry, a wake and its steps are the branch of the core's power
state. -/
theorem powerStates : Obligations.PowerStates := by
  refine ⟨?nap, ?napByHost, ?deep, ?deepByHost, ?wake, ?wakeByHost, ?entered, ?enteredDeep, ?wakes, ?wakesDeep, ?timer, ?ready,
    ?times, ?fails, ?array, ?enter, ?source, ?edge⟩
  case nap =>
    intro s inp i v input u
    have written := congrArg ok (pwrCtl_of_nap (s := s) (i := i) v input)
    exact ⟨fun may => written.trans (congrArg ok (if_pos may)),
      fun mayNot => written.trans (congrArg ok (if_neg (Bool.eq_false_iff.mp mayNot)))⟩
  case napByHost => exact fun _ _ _ _ host => congrArg ok (if_pos host)
  case deep =>
    intro s inp i v input u
    have written := congrArg ok (pwrCtl_of_deep (s := s) (i := i) v input)
    exact ⟨fun may => written.trans (congrArg ok (if_pos may)),
      fun mayNot => written.trans (congrArg ok (if_neg (Bool.eq_false_iff.mp mayNot)))⟩
  case deepByHost => exact fun _ _ _ _ host => congrArg ok (if_pos host)
  case wake =>
    intro s inp i v input u
    have written := congrArg ok (pwrCtl_of_wake (s := s) (i := i) v input)
    exact ⟨fun fused => written.trans (congrArg ok (if_neg fused)), fun off => written.trans (congrArg ok (if_pos off))⟩
  case wakeByHost => exact fun _ _ _ _ host => congrArg ok (if_pos host)
  case entered => exact fun _ _ _ entering => congrArg ok (entryComplete_of_nap entering)
  case enteredDeep => exact fun _ _ _ entering => congrArg ok (entryComplete_of_deep entering)
  case wakes => exact fun _ _ _ _ low due => congrArg ok (coreWake_of_nap low due)
  case wakesDeep => exact fun _ _ _ _ low due => congrArg ok (coreWake_of_deep low due)
  case timer => exact fun _ _ _ _ timers => congrArg ok (timerWake_of_timers timers)
  case ready => exact fun _ _ _ _ _ waking => congrArg ok (wakeReady_of_waking waking)
  case times => decide
  case fails => exact fun _ _ _ _ _ waking remains => congrArg ok (wakeFail_of_waking waking remains)
  case array => exact fun _ _ _ woken => congrArg ok (arrayReady_of_woken woken)
  case enter => exact fun _ _ => ⟨rfl, rfl⟩
  case source => exact fun _ _ _ rails enabled first => ⟨wakeSource_of_low rails enabled first, wakeSource_of_run⟩
  case edge =>
    intro s i src present
    obtain ⟨power, phase⟩ := State.firstEdge_core_of_nap (i := i) (src := src) present
    exact ⟨power, fun met => phase.trans (if_pos met), fun notMet => phase.trans (if_neg (Bool.eq_false_iff.mp notMet))⟩

/-! ### The cap, budgets and the throttle (R364, R367, R586–R592) -/

section Throttle
variable {s : State}

/-- A pending budget takes effect at the first window that begins inside a clearing. -/
theorem budgetEffect_of_clearing {d t : Nat} (armed : s.flag (rBudget d) 31 = true)
    (window : (let b := s.cyc / 256 + 1
      s.edgeOf (256 * (if (s.reg rClrBegin).toNat ≤ s.edgeOf (256 * b) ∨ s.flag rTstat 3 = false then b
        else (s.cyc + s.edgesTo ((s.reg rClrBegin).toNat - 1) + 256) / 256))) = t)
    (clearing : s.inClearingAt t = true) :
    budgetEffect s d = (((s.toCt t).setFld (rBudget d) 49 32 ((s.toCt t).fld (rBudget d) 17 0)).setFld (rBudget d) 31 31 0) := by
  subst window
  simp only [budgetEffect, armed, Bool.true_eq_false, if_false]
  exact if_pos clearing

theorem throttleTrip_of_over (high : 11 ≤ s.monOver) (first : s.flag rPwrStatM 0 = false) :
    throttleTrip s =
      let s1 := (s.setReg rPwrStatM (setBit (setBit (plainCount 47 32 1 (s.reg rPwrStatM)) 0 true) 63 true)).mark rPwrStatM 63
      ((s1.setReg rThrat (BitVec.ofNat 64 s.ct)).raiseKeep 11).failStep 12 := by
  have trips : ¬(s.monOver < 11 ∨ s.flag rPwrStatM 0 = true) := by simp [high, first]
  exact if_neg trips

theorem throttleStart_of_tripped (tripped : s.flag rPwrStatM 0 = true) (full : s.throttled = false) :
    throttleStart s =
      let s1 := s.toCt (nextMultiple 240 ((s.reg rThrat).toNat + 1))
      let s2 : State := { s1 with
        throttled := true, thrBase := (s1.lastEdge, s1.cyc), nextEdge := s1.lastEdge + 2 * s1.period }
      ((List.range 644).filter s2.gladeRuns).foldl (fun s g => s.raiseLag g) s2 := by
  have starts : ¬(s.flag rPwrStatM 0 = false ∨ s.throttled = true) := by simp [tripped, full]
  exact if_neg starts

theorem gladeResume_of_ended (throttled : s.throttled = true) (ended : s.flag rPwrStatM 0 = false) :
    gladeResume s =
      let s1 := s.toCt (nextMultiple 240 s.thrEnd)
      let p := periodOf s1.point
      let e := nextMultiple p (nextMultiple 240 s.thrEnd + 640)
      let s2 := (({ s1 with throttled := false } : State).regrid e (s1.thrBase.2 + (e - s1.thrBase.1) / p)).toCt e
      s2.cores.foldl (fun s q => s.resumeWake q.1 q.2.power) s2 := by
  have resumes : ¬(s.throttled = false ∨ s.flag rPwrStatM 0 = true) := by simp [throttled, ended]
  exact if_neg resumes

end Throttle

/-- Settles O24: the writes of the cap and of a budget, a window, an average and the throttle's end are their operations as they
stand, the others the branch that their hypotheses pick. -/
theorem capBudgetsAndThrottle : Obligations.CapBudgetsAndThrottle := by
  refine ⟨?cap, ?budget, ?effect, ?window, ?average, ?trip, ?start, ?ends, ?resume⟩
  case cap => exact fun _ _ _ => rfl
  case budget => exact fun _ _ _ _ => rfl
  case effect => exact fun _ _ _ armed window clearing => congrArg ok (budgetEffect_of_clearing armed window clearing)
  case window => exact fun _ _ => rfl
  case average => exact fun _ _ => rfl
  case trip => exact fun _ high first => congrArg ok (throttleTrip_of_over high first)
  case start => exact fun _ tripped full => congrArg ok (throttleStart_of_tripped tripped full)
  case ends => exact fun _ => rfl
  case resume => exact fun _ throttled ended => congrArg ok (gladeResume_of_ended throttled ended)

end Sys2Proof.Machine
end

section
/-! PROOFS.
Canopy links: a slot sent, a slot received and asked for again, DMA channels, the banks of the slot tables, lanes and calibration
(spec 15). -/

namespace Sys2Proof.Machine

/-! ### A slot sent (R432, R436, R454) -/

section Slot
variable {s : State} {k : Nat}

theorem slotSend_of_up (up : s.linkUp k = true) :
    slotSend s k =
      let n0 := Nat.max (s.link k).nextSlot ((s.ct + slotCt - 1) / slotCt)
      let n := if (s.link k).single && n0 % 2 = 1 then n0 + 1 else n0
      let r := (s.toCt (slotCt * n)).slotFlit k n
      (r.1.send (.slot k n (slotImage r.2 (r.1.controlWord k n)))).modLink k fun l => { l with
        nextSlot := n + (if l.single then 2 else 1), racks := l.racks.drop 1
        store := (l.store ++ (if Hdr.scheduled r.2.hdr then [(n, r.2)] else [])).filter fun x => decide (n < x.1 + 40)
        answered := l.answered.filter fun a => decide (n < a + 40), rxOffs := l.rxOffs.filter fun p => decide (n < p.1 + 512)
        carried := l.carried.filter fun m => decide (n < m + relaySpan)
        crossLost := l.crossLost.filter fun m => decide (n < m + 64) } :=
  if_neg (by rw [up]; decide)

theorem State.slotFlit_of_unscheduled {n : Nat} (unscheduled : s.linkState k = 2) : s.slotFlit k n = s.takeSide k n :=
  if_pos unscheduled

variable {n : Nat} (scheduled : s.linkState k ≠ 2)
include scheduled

theorem State.slotFlit_of_send (send : s.entry k n / 8192 = 1) : s.slotFlit k n = s.sendFlit k n (s.entry k n % 16) := by
  simp only [State.slotFlit, scheduled, if_false, send]

theorem State.slotFlit_of_forward (forward : s.entry k n / 8192 = 2) :
    s.slotFlit k n = if s.entry k n % 32 < 24 then s.forward k (s.entry k n % 32) n else (s, voidFlit) := by
  simp only [State.slotFlit, scheduled, if_false, forward]

theorem State.slotFlit_of_retry (retry : s.entry k n / 8192 = 3) : s.slotFlit k n = s.retrySlot k n := by
  simp only [State.slotFlit, scheduled, if_false, retry]

/-- Every other action of the table's entry leaves the slot to side traffic. -/
theorem State.slotFlit_of_side (side : s.entry k n / 8192 = 0 ∨ 4 ≤ s.entry k n / 8192) :
    s.slotFlit k n = s.takeSide k n := by
  simp only [State.slotFlit, scheduled, if_false]
  generalize s.entry k n / 8192 = action at side ⊢
  match action, side with
  | 0, _ | _ + 4, _ => rfl
  | 1, side | 2, side | 3, side => omega

end Slot

/-! ### A slot received (R434, R449) -/

section Receive
variable {s : State} {k n fec : Nat} {image : Image} {oneLane : Bool} {rx : Int} (up : s.linkUp k = true)
include up

theorem slotReceive_of_uncorrectable (bad : 2 ≤ fecOf fec 0 ∨ 2 ≤ fecOf fec 1) :
    slotReceive s k n image fec oneLane rx =
      let t := ((4 * slotCt * (n + if oneLane then 2 else 1) : Nat) + rx).toNat
      (((s.toCt ((t + 3) / 4 + slotCt)).countMod 32 32 (rCanoCnt k 0)
        ((fecOf fec 0 == 1).toNat + (fecOf fec 1 == 1).toNat)).countLink k 1).slotLost k n := by
  simp only [slotReceive, up, Bool.true_eq_false, if_false, bad, if_true]

theorem slotReceive_of_good (good0 : fecOf fec 0 < 2) (good1 : fecOf fec 1 < 2) :
    slotReceive s k n image fec oneLane rx =
      let t := ((4 * slotCt * (n + if oneLane then 2 else 1) : Nat) + rx).toNat
      let f : Flit := ⟨BitVec.ofNat 128 (bits image 127 0), BitVec.ofNat 2048 (bits image 2175 128)⟩
      let s3 := ((s.toCt ((t + 3) / 4 + slotCt)).countMod 32 32 (rCanoCnt k 0)
        ((fecOf fec 0 == 1).toNat + (fecOf fec 1 == 1).toNat)).readControl k n rx (BitVec.ofNat 64 (bits image 2239 2176))
      if Hdr.type f.hdr = 1 ∨ Hdr.type f.hdr = 2 then (if 3 ≤ s3.linkState k then s3.scheduledFlit k n t f else s3)
      else if Hdr.type f.hdr = 3 ∨ Hdr.type f.hdr = 5 then s3.acceptSide k f.hdr f.body else s3 := by
  have good : ¬(2 ≤ fecOf fec 0 ∨ 2 ≤ fecOf fec 1) := by omega
  simp only [slotReceive, up, Bool.true_eq_false, if_false, good]
  generalize Hdr.type _ = ty
  match ty with
  | 0 | 1 | 2 | 3 | 4 | 5 | _ + 6 => simp

end Receive

theorem retryTimeout_of_asked {s : State} {k m : Nat} {rest : List Nat} (asked : (s.link k).asks = m :: rest) :
    retryTimeout s k = ((s.toCt (slotCt * (m + 40))).modLink k fun l => { l with asks := rest }).failCanopy k 4 m := by
  simp only [retryTimeout, asked]

theorem sideResend_of_unacked {s : State} {k q m : Nat} {f : SideFlit} {rest : List (Nat × Nat × SideFlit)}
    (sent : (s.link k).unacked = (q, m, f) :: rest) :
    sideResend s k = (s.toCt (slotCt * (m + 128))).sideDue k ((s.toCt (slotCt * (m + 128))).ct / slotCt) := by
  simp only [sideResend, sent]

/-- Settles O27: each command is the branch of its operation that its hypotheses pick, and the flit of a slot is the one of the
link's state and its table's entry. -/
theorem canopySlots : Obligations.CanopySlots := by
  refine ⟨?send, ?flit, ?lost, ?good, ?timeout, ?resend⟩
  case send => exact fun _ _ up => congrArg ok (slotSend_of_up up)
  case flit =>
    exact fun _ _ _ => ⟨State.slotFlit_of_unscheduled, State.slotFlit_of_send, State.slotFlit_of_forward, State.slotFlit_of_retry,
      State.slotFlit_of_side⟩
  case lost =>
    exact fun _ _ _ image _ oneLane _ up bad =>
      congrArg ok (slotReceive_of_uncorrectable (image := image) (oneLane := oneLane) up bad)
  case good =>
    intro s link n image fec oneLane rx f t up good0 good1 flit time
    subst flit time
    exact congrArg ok (slotReceive_of_good (image := image) (oneLane := oneLane) up good0 good1)
  case timeout => exact fun _ _ _ _ asked => congrArg ok (retryTimeout_of_asked asked)
  case resend => exact fun _ _ _ _ _ _ sent => congrArg ok (sideResend_of_unacked sent)

/-! ### DMA channels (R440, R458) -/

/-- DMA_GO is a write of the channel's CTL with GO set, which touches no other field of the word. -/
theorem dmaGo_eq (s : State) (e c : Nat) (v : W64) :
    dmaGo s e c v =
      let r := rTx e c 2
      let clear (x : W64) : W64 := if bit v 19 && !bit (s.kept r) 19 then setBit x 19 false else x
      if bit (s.reg r) 18 || bit (s.reg r) 17 || bit v 17 then s.setReg r (setBit (clear (s.reg r)) 19 true)
      else { s.setReg r (setBit (clear (setBits (s.reg r) 17 0 (bits v 15 0))) 18 true) with
        dma := Tab.put s.dma (16 * e + c) 0 } := by
  have go : bit (setBit v 16 true) 16 = true := getLsbD_setBits v 16 16 1 16 (by omega)
  have clears : bit (setBit v 16 true) 19 = bit v 19 := bit_setBits_other v 16 16 1 19 (by omega) (by omega)
  have fed : bit (setBit v 16 true) 17 = bit v 17 := bit_setBits_other v 16 16 1 17 (by omega) (by omega)
  have rows : bits (setBit v 16 true) 15 0 = bits v 15 0 := bits_setBits_other v 16 16 1 15 0 (by omega) (by omega)
  simp only [dmaGo, txCtlWrite, go, clears, fed, rows, if_true]

theorem dmaRow_of_ready {s : State} {e c : Nat} (busy : s.flag (rTx e c 2) 18 = true) (room : (s.fifo e c).length ≤ 62)
    (free : s.dmaHeld e c = false) :
    dmaRow s e c =
      let s0 := s.toCt (s.reg (rTx e c 3)).toNat
      let j := Tab.get 0 s0.dma (16 * e + c)
      let got := s0.dmaSource e c j
      if got.2.isNone then got.1.dmaEnd e c true
      else
        let last := decide (got.1.fld (rTx e c 2) 15 0 ≤ j)
        let fl := (dataFlits (s0.reg (rTx e c 1)) j last (got.2.getD 0)).map fun f =>
          (⟨f, bits (s0.reg (rTx e c 1)) 62 58 + 1, 0⟩ : FifoFlit)
        let s2 : State := { got.1.setFifo e c (got.1.fifo e c ++ fl) with dma := Tab.put got.1.dma (16 * e + c) (j + 1) }
        if last then s2.dmaEnd e c false else s2 := by
  have reads : ¬(s.flag (rTx e c 2) 18 = false ∨ 62 < (s.fifo e c).length ∨ s.dmaHeld e c = true) := by simp [busy, room, free]
  simp only [dmaRow, reads, if_false]
  obtain ⟨s1, row⟩ := State.dmaSource _ e c _
  cases row with
  | none => rfl
  | some v => rfl

/-! ### Banks, lanes and calibration (R437, R454–R456) -/

section Links
variable {s : State} {k t : Nat}

theorem tableSwap_of_pending (pending : s.flag rBank 1 = true) (boundary : s.clearingMultiple slotCycle = some t) :
    tableSwap s = ((s.toCt t).clrFlag rBank 1).setFld rBank 0 0 (1 - s.fld rBank 0 0) := by
  simp only [tableSwap, pending, Bool.true_eq_false, if_false, boundary]

theorem laneFailure_of_up (lane : Bool) (up : s.linkUp k = true) :
    laneFailure s k lane =
      let s2 := (s.setFld (rCanoStat k) (11 + lane.toNat) (11 + lane.toNat) 0).modLink k fun l => { l with ldeg := true }
      if s2.fld (rCanoStat k) 12 11 = 0 then (s2.unschedule k).setFld (rCanoStat k) 2 0 0 else s2.degrade k :=
  if_neg (by rw [up]; decide)

theorem laneDegrade_of_seen {m : Nat} (seen : (s.link k).ldegSeen = some m) (both : (s.link k).single = false)
    (up : s.linkUp k = true) :
    laneDegrade s k =
      let n := (m + 65) / 2 * 2
      let s1 := s.toCt (slotCt * n)
      let lost := if Config.lostLane s1.free then 10 else 9
      let s2 : State := { s1.setFld (rCanoStat k) lost lost 0 with free := s1.free + 1 }
      (s2.modLink k fun l => { l with single := true, nextSlot := Nat.max l.nextSlot n }).degrade k := by
  have degrades : ¬((s.link k).single = true ∨ s.linkUp k = false) := by simp [both, up]
  simp only [laneDegrade, seen, degrades, if_false]

theorem schedEntry_of_met (state : s.linkState k = 2) (lanes : s.fld (rCanoStat k) 12 9 = 15)
    (calibrated : (s.link k).calibrated = true) (admitted : s.admitted k = true) (qual : s.flag rTstat 3 = true)
    (neighbour : s.flag (rCanoStat k) 14 = true) (boundary : s.clearingMultiple slotCycle = some t) :
    schedEntry s k = (s.toCt t).setFld (rCanoStat k) 2 0 3 := by
  simp only [schedEntry, state, lanes, calibrated, admitted, qual, neighbour, and_self, if_true, boundary]

/-- A calibration requested, or the first since the link came up, measures inside a clearing. -/
theorem fullRecal_of_clearing {tx alpha delay delayr : W16} {s0 : State} (up : s.linkUp k = true)
    (wanted : s.flag (rCanoStat k) 15 = true ∨ (s.link k).calibrated = false)
    (begins : (if s.inClearing then s else s.toCt (s.reg rClrBegin).toNat) = s0) (clearing : s0.inClearing = true) :
    fullRecal s k tx alpha delay delayr =
      let loop := 4 + (delay.toNat + 111) / 112 + (delayr.toNat + 111) / 112
      let s1 := s0.setReg (rCanoCal k)
        (BitVec.ofNat 64 (delay.toNat + alpha.toNat * 2 ^ 16 + loop % 256 * 2 ^ 40 + delayr.toNat * 2 ^ 48))
      let s2 := (s1.clrFlag (rCanoStat k) 15).setFld (rCanoStat k) 12 9 15
      let s3 := if s2.linkState k = 4 then s2.setFld (rCanoStat k) 2 0 2 else s2
      let s4 := s3.modLink k fun l => { l with
        calibrated := true, ldeg := false, ldegSeen := none, single := false, txOff := signed 16 tx.toNat }
      let s5 := s4.queueSide (edgeOfLink k, 15) k ⟨false, Config.calDest k % 2 ^ 17, 0, Config.calBody (signed 16 tx.toNat)⟩
      if s5.admitted k then s5 else s5.unschedule k := by
  have measures : ¬(s.linkUp k = false ∨ s.flag (rCanoStat k) 15 = false ∧ (s.link k).calibrated = true) := by
    rcases wanted with wanted | wanted <;> simp [up, wanted]
  simp only [fullRecal, measures, if_false, begins, clearing, Bool.true_eq_false]

theorem canopyTrain_of_down {lanes : Nat} (enabled : s.flag (rCanoCtl k) 0 = true) (down : s.linkUp k = false) :
    canopyTrain s k lanes =
      if lanes % 4 = 0 ∨ lanes / 4 % 4 = 0 then s.setFld (rCanoStat k) 2 0 1
      else ((s.setFld (rCanoStat k) 12 9 lanes).setFld (rCanoStat k) 2 0 2).modLink k fun l => {
        side := l.side, unacked := l.unacked, again := l.again, codeNew := l.codeNew
        nextSlot := (s.ct + slotCt - 1) / slotCt
        single := decide (lanes % 4 ≠ 3), ldeg := decide (lanes / 4 % 4 ≠ 3) } := by
  have trains : ¬(s.flag (rCanoCtl k) 0 = false ∨ s.linkUp k = true) := by simp [enabled, down]
  exact if_neg trains

end Links

/-- Settles O28: BANK_SWAP and RECAL are their operations as they stand, every other command the branch that its hypotheses
pick. -/
theorem canopyChannelsAndLinks : Obligations.CanopyChannelsAndLinks := by
  refine ⟨?go, ?row, ?swap, ?table, ?failure, ?degrade, ?entry, ?recal, ?full, ?train⟩
  case go => exact fun s _ v edge ch => congrArg ok (dmaGo_eq s edge ch v)
  case row => exact fun _ _ _ busy room free => congrArg ok (dmaRow_of_ready busy room free)
  case swap => exact fun _ _ => rfl
  case table => exact fun _ _ pending boundary => congrArg ok (tableSwap_of_pending pending boundary)
  case failure => exact fun _ _ lane up => congrArg ok (laneFailure_of_up lane up)
  case degrade => exact fun _ _ _ seen both up => congrArg ok (laneDegrade_of_seen seen both up)
  case entry =>
    exact fun _ _ _ state lanes calibrated admitted qual neighbour boundary =>
      congrArg ok (schedEntry_of_met state lanes calibrated admitted qual neighbour boundary)
  case recal => exact fun _ _ _ => rfl
  case full =>
    exact fun _ _ _ _ _ _ _ up wanted begins clearing => congrArg ok (fullRecal_of_clearing up wanted begins clearing)
  case train => exact fun _ _ _ enabled down => congrArg ok (canopyTrain_of_down enabled down)

end Sys2Proof.Machine
end

section
/-! PROOFS.
Buckets and the stages of the chain reduction units: their words, a bucket's parts and deadline, a RED flit accepted, and a flit
formed or missed (spec 16 R459–R479). -/

namespace Sys2Proof.Machine

/-! ### Buckets (R461, R462) -/

section Bucket
variable {s : State} {i j : Nat} (valid : bit (s.reg (rBkt j 0)) 63 = true)
include valid

theorem bucketPart_of_full (holds : (s.bucketCores j).contains i = true) (full : s.partSize j ≤ Tab.get 0 (s.core i).wcount j)
    (released : s.released = true) :
    bucketPart s j i =
      let s1 : State := if s.cmt.parts.contains (j, i) then s
        else { s with cmt := { s.cmt with parts := (j, i) :: s.cmt.parts } }
      if (s1.bucketCores j).all (fun x => s1.cmt.parts.contains (j, x)) then s1.setFlag (rBkt j 3) 63 else s1 := by
  have reports : ¬(bit (s.reg (rBkt j 0)) 63 = false ∨ (s.bucketCores j).contains i = false ∨
      Tab.get 0 (s.core i).wcount j < s.partSize j ∨ s.released = false) := by
    rw [valid, holds, released]
    simpa using full
  exact if_neg reports

theorem bucketDeadline_of_running (running : 2 ≤ s.phase) :
    bucketDeadline s j =
      let s1 := s.toCt ((s.reg rCmtRel).toNat + bits (s.reg (rBkt j 3)) 39 0)
      if s1.flag (rBkt j 3) 63 then s1 else s1.failRel (s1.reg rCmtRelno).toNat 1 := by
  have judged : ¬(bit (s.reg (rBkt j 0)) 63 = false ∨ s.phase < 2) := by
    simp only [valid, Bool.true_eq_false, false_or]
    omega
  exact if_neg judged

end Bucket

/-! ### A RED flit accepted (R472, R476) -/

section Accept
variable {s : State} {link index kind e k : Nat} {f : Flit} {w : W64}
  (oldest : s.redIn.find? (fun p => p.1 == link) = some (link, f)) (running : 2 ≤ s.phase)
  (place : bits f.hdr 65 32 % 2 ^ 22 = index) (sort : bits f.hdr 65 32 / 2 ^ 22 % 4 = kind) (carries : kind ≠ 3)
  (stage : s.redStage link (bits f.hdr 77 66) index kind = some (e, k, w))
include oldest running place sort carries stage

/-- A flit of a stage is judged by its residues, then by whether it has come before and whether the buffer has room. -/
theorem redAccept_of_stage :
    redAccept s link =
      let s0 : State := { s with redIn := s.redIn.erase (link, f) }
      if residues kind (redLanes kind f.body.toNat).1 ≠ (redLanes kind f.body.toNat).2 then s0.mismatch e (some link)
      else if s.redSeen.contains (4096 * e + k, index) then s0
      else if 64 ≤ (s.inbuf.filter fun x => x.cru == e && x.link == link).length then s0.failStep 6
      else { s0 with
        redSeen := (4096 * e + k, index) :: s.redSeen
        inbuf := s.inbuf ++ [⟨e, link, bits f.hdr 77 66, index, kind, f.body⟩] } := by
  have judged : ¬(kind = 3 ∨ s.phase < 2) := by omega
  simp only [redAccept, oldest, place, sort, judged, if_false, stage]

theorem redAccept_of_new (new : s.redSeen.contains (4096 * e + k, index) = false)
    (match_ : residues kind (redLanes kind f.body.toNat).1 = (redLanes kind f.body.toNat).2)
    (room : (s.inbuf.filter fun x => x.cru == e && x.link == link).length < 64) :
    redAccept s link = { s with
      redIn := s.redIn.erase (link, f), redSeen := (4096 * e + k, index) :: s.redSeen
      inbuf := s.inbuf ++ [⟨e, link, bits f.hdr 77 66, index, kind, f.body⟩] } := by
  rw [redAccept_of_stage oldest running place sort carries stage]
  simp only [ne_eq, match_, not_true_eq_false, new, Bool.false_eq_true, Nat.not_le.mpr room, if_false]

theorem redAccept_of_mismatch (differ : residues kind (redLanes kind f.body.toNat).1 ≠ (redLanes kind f.body.toNat).2) :
    redAccept s link = ({ s with redIn := s.redIn.erase (link, f) } : State).mismatch e (some link) := by
  rw [redAccept_of_stage oldest running place sort carries stage]
  exact if_pos differ

end Accept

/-! ### A flit formed (R463, R471, R477, R478) -/

section Form
variable {s : State} {e k due : Nat} (running : 2 ≤ s.phase) (valid : bit (s.reg (rStg e k 0)) 63 = true)
  (remains : s.progress e k < Stage.nflits (s.reg (rStg e k 0)))
  (turn : ¬(Stage.toFifo (s.reg (rStg e k 0)) = true ∧ s.stageWaits e k (s.reg (rStg e k 0)) = true))
include running valid remains turn

theorem stageForm_goes :
    ¬(s.phase < 2 ∨ bit (s.reg (rStg e k 0)) 63 = false ∨ Stage.nflits (s.reg (rStg e k 0)) ≤ s.progress e k ∨
      (Stage.toFifo (s.reg (rStg e k 0)) = true ∧ s.stageWaits e k (s.reg (rStg e k 0)) = true)) := by
  simp only [valid, turn, Bool.true_eq_false, or_false, false_or]
  omega

variable (slot : s.stageSlot e k = some due)
include slot

theorem stageForm_of_late (fifo : Stage.toFifo (s.reg (rStg e k 0)) = true)
    (late : slotCt * due - 112 < s.ct ∨ (decide (Stage.isrc (s.reg (rStg e k 0)) < 24) && (s.stageInput e k).isNone) = true) :
    stageForm s e k = s.stageMissed e k due (s.reg (rStg e k 0)) (s.stageInput e k) := by
  have goes := stageForm_goes running valid remains turn
  have misses : (Stage.toFifo (s.reg (rStg e k 0)) && decide (slotCt * due - 112 < s.ct) || (Stage.toFifo (s.reg (rStg e k 0)) &&
      (decide (Stage.isrc (s.reg (rStg e k 0)) < 24) && (s.stageInput e k).isNone))) = true := by
    rcases late with late | late <;> simp [fifo, late]
  simp only [stageForm, goes, if_false, slot, misses, if_true]

theorem stageForm_of_ready
    (present : (decide (Stage.isrc (s.reg (rStg e k 0)) < 24) && (s.stageInput e k).isNone) = false)
    (inTime : ¬(Stage.toFifo (s.reg (rStg e k 0)) = true ∧ slotCt * due - 112 < s.ct)) :
    stageForm s e k =
      let w := s.reg (rStg e k 0)
      let w1 := s.reg (rStg e k 1)
      let index := Stage.first w + s.progress e k
      let kind := s.stageKind w
      let inp := s.stageInput e k
      let r := (if Stage.toFifo w then s.toCt (slotCt * due - 448) else s).localOperand e w w1 kind index
      let t := r.1.formTurn e
      let lanes := combineLanes kind (inp.map (fun x => redLanes kind x.body.toNat)) r.2.2
      if r.2.1 = false then ((r.1.stageMark e k due w inp).stageFill e w due).failStep 3
      else if Stage.toFifo w && decide (slotCt * due - 112 < t.ct) then t.stageMissed e k due w inp
      else (t.stageMark e k due w inp).stageOut e w w1 kind index due lanes.1 lanes.2 := by
  have goes := stageForm_goes running valid remains turn
  have early : (Stage.toFifo (s.reg (rStg e k 0)) && decide (slotCt * due - 112 < s.ct)) = false := by simpa using inTime
  simp only [stageForm, goes, if_false, slot, early, present, Bool.and_false, Bool.or_self, Bool.false_eq_true]
  obtain ⟨s1, admitted, operand⟩ := State.localOperand _ _ _ _ _ _
  cases admitted with
  | false => rfl
  | true => rfl

end Form

/-- Settles O29: the writes of a bucket's and a stage's words are their operations as they stand, every other command the branch
that its hypotheses pick. -/
theorem bucketsAndStages : Obligations.BucketsAndStages := by
  refine ⟨?bucketWord, ?part, ?deadline, ?stageWord, ?accept, ?mismatch, ?form, ?late⟩
  case bucketWord => exact fun _ _ _ _ _ => rfl
  case part => exact fun _ _ _ valid holds full released => congrArg ok (bucketPart_of_full valid holds full released)
  case deadline => exact fun _ _ valid running => congrArg ok (bucketDeadline_of_running valid running)
  case stageWord => exact fun _ _ _ _ _ _ => rfl
  case accept =>
    exact fun _ _ _ _ _ _ _ _ oldest running place sort carries stage new match_ room =>
      congrArg ok (redAccept_of_new oldest running place sort carries stage new match_ room)
  case mismatch =>
    exact fun _ _ _ _ _ _ _ _ oldest running place sort carries stage _ differ =>
      congrArg ok (redAccept_of_mismatch oldest running place sort carries stage differ)
  case form =>
    exact fun _ _ _ _ running valid remains turn slot present inTime =>
      congrArg (fun t : State => ok t.tryReady) (stageForm_of_ready running valid remains turn slot present inTime)
  case late =>
    exact fun _ _ _ _ running valid remains turn slot fifo late =>
      congrArg (fun t : State => ok t.tryReady) (stageForm_of_late running valid remains turn slot fifo late)

end Sys2Proof.Machine
end

section
/-! PROOFS.
The Cellar's link errors, check buffers, refresh, MR4 polls and WCK2DQ tracking (spec 17 R495–R505). -/

namespace Sys2Proof.Machine

/-! ### Refresh (R501–R504) -/

section Refresh
variable {s : State}

theorem bankRefresh_of_free {c : Nat} (rank : Bool) (free : s.devHeld (devOf c) = false) :
    bankRefresh s c rank =
      let key := 2 * c + rank.toNat
      let s1 := s.refreshPast key
      let t := refreshFrom key (refInterval (s.pattern (devOf c))) (Nat.max s.ct (Tab.get 0 s1.refAt key))
      let s2 := s1.toCt t
      let k := Tab.get 0 s2.refBank key
      { s2 with
        refAt := Tab.put s2.refAt key (t + 1), refBank := Tab.put s2.refBank key (k + 1)
        bankBlk := Tab.put s2.bankBlk (key * 16 + k % 16) (t + 1400)
        osc := if k % 64 = 0 then Tab.put s2.osc key (t + 1000) else s2.osc } :=
  if_neg (Bool.eq_false_iff.mp free)

variable {d p : Nat} (free : s.devHeld d = false)
include free

/-- A planned pattern: a faster one is an event that counts. -/
theorem patternChange_of_planned {due : Nat} (planned : Tab.find s.patPend d = some (p, due)) :
    patternChange s d =
      let s1 := (s.toCt (if s.ct ≤ due then due else nextMultiple slotCycle s.ct)).refreshDev d
      let s2 : State := { s1.setFld (rDev d) 1 0 p with patPend := Tab.erase s1.patPend d }
      if s1.pattern d < p then
        ((s2.event (rDev d) 62).setReg (rDev d) (plainCount 31 16 1 (setBit (s2.reg (rDev d)) 62 true))).raiseKeep 4
      else s2 := by
  simp only [patternChange, free, Bool.false_eq_true, if_false, planned, decide_eq_true_eq]

/-- A slower pattern waits for a clearing. -/
theorem patternChange_of_slower {t : Nat} (none_ : Tab.find s.patPend d = none) (slower : Tab.find s.slower d = some p)
    (boundary : s.clearingMultiple slotCycle = some t) :
    patternChange s d =
      let s1 := (s.toCt t).refreshDev d
      { (s1.setFld (rDev d) 1 0 p).clrFlag (rDev d) 6 with slower := Tab.erase s1.slower d } := by
  simp only [patternChange, free, Bool.false_eq_true, if_false, none_, slower, boundary]

end Refresh

/-! ### WCK2DQ tracking (R505) -/

/-- The delay step that the next choice of the outside gives. -/
def State.trackDelay (s : State) : Int := match Config.trackStep s.free with | 0 => 0 | 1 => 1 | _ => -1

theorem wckTrack_of_started {s : State} {c t : Nat} {rank : Bool} {count : W16}
    (started : Tab.find s.osc (2 * c + rank.toNat) = some t) :
    wckTrack s c rank count =
      let key := 2 * c + rank.toNat
      let s1 := s.toCt t
      { s1 with
        wck := Tab.put s1.wck key (count.toNat, (Tab.get (0, 0) s1.wck key).2 + s1.trackDelay)
        osc := Tab.erase s1.osc key, free := s1.free + 1 } := by
  simp only [wckTrack, started]
  rfl

/-- Settles O31: a reread, a flush and a poll are their operations as they stand, every other command the branch that its
hypotheses pick. -/
theorem cellarErrorsAndRefresh : Obligations.CellarErrorsAndRefresh := by
  refine ⟨?reread, ?flush, ?refresh, ?poll, ?planned, ?slower, ?track⟩
  case reread => exact fun _ _ _ _ => rfl
  case flush => exact fun _ _ => rfl
  case refresh => exact fun _ _ rank free => congrArg ok (bankRefresh_of_free rank free)
  case poll => exact fun _ _ _ _ _ => rfl
  case planned => exact fun _ _ _ _ free planned => congrArg ok (patternChange_of_planned free planned)
  case slower => exact fun _ _ _ _ free none_ slower boundary => congrArg ok (patternChange_of_slower free none_ slower boundary)
  case track => exact fun _ _ _ _ _ started => congrArg ok (wckTrack_of_started started)

end Sys2Proof.Machine
end

section
/-! PROOFS.
The host port and its stream channels: requests, training, resets, DOE, line responses, timeouts and doorbells (spec 18
R510–R527, 23 R620). -/

namespace Sys2Proof.Machine
variable {s : State}

/-! ### Requests of the host (R513, R510, R620) -/

section Requests
variable (up : s.hostUp = true) (secure : s.port.ideDead.contains 0 = false)
include up secure

/-- A request within its BAR is cut into pieces that wait for input 0. -/
theorem hostRequest_of_legal {wr : Bool} {bar off len n : Nat} {data : List Byte} (known : bar ≤ 2)
    (size : (if wr then data.length else len) = n) (some_ : n ≠ 0) (most : n ≤ if wr then 512 else 4096)
    (within : off + n ≤ barSize bar) :
    hostRequest s wr bar off data len =
      let a := barBase bar + off
      let v := if wr then data.foldr (fun b acc => b.toNat + 256 * acc) 0 else 0
      let l := cutPieces s.port.nextReq wr 65 0 a n v
      (s.modPort (fun p => { p with
        waiting := p.waiting ++ l, reqs := p.reqs ++ [⟨s.port.nextReq, wr, a, n, l.length, 0, 0, false⟩]
        nextReq := s.port.nextReq + 1 })).feedHost := by
  subst size
  refine if_neg ?_
  rw [up, secure]
  simp only [Bool.true_eq_false, Bool.false_eq_true, false_or, not_or, Nat.not_lt]
  exact ⟨known, some_, most, within⟩

variable {wr : Bool} {off : Nat} {data : W32}

/-- A configuration request by the state of the port and its kind. -/
theorem configRequest_of_up :
    configRequest s wr off data =
      if s.portReady = false then s.send (.cfgReply true 0)
      else if wr then (s.modPort (fun p => { p with cfg := Tab.put p.cfg (off / 4 * 4) data })).send (.cfgReply false 0)
      else s.send (.cfgReply false (s.cfgRead (off / 4 * 4))) :=
  if_neg (by rw [up, secure]; decide)

theorem configRequest_of_unready (unready : s.portReady = false) :
    configRequest s wr off data = s.send (.cfgReply true 0) :=
  (configRequest_of_up up secure).trans (if_pos unready)

theorem configRequest_of_ready (ready : s.portReady = true) :
    configRequest s wr off data =
      if wr then (s.modPort (fun p => { p with cfg := Tab.put p.cfg (off / 4 * 4) data })).send (.cfgReply false 0)
      else s.send (.cfgReply false (s.cfgRead (off / 4 * 4))) :=
  (configRequest_of_up up secure).trans (if_neg (by rw [ready]; decide))

end Requests

/-! ### Link training and DOE (R510, R511, R524) -/

theorem linkTraining_of_down {agreed lopt : Bool} {width rate : Nat} (powered : s.powered = true) (down : s.hostUp = false) :
    linkTraining s agreed width rate lopt =
      if agreed ∧ (width = 4 ∨ width = 8 ∨ width = 16) ∧ rate ≤ 2 then
        s.setReg rLstat (setBits (setBits (setBits (setBit (s.reg rLstat) 15 lopt) 12 8 width) 7 6 rate) 2 0 2)
      else s.setFld rLstat 15 0 3 :=
  if_neg (by rw [powered, down]; decide)

theorem doeDiscovery_of_protocol {box : Bool} {index v t : Nat} (up : s.hostUp = true)
    (protocol : (doeProtocols box)[index]? = some (v, t)) :
    doeDiscovery s box index =
      s.send (.doe (bytesOf (v + t * 2 ^ 16 + (if index + 1 < (doeProtocols box).length then index + 1 else 0) * 2 ^ 24) 4)) := by
  rw [doeDiscovery, if_pos up]
  simp only [protocol]

/-- Settles O33: each request is the branch of its operation that a link that is up and secure leaves; resets, IDE failures and
unmaskings are their operations as they stand. -/
theorem hostPortRequests : Obligations.HostPortRequests := by
  refine ⟨?memory, ?unready, ?write, ?read, ?training, ?reset, ?ide, ?snoop, ?unmask, ?doe, ?table, ?records⟩
  case memory =>
    exact fun _ _ _ _ _ _ _ up secure known size some_ most within =>
      congrArg ok (hostRequest_of_legal up secure known size some_ most within)
  case unready => exact fun _ _ _ _ up secure unready => congrArg ok (configRequest_of_unready up secure unready)
  case write =>
    exact fun _ _ _ _ up secure ready write => congrArg ok ((configRequest_of_ready up secure ready).trans (if_pos write))
  case read =>
    exact fun _ _ _ _ up secure ready read =>
      congrArg ok ((configRequest_of_ready up secure ready).trans (if_neg (by rw [read]; decide)))
  case training => exact fun _ _ _ _ _ powered down => congrArg ok (linkTraining_of_down powered down)
  case reset => exact fun _ _ => rfl
  case ide => exact fun _ _ => rfl
  case snoop => exact fun _ _ up => congrArg ok (if_pos up)
  case unmask => exact fun _ _ => rfl
  case doe => exact fun _ _ _ _ _ up protocol => congrArg ok (doeDiscovery_of_protocol up protocol)
  case table => exact fun _ _ up => congrArg ok (if_pos up)
  case records => exact fun _ _ up => congrArg ok (if_pos up)

/-! ### Responses and timeouts of a channel's lines (R517, R519) -/

section Lines
variable {c id st : Nat} {data : Line} {h : HRow} (found : (s.hrows c).find? (fun h => h.id == id / 8) = some h)
  (new : h.lines.contains (id % 8) = false)
include found new

/-- HCHc waits no longer than its timeout for a line that has not come. -/
theorem hostTimeout_of_waiting :
    hostTimeout s c id = ((s.toCt (h.since + s.fld rHcto 31 0 * ctPerUs)).event (rHchStat c) 62).hostError c h.id := by
  simp only [hostTimeout, found, new, Bool.false_eq_true, if_false]

variable (secure : s.port.ideDead.contains 1 = false)
include secure

/-- A line that ended in an error ends its row. -/
theorem hostLineIn_of_error (failed : st ≠ 0) :
    hostLineIn s c id st data = (if st = 2 then (s.event rRas 0).msix 9 else s).hostError c (id / 8) := by
  simp only [hostLineIn, secure, hostLine, found, new, Bool.false_eq_true, if_false, if_pos failed]

/-- The row after a completed line. -/
def HRow.withLine (h : HRow) (line : Nat) (data : Line) : HRow :=
  { h with
    lines := line :: h.lines
    data := if h.write then h.data else setBits h.data (512 * line + 511) (512 * line) data.toNat }

/-- One of the first seven lines joins its row. -/
theorem hostLineIn_of_early (good : st = 0) (early : h.lines.length < 7) :
    hostLineIn s c id st data =
      s.setHrows c ((s.hrows c).map (fun x => if x.id = id / 8 then h.withLine (id % 8) data else x)) := by
  have room : h.lines.length + 1 < 8 := Nat.succ_lt_succ early
  simp only [hostLineIn, secure, hostLine, found, new, good, ne_eq, not_true_eq_false, Bool.false_eq_true, if_false,
    List.length_cons, room, if_true, HRow.withLine]

/-- The queue entry that a complete row of host memory fills: a write's becomes ready, a read's takes the row. -/
def HRow.fill (h : HRow) (row : Row) (k : Core) : Core :=
  if h.write then
    { k with wq := Tab.put k.wq h.queue ((k.wqueue h.queue).map (fun e =>
      if e.id = h.entry then { e with ready := true } else e)) }
  else
    { k with rq := Tab.put k.rq h.queue { k.rqueue h.queue with entries := (k.rqueue h.queue).entries.map (fun e =>
      if e.id = h.entry then { e with row := some row } else e) } }

/-- The eighth line completes its row. -/
theorem hostLineIn_of_last (good : st = 0) (last : h.lines.length = 7) :
    hostLineIn s c id st data =
      ((s.setHrows c ((s.hrows c).filter (fun x => x.id ≠ id / 8))).countMod 48 63 (rHchRows c) 1).modCore h.core
        (h.fill (h.withLine (id % 8) data).data) := by
  have full : ¬h.lines.length + 1 < 8 := by omega
  simp only [hostLineIn, secure, hostLine, found, new, good, ne_eq, not_true_eq_false, Bool.false_eq_true, if_false,
    List.length_cons, full, HRow.withLine]
  rfl

end Lines

/-- Settles O34: a line's response by its status and the number of its row's lines, a timeout in its one branch, and the channel
registers' operations as they stand. -/
theorem hostStreamChannels : Obligations.HostStreamChannels := by
  refine ⟨?bind, ?early, ?last, ?error, ?timeout, ?sync, ?done, ?dbell⟩
  case bind => exact fun _ _ _ _ => rfl
  case early =>
    exact fun _ _ _ _ _ _ secure found new good early => congrArg ok (hostLineIn_of_early found new secure good early)
  case last => exact fun _ _ _ _ _ _ secure found new good last => congrArg ok (hostLineIn_of_last found new secure good last)
  case error => exact fun _ _ _ _ _ _ secure found new failed => congrArg ok (hostLineIn_of_error found new secure failed)
  case timeout => exact fun _ _ _ _ found new => congrArg ok (hostTimeout_of_waiting found new)
  case sync => exact fun _ _ => rfl
  case done => exact fun _ => rfl
  case dbell => exact fun _ _ _ => rfl

end Sys2Proof.Machine
end

section
/-! PROOFS.
Events and the processors: errors of stores, interrupts, claims and completions, control registers, sleep and return (spec 03
R103, 19 R531–R545). -/

namespace Sys2Proof.Machine
variable {s : State}

/-! ### Errors of stores, interrupts and sleep (R532, R534, R540) -/

theorem storeError_of_pending {p : Nat} {a : W64} {rest : List W64} (pending : (s.proc p).errs = a :: rest)
    (on : (s.proc p).st = 1 ∨ (s.proc p).st = 2) (idle : (s.proc p).load = none) :
    storeError s p =
      ((s.procEdge p (s.proc p).nextAt).modProc p (fun k => { k with errs := rest })).exception p (5 + 256) a := by
  simp only [storeError, pending]
  exact if_pos ⟨on, by rw [idle]; rfl⟩

theorem interruptEntry_of_presented {p : Nat} (running : (s.proc p).st = 1) (idle : (s.proc p).load = none)
    (presented : s.interrupts p = true) :
    interruptEntry s p =
      let s1 : State := { s.procEdge p (s.proc p).nextAt with free := s.free + 1 }
      s1.modProc p (fun k =>
        { k.enter 16 (Config.interruptTval s.free) 3 with nextAt := s1.rootNow + 4 * procPeriod p }) :=
  if_pos ⟨running, by rw [idle]; rfl, presented⟩

/-! ### Claims and completions (R536, R537) -/

theorem State.clear_evStacks (s : State) (r b : Nat) : (s.clear r b).evStacks = s.evStacks := by
  rw [State.clear]
  split <;> rfl

/-- A claim changes the stacks of the state before it. -/
theorem State.claimSource_eq (s : State) (p i : Nat) :
    s.claimSource p i =
      { ((s.clear (rSrc (p / 4) i) 8).setFlag (rSrc (p / 4) i) 9).setFld (rCpEvc p) 19 10 i with
        evStacks := Tab.put s.evStacks p ((i, s.fld (rSrc (p / 4) i) 3 0) :: s.stack p) } := by
  rw [← State.clear_evStacks s (rSrc (p / 4) i) 8]
  rfl

section Claims
variable {p i : Nat}

/-- Where no processor of a lower number reads CLAIM in the same cycle, none takes a source first. -/
theorem lowerClaims_eq_nil (alone : ∀ q < p, s.claimsToo q = false) :
    ((List.range 4).map (4 * (p / 4) + ·)).filter (fun q => decide (q < p) && s.claimsToo q) = [] := by
  refine List.filter_eq_nil_iff.mpr fun q _ claims => ?_
  obtain ⟨lower, too⟩ := (Bool.and_eq_true _ _).mp claims
  exact absurd too (by rw [alone q (of_decide_eq_true lower)]; decide)

variable (alone : ∀ q < p, s.claimsToo q = false)
include alone

theorem claimOp_of_source (free : s.held p = false) (best : s.bestSource p = some i) : claimOp s p = s.claimSource p i := by
  simp only [claimOp, State.claimRead, lowerClaims_eq_nil alone, List.foldl_nil, free, Bool.false_eq_true, if_false, best]

theorem claimOp_of_none (nothing : s.held p = true ∨ s.bestSource p = none) :
    claimOp s p = s.setFld (rCpEvc p) 19 10 spurious := by
  have given : (if s.held p then none else s.bestSource p) = none := by
    rcases nothing with held | none_
    · rw [if_pos held]
    · rw [none_, ite_self]
  simp only [claimOp, State.claimRead, lowerClaims_eq_nil alone, List.foldl_nil, given]

end Claims

section Completions
variable {p i : Nat} (real : i ≠ 1023)
include real

theorem completeOp_of_top {l : Nat} {rest : List (Nat × Nat)} (top : s.stack p = (i, l) :: rest) :
    completeOp s p i = { s.clrFlag (rSrc (p / 4) i) 9 with evStacks := Tab.put s.evStacks p rest } := by
  simp only [completeOp, spurious, real, top, if_false, if_true]

theorem completeOp_of_other (other : (s.stack p).head?.map (·.1) ≠ some i) :
    completeOp s p i = (s.event (rCpEvc p) 63).raiseKeep 1 := by
  refine (if_neg real).trans ?_
  cases stack : s.stack p with
  | nil => rfl
  | cons top rest =>
    have differs : top.1 ≠ i := fun same => other (by rw [stack, ← same]; rfl)
    exact if_neg differs

end Completions

/-- Settles O35: each command of a processor or a controller by the branch of its operation; raisings, WFE_WAKE and the three
commands of the Keeper are their operations as they stand. -/
theorem eventsAndProcessorControl : Obligations.EventsAndProcessorControl := by
  refine ⟨?storeError, ?interrupt, ?wake, ?claim, ?spurious, ?complete, ?wrong, ?raise, ?software, ?clear, ?run, ?halt, ?reset⟩
  case storeError => exact fun _ _ _ _ pending on idle => congrArg ok (storeError_of_pending pending on idle)
  case interrupt => exact fun _ _ running idle presented => congrArg ok (interruptEntry_of_presented running idle presented)
  case wake => exact fun _ _ => rfl
  case claim => exact fun s _ _ alone free best => congrArg ok ((claimOp_of_source alone free best).trans (s.claimSource_eq ..))
  case spurious => exact fun _ _ alone nothing => congrArg ok (claimOp_of_none alone nothing)
  case complete => exact fun _ _ _ _ _ real top => congrArg ok (completeOp_of_top real top)
  case wrong => exact fun _ _ _ real other => congrArg ok (completeOp_of_other real other)
  case raise => exact fun _ _ _ => rfl
  case software => exact fun _ _ _ _ => rfl
  case clear => exact fun _ _ _ _ => rfl
  case run => exact fun _ _ _ _ => rfl
  case halt => exact fun _ _ _ => rfl
  case reset => exact fun _ _ _ => rfl

/-! ### Control registers, sleep and return of a processor (R103, R531, R540) -/

theorem sRdcsr_means : Means .sRdcsr semAbsent pRdcsr := ⟨fun _ _ => rfl, fun _ _ => rfl, _, fun _ _ _ => rfl⟩
theorem sWrcsr_means : Means .sWrcsr semAbsent pWrcsr := ⟨fun _ _ => rfl, fun _ _ => rfl, _, fun _ _ _ => rfl⟩
theorem sWfe_means : Means .sWfe semAbsent pWfe := ⟨fun _ _ => rfl, fun _ _ => rfl, _, fun _ _ _ => rfl⟩
theorem sEret_means : Means .sEret semAbsent pEret := ⟨fun _ _ => rfl, fun _ _ => rfl, _, fun _ _ _ => rfl⟩

theorem pRdcsr_noAccess : pRdcsr.NoAccess :=
  ⟨rfl, rfl, fun _ _ _ => by rw [pRdcsr, State.load_procWrite, State.csrRead_load]⟩

theorem pWrcsr_noAccess : pWrcsr.NoAccess := ⟨rfl, rfl, fun _ _ _ => State.csrWrite_load ..⟩

theorem pWfe_eff (s : State) (p : Nat) (op : W32) :
    pWfe.eff s p op = if s.wakes p then s else s.modProc p (fun k => { k with st := 2 }) := rfl

theorem pWfe_noAccess : pWfe.NoAccess := by
  refine ⟨rfl, rfl, fun s p _ => ?_⟩
  by_cases awake : s.wakes p
  · rw [pWfe_eff, if_pos awake]
  · rw [pWfe_eff, if_neg awake, State.proc_modProc]

theorem pEret_noAccess : pEret.NoAccess := ⟨rfl, rfl, fun _ _ _ => by rw [pEret, State.proc_modProc]⟩

/-- The control registers that a read gives as they stand. -/
theorem State.csrRead_of_stored {p n : Nat} {f : Proc → W64}
    (stored : (n, f) ∈ [(0x000, Proc.status), (0x001, Proc.epc), (0x002, Proc.cause), (0x003, Proc.tval),
      (0x004, Proc.vecbase), (0x005, Proc.scratch)]) : s.csrRead p n = (s, f (s.proc p)) := by
  simp only [List.mem_cons, Prod.mk.injEq, List.not_mem_nil, or_false] at stored
  obtain ⟨rfl, rfl⟩ | ⟨rfl, rfl⟩ | ⟨rfl, rfl⟩ | ⟨rfl, rfl⟩ | ⟨rfl, rfl⟩ | ⟨rfl, rfl⟩ := stored <;> rfl

/-- The control registers that a write stores into, STATUS its three bits. -/
theorem State.csrWrite_of_stored {p n : Nat} {f : W64 → Proc → Proc} (v : W64)
    (stored : (n, f) ∈ [(0x000, fun v k => { k with status := v &&& 7 }), (0x001, fun v k => { k with epc := v }),
      (0x004, fun v k => { k with vecbase := v }), (0x005, fun v k => { k with scratch := v })]) :
    s.csrWrite p n v = s.modProc p (f v) := by
  simp only [List.mem_cons, Prod.mk.injEq, List.not_mem_nil, or_false] at stored
  obtain ⟨rfl, rfl⟩ | ⟨rfl, rfl⟩ | ⟨rfl, rfl⟩ | ⟨rfl, rfl⟩ := stored <;> rfl

section Completes
variable {p : ProcIx} {op : W32} (running : (s.proc p).st = 1) (idle : (s.proc p).load = none)
include running idle

theorem exec_sRdcsr (noInterrupt : (s.procIssue p [fRd op]).interrupts p = false) :
    exec (.sRdcsr (.proc p) op) s =
      .next ((((s.procIssue p [fRd op]).csrRead p (bits op 11 0)).1.procWrite p (fRd op) 1
        ((s.procIssue p [fRd op]).csrRead p (bits op 11 0)).2).procDone p (s.procIssue p [fRd op]).rootNow none) :=
  exec_of_noAccess sRdcsr_means pRdcsr_noAccess running idle rfl rfl noInterrupt rfl rfl

theorem exec_sWrcsr (fields : srcOkP (fSrc1 op) = true)
    (noInterrupt : (s.procIssue p ([fSrc1 op].filter (· < 32))).interrupts p = false) :
    exec (.sWrcsr (.proc p) op) s =
      .next (((s.procIssue p ([fSrc1 op].filter (· < 32))).csrWrite p (bits op 11 0) ((s.proc p).a op)).procDone p
        (s.procIssue p ([fSrc1 op].filter (· < 32))).rootNow none) :=
  exec_of_noAccess sWrcsr_means pWrcsr_noAccess running idle fields (List.append_nil _) noInterrupt
    (by simp only [pWrcsr, State.procIssue_proc]) rfl

end Completes

/-- Settles O59: none of the four makes an access, so each completes with its effect and its branch; a control register of the
tables is read and written as its field. -/
theorem processorControl : Obligations.ProcessorControl := by
  refine ⟨?read, ?write, ?wfe, ?eret, ?stored, ?store⟩
  case read => exact fun _ _ _ running idle noInterrupt => exec_sRdcsr running idle noInterrupt
  case write => exact fun _ _ _ running idle fields noInterrupt => exec_sWrcsr running idle fields noInterrupt
  case wfe =>
    intro s p op running idle t noInterrupt
    have completes {after : State} := exec_of_noAccess (after := after) (op := op) (jump := none) sWfe_means pWfe_noAccess running
      idle rfl rfl noInterrupt
    exact ⟨fun awake => completes (if_pos awake) rfl, fun asleep => completes (if_neg (Bool.eq_false_iff.mp asleep)) rfl⟩
  case eret =>
    exact fun _ _ _ running idle noInterrupt =>
      exec_of_noAccess sEret_means pEret_noAccess running idle rfl rfl noInterrupt rfl
        (by simp only [pEret, State.procIssue_proc])
  case stored =>
    intro s p op n f running idle stored at_ t noInterrupt
    rw [exec_sRdcsr running idle noInterrupt, at_, State.csrRead_of_stored stored, State.procIssue_proc]
  case store =>
    intro s p op n f running idle fields stored at_ t noInterrupt
    rw [exec_sWrcsr running idle fields noInterrupt, at_, State.csrWrite_of_stored _ stored]

end Sys2Proof.Machine
end

section
/-! PROOFS.
Management messages, firmware updates, activation and the life cycle (spec 18 R524–R526, 20 R552–R569, 22 R595). -/

namespace Sys2Proof.Machine
variable {s : State}

/-! ### Messages (R548, R560, R616) -/

theorem State.message_of_answers (answers : s.answers = true) (f : State → State) : s.message f = f s.heard := if_pos answers

section Taken
variable (taken : s.answers = true ∨ (s.roleState ≠ 2 ∧ s.recovering = true))
include taken

theorem State.takes_pldm : (s.answers || (s.roleState != 2 && s.recovering)) = true := by
  simpa only [Bool.or_eq_true, Bool.and_eq_true, bne_iff_ne] using taken

theorem State.pldm_of_taken (f : State → State) : s.pldm f = f s.heard := if_pos (State.takes_pldm taken)

end Taken

/-! ### IDE key management inside a secured session (R525, R526) -/

section Ide
variable (answers : s.answers = true) {io keyset : Bool} {op : Nat} {key : Key}
include answers

theorem ideKm_of_unsecured (unsecured : s.heard.spdm.session ≠ 2) :
    ideKm s io op keyset key = s.heard.spdmAnswer 0xFE [] [0] :=
  Eq.trans (if_pos answers) (if_pos unsecured)

variable (secured : s.heard.spdm.session = 2)
include secured

theorem ideKm_of_program (program : op = 0) :
    ideKm s io op keyset key =
      (s.heard.modPort (fun p => { p with
        ideKeys := Tab.put p.ideKeys (2 * (if io then 0 else 1) + keyset.toNat) key })).spdmAnswer 0xFE [] [1] := by
  subst program
  exact Eq.trans (if_pos answers) (if_neg (not_not.mpr secured))

theorem ideKm_of_enter (enter : op = 1)
    (programmed : (Tab.find s.heard.port.ideKeys (2 * (if io then 0 else 1) + keyset.toNat)).isSome = true) :
    ideKm s io op keyset key =
      ((s.heard.setFlag rLstat (13 + if io then 0 else 1)).modPort (fun p =>
        { p with ideDead := p.ideDead.filter (· ≠ if io then 0 else 1) })).spdmAnswer 0xFE [] [1] := by
  subst enter
  refine Eq.trans (if_pos answers) (Eq.trans (if_neg (not_not.mpr secured)) ?_)
  exact congrArg (State.spdmAnswer · 0xFE [] [1]) (if_pos programmed)

theorem ideKm_of_leave (leave : op = 2) :
    ideKm s io op keyset key =
      (if s.heard.flag rLstat (13 + if io then 0 else 1) then s.heard.ideLeave (if io then 0 else 1)
       else s.heard).spdmAnswer 0xFE [] [1] := by
  subst leave
  exact Eq.trans (if_pos answers) (if_neg (not_not.mpr secured))

theorem ideKm_of_query (query : op = 3) : ideKm s io op keyset key = s.heard.spdmAnswer 0xFE [] [1] := by
  subst query
  exact Eq.trans (if_pos answers) (if_neg (not_not.mpr secured))

end Ide

/-- Settles O38: an answering member does with a message what the operation hands to it; IDE_KM by the session and its
operation. -/
theorem managementSessions : Obligations.ManagementSessions := by
  refine ⟨?mailbox, ?endpoint, ?discovery, ?version, ?capabilities, ?algorithms, ?digests, ?certificate, ?challenge, ?measure,
    ?exchange, ?finish, ?update, ?heartbeat, ?end_, ?program, ?enter, ?leave, ?query, ?unsecured, ?fence⟩
  case mailbox => exact fun _ _ taken up => congrArg ok ((if_pos up).trans (State.pldm_of_taken taken _))
  case discovery => exact fun _ _ taken => congrArg ok (State.pldm_of_taken taken _)
  case endpoint | version | capabilities | algorithms | digests | exchange | finish | update =>
    exact fun _ _ answers => congrArg ok (State.message_of_answers answers _)
  case heartbeat | end_ => exact fun _ answers => congrArg ok (State.message_of_answers answers _)
  case challenge => exact fun _ _ _ answers => congrArg ok (State.message_of_answers answers _)
  case certificate => exact fun _ _ _ _ answers => congrArg ok (State.message_of_answers answers _)
  case measure => exact fun _ _ _ _ answers => congrArg ok (Eq.trans (if_pos answers) rfl)
  case program => exact fun _ _ _ _ _ answers secured program => congrArg ok (ideKm_of_program answers secured program)
  case enter =>
    exact fun _ _ _ _ _ answers secured enter programmed => congrArg ok (ideKm_of_enter answers secured enter programmed)
  case leave => exact fun _ _ _ _ _ answers secured leave => congrArg ok (ideKm_of_leave answers secured leave)
  case query => exact fun _ _ _ _ _ answers secured query => congrArg ok (ideKm_of_query answers secured query)
  case unsecured => exact fun _ _ _ _ _ answers unsecured => congrArg ok (ideKm_of_unsecured answers unsecured)
  case fence => exact fun _ _ => rfl

/-! ### An update in progress (R560–R562) -/

section Updates
variable {u : Update} (taken : s.answers = true ∨ (s.roleState ≠ 2 ∧ s.recovering = true))
  (update : s.heard.update = some u) {comp : Nat}
include taken update

theorem firmwareData_of_chunk {off : Nat} {data : List Byte} (named : u.comps.contains comp = true)
    (short : data.length ≤ 1024) (within : off + data.length ≤ 0x1000000) :
    firmwareData s comp off data =
      (s.heard.setNv (fun n => n.write (slotBase comp (s.heard.spareHalf comp) + off) data.length
        (data.foldr (fun b a => b.toNat + 256 * a) 0))).raiseKeep 18 := by
  rw [firmwareData, State.pldm_of_taken taken]
  simp only [update]
  exact if_pos ⟨named, short, within⟩

theorem verifyComplete_of_update :
    verifyComplete s comp =
      if u.comps.contains comp ∧ s.heard.imageValid comp then
        (s.heard.setUpdate (some { u with verified := u.verified ++ [comp] })).reply (Config.pldmReply 0x17 [1])
      else s.heard.reply (Config.pldmReply 0x17 [0]) := by
  rw [verifyComplete, State.pldm_of_taken taken]
  simp only [update]

theorem activateFirmware_of_update :
    activateFirmware s =
      ((u.verified.foldl (fun a c => if s.heard.imageValid c then a.activate c else a.log 3 2 5) s.heard).setUpdate none).reply
        (Config.pldmReply 0x1A [1]) := by
  rw [activateFirmware, State.pldm_of_taken taken]
  simp only [update]

end Updates

/-! ### Activations that wait for a clearing or a link (R564) -/

theorem cpActivation_of_clearing {s1 : State} (pending : s.cpPend = true)
    (at_ : (if s.inClearing then s else s.toCt (s.reg rClrBegin).toNat) = s1) (long : ctPerMs ≤ s1.clearingLeft)
    (on : s1.hiveOff = false) :
    cpActivation s =
      let img := s1.newSlot 2
      let s2 := (List.range 16).foldl (fun a p => a.modProc p (fun k =>
        { k.start (Config.imageEntry img) a.rootNow with
          code := img, sram := k.sram.filter (fun e => (Config.imageCode img e.1).isNone) })) s1
      { s2.markActive 2 with cpPend := false } := by
  subst at_
  refine (if_neg (by rw [pending]; decide)).trans (if_neg ?_)
  rw [on]
  simpa only [Bool.false_eq_true, or_false, Nat.not_lt] using long

theorem laneSwitch_of_next {k : Nat} (new : (s.link k).codeNew = true)
    (first : (List.range k).any (fun j => (s.link j).codeNew) = false) :
    laneSwitch s k =
      let s1 := (s.toCt (nextMultiple slotCycle s.ct)).modLink k (fun l => { l with codeNew := false })
      if (List.range 24).any (fun j => (s1.link j).codeNew) then s1 else s1.markActive 3 := by
  have switched : laneCodeSwitch s k =
      (s.toCt (nextMultiple slotCycle s.ct)).modLink k (fun l => { l with codeNew := false }) := if_pos new
  refine Eq.trans (if_neg (by rw [new, first]; decide)) ?_
  rw [switched]

/-- The keys that may sign each transition of R568; none leads out of Retired. -/
theorem transitionKeys_table : transitionKeys 0 1 = [0] ∧ transitionKeys 1 2 = [0] ∧ transitionKeys 2 3 = [1] ∧
    transitionKeys 3 2 = [1] ∧ (∀ k, k < 4 → transitionKeys k 4 = [0, 1]) ∧ (∀ t, transitionKeys 4 t = []) :=
  ⟨rfl, rfl, rfl, rfl, by decide, fun _ => rfl⟩

/-- Settles O39: each message of an update is its operation on the update in progress, and every activation and transition the
branch that its hypotheses pick. -/
theorem firmwareUpdatesAndLifeCycle : Obligations.FirmwareUpdatesAndLifeCycle := by
  refine ⟨?request, ?data, ?verify, ?activate, ?processors, ?lanes, ?transition, transitionKeys_table, ?nonce, ?unlock⟩
  case request => exact fun _ _ taken => congrArg ok (Eq.trans (if_pos (State.takes_pldm taken)) rfl)
  case data =>
    exact fun _ _ _ _ _ taken update named short within => congrArg ok (firmwareData_of_chunk taken update named short within)
  case verify => exact fun _ _ _ taken update => congrArg ok (verifyComplete_of_update taken update)
  case activate => exact fun _ _ taken update => congrArg ok (activateFirmware_of_update taken update)
  case processors => exact fun _ _ pending at_ long on => congrArg ok (cpActivation_of_clearing pending at_ long on)
  case lanes => exact fun _ _ new first => congrArg ok (laneSwitch_of_next new first)
  case transition => exact fun _ _ _ answers => congrArg ok (State.message_of_answers answers _)
  case nonce => exact fun _ answers => congrArg ok (State.message_of_answers answers _)
  case unlock => exact fun _ _ answers => congrArg ok (State.message_of_answers answers _)

end Sys2Proof.Machine
end

section
/-! PROOFS.
Bring-up, resets, loss of the input and the test port (spec 23 R615–R624, 24 R632). -/

namespace Sys2Proof.Machine
variable {s : State}

/-! ### The stages of bring-up (R615–R620) -/

/-- What the completion of stage k does while no stage has failed. -/
def stageDone (s : State) (failed : Positions) (rows : BadRows) (k : Nat) : State :=
  match k with
  | 3 => s.loadKeepers.setFld rBoot 3 0 (k + 1)
  | 7 => (selfTest s (failed.map (·.val)) (rows.map (fun x => (x.1.val, x.2)))).setFld rBoot 3 0 (k + 1)
  | 8 => ((s.runBoot 4).setFlag rCellStat 2).setFld rBoot 3 0 (k + 1)
  | 9 => s.startProcs.setFld rBoot 3 0 (k + 1)
  | 10 => ({ s with portReady := true } : State).setFld rBoot 3 0 (k + 1)
  | 11 => (s.runBoot 3).setFld rBoot 3 0 (k + 1)
  | 12 => if s.flag rTstat 3 then s.setFld rBoot 3 0 (k + 1) else s
  | 13 => ((gctlWrite s 2).setFld rBoot 3 0 (k + 1)).setFlag rBoot 8
  | 14 => s
  | _ => s.setFld rBoot 3 0 (k + 1)

section Stages
variable {failed : Positions} {rows : BadRows} (powered : s.powered = true)
include powered

/-- The completion of a stage by its number. -/
theorem stageComplete_of_stage {k : Nat} (going : s.bootCause = 0) (at_ : s.stage = k) :
    stageComplete s failed rows = stageDone s failed rows k := by
  refine ((if_neg (by rw [powered]; decide)).trans (if_neg (not_not.mpr going))).trans ?_
  rw [at_]
  rfl

/-- After a failure in stages 3 to 9 the host port alone completes. -/
theorem stageComplete_of_failed (stopped : s.bootCause ≠ 0) (from_ : 3 ≤ s.stage) (until_ : s.stage ≤ 9) :
    stageComplete s failed rows = { s with portReady := true } :=
  ((if_neg (by rw [powered]; decide)).trans (if_pos stopped)).trans (if_pos ⟨from_, until_⟩)

theorem stageTimeout_of_cause {cause : Nat} (going : s.bootCause = 0) (before : s.stage < 14) (least : 1 ≤ cause)
    (most : cause ≤ 8) : stageTimeout s cause = (s.setFld rBoot 23 16 cause).log 4 1 2 := by
  refine if_neg ?_
  rw [powered, going]
  simp only [Bool.true_eq_false, ne_eq, not_true_eq_false, false_or]
  omega

end Stages

/-- The stages up to 6 whose completion has no effect of its own. -/
theorem stageDone_of_plain {failed : Positions} {rows : BadRows} {k : Nat} (plain : k ≤ 6 ∧ k ≠ 3) :
    stageDone s failed rows k = s.setFld rBoot 3 0 (k + 1) := by
  obtain ⟨early, notThree⟩ := plain
  have cases_ : k = 0 ∨ k = 1 ∨ k = 2 ∨ k = 4 ∨ k = 5 ∨ k = 6 := by omega
  obtain rfl | rfl | rfl | rfl | rfl | rfl := cases_ <;> rfl

/-! ### Core reset (R622–R624) -/

theorem coreResetOp_of_legal {inp i : Nat} (active : inp = s.activeKeeper) (mapped : s.fence i ≤ 1)
    (still : s.copying i = false) :
    coreResetOp s inp i =
      let t1 := [0, 1, 2, 3].foldl (fun a n => a.endNow i n) s
      let t2 := (({ t1 with free := t1.free + 1 } : State).freeHalts i).modCore i (fun k =>
        { k.coreReset with resetEnd := s.ct + Nat.min (10 * ctPerUs) (Config.resetTime t1.free) })
      if 2 ≤ t2.phase then t2.failCurrent else t2 := by
  refine (if_pos active).trans (if_neg ?_)
  rw [still]
  simpa only [Bool.false_eq_true, or_false, Nat.not_lt] using mapped

/-- Settles O40: each completion of a stage by the stage's number, a timeout and a core reset in the branch that their hypotheses
pick; the other resets, the thermal trip and the test port are their operations as they stand. -/
theorem bringUpAndResets : Obligations.BringUpAndResets := by
  refine ⟨?good, ?lost, ?keepers, ?lanes, ?selfTest, ?cellar, ?processors, ?port, ?time, ?glades, ?plain, ?timeout, ?module,
    ?core, ?thermal, ?idcode, ?bypass, ?boundary, ?failed⟩
  case good => exact fun _ => rfl
  case lost => exact fun _ => rfl
  case keepers | lanes | selfTest | cellar | processors | port | glades =>
    exact fun _ _ _ powered going at_ => congrArg ok ((stageComplete_of_stage powered going at_).trans rfl)
  case time =>
    exact fun _ _ _ powered going at_ qualified =>
      congrArg ok ((stageComplete_of_stage powered going at_).trans (if_pos qualified))
  case plain =>
    exact fun _ _ _ _ powered going at_ plain =>
      congrArg ok ((stageComplete_of_stage powered going at_).trans (stageDone_of_plain plain))
  case timeout =>
    exact fun _ _ powered going before least most => congrArg ok (stageTimeout_of_cause powered going before least most)
  case module => exact fun _ _ => rfl
  case core => exact fun _ _ _ active mapped still => congrArg ok (coreResetOp_of_legal active mapped still)
  case thermal => exact fun _ _ => rfl
  case idcode => exact fun | _, _, rfl => rfl
  case bypass => exact fun | _, _, rfl => rfl
  case boundary => exact fun | _, _, rfl => rfl
  case failed =>
    exact fun _ _ _ powered stopped from_ until_ => congrArg ok (stageComplete_of_failed powered stopped from_ until_)

end Sys2Proof.Machine
end
